-- ==== Sys2Proof/Word.lean ====
section
/-! DEFINITION. The word types of the model and their plainest arithmetic: bytes, little-endian numbers (R3),
two's-complement reading of a field, saturation and clamping. -/

namespace Sys2Proof

/-- One byte of memory, of a structure or of a message. -/
abbrev Byte := BitVec 8

/-- The number a list of bytes spells, little-endian (R3). -/
def leNat : List Byte → Nat
  | [] => 0
  | b :: t => b.toNat + 256 * leNat t

/-- The n little-endian bytes of a number, modulo 2^(8n) (R3). -/
def leBytes : Nat → Nat → List Byte
  | 0, _ => []
  | n + 1, v => BitVec.ofNat 8 v :: leBytes n (v / 256)

/-- The number in bits [lo + w - 1 : lo] of v. -/
def bitsOf (v lo w : Nat) : Nat := v / 2 ^ lo % 2 ^ w

/-- Bit n of v. -/
def bitAt (v n : Nat) : Bool := v / 2 ^ n % 2 == 1

/-- v with bit n set. -/
def setBit (v n : Nat) : Nat := if bitAt v n then v else v + 2 ^ n

/-- v with bit n clear. -/
def clrBit (v n : Nat) : Nat := if bitAt v n then v - 2 ^ n else v

/-- The integer a w-bit field holds in two's complement. -/
def toSigned (w v : Nat) : Int :=
  if v % 2 ^ w < 2 ^ (w - 1) then (v % 2 ^ w : Nat) else (v % 2 ^ w : Nat) - (2 ^ w : Nat)

/-- The w-bit two's-complement field of an integer, wrapped. -/
def ofSigned (w : Nat) (i : Int) : Nat := (i % (2 ^ w : Nat)).toNat

/-- An integer held between lo and hi. -/
def clampI (lo hi i : Int) : Int := max lo (min hi i)

/-- A number saturated at the largest w-bit value. -/
def satNat (w v : Nat) : Nat := min v (2 ^ w - 1)

/-- Bitwise or, and, and-not and exclusive or of numbers, by their bits. -/
def orBits (a b : Nat) : Nat := a ||| b
def andBits (a b : Nat) : Nat := a &&& b
def andNotBits (a b : Nat) : Nat := a - (a &&& b)
def xorBits (a b : Nat) : Nat := a ^^^ b

/-- The element at index i of a list, or a default. -/
def nth {α : Type} (d : α) (l : List α) (i : Nat) : α := l.getD i d

/-- Bytes [at, at + n) of a list, missing bytes as zero. -/
def slice (l : List Byte) (at_ n : Nat) : List Byte :=
  let t := (l.drop at_).take n
  t ++ List.replicate (n - t.length) 0

/-- The little-endian number in bytes [at, at + n) of a list. -/
def leAt (l : List Byte) (at_ n : Nat) : Nat := leNat (slice l at_ n)

/-- Set the element at index i of a list, if there is one. -/
def setNth {α : Type} (l : List α) (i : Nat) (v : α) : List α := l.set i v

end Sys2Proof
end

