-- ==== Sys2Proof/Syntax.lean ====
section
/-! DEFINITION. The commands the block takes, one constructor per row of spec/opcode_table.json, and the types of
their operands. An operand is what comes from outside the block at that moment: an address, a value, a length, data
read from host memory or from the medium, a measured time, the outcome of an analogue process, or a fault met. -/

namespace Sys2Proof

/-- A position P0 to P7, a beam engine E0 to E23, a function F0 to F15, a control core C0 to C5, a compression
engine Z0 to Z3 and a GDDR7 device M0 or M1 (Table 0.4). -/
abbrev PosIx := Fin 8
abbrev EngIx := Fin 24
abbrev FnIx := Fin 16
abbrev CoreIx := Fin 6
abbrev CmpIx := Fin 4
abbrev DevIx := Fin 2

/-- The requesters of Table 1.2, and the host, which reaches function f's BAR0 only (R19). -/
inductive Requester where
  | core (c : CoreIx)
  | debug
  | lamplighter
  | hqi (ch : Fin 64)
  | beam (e : EngIx)
  | comp (z : CmpIx)
  | mantle
  | buf
  | cal
  | flt
  | perf
  | ember
  | host (f : FnIx)
  deriving DecidableEq, Repr

/-- Privilege of a core access (R366). -/
inductive Priv where
  | user | supervisor | machine
  deriving DecidableEq, Repr

/-- What an access does; `zeroLine` is the line-zero instruction of a core (R371). -/
inductive Access where
  | read (len : Nat)
  | fetch (len : Nat)
  | write (bytes : List Byte)
  | zeroLine
  deriving DecidableEq, Repr

/-- An upset of a stored word found in place when an access arrives (R342): one bit wrong, two bits wrong, or a
change of three or more bits that the code does not see. -/
inductive Upset where
  | single (addr : Nat)
  | double (addr : Nat)
  | silent (addr : Nat) (b : Byte)
  deriving DecidableEq, Repr

/-- An error met in the shared cache by the access's lookup (Table 13.4). -/
inductive CacheError where
  | correctable
  | uncorrectable
  | tag
  deriving DecidableEq, Repr

/-- What the surroundings of a fabric access are: upsets present, repeats of the GDDR7 interface that failed with
CRC errors (4 or more: exhausted, R356), a cache error met, whether translation allows a user access (R366), and
whether a read is a prefetch of the shared cache. -/
structure AccessEnv where
  upsets : List Upset
  crcFails : Nat
  cacheErr : Option CacheError
  userAllowed : Bool
  prefetch : Bool
  deriving DecidableEq, Repr

/-- What the motor ADC gives in one spindle PWM period: the shunt codes at T1 and T2, the four BEMF codes at T1, the
bus code, and whether the current reached SPN_PROT.IPEAK (R172, R174, R175, R184). -/
structure PwmSample where
  s1 : Nat
  s2 : Nat
  bu : Nat
  bv : Nat
  bw : Nat
  bn : Nat
  vbus : Nat
  peak : Nat
  peakAt : Nat
  deriving DecidableEq, Repr

/-- What a 20 ms observation of the phase inputs finds (R180): crossings in forward and in reverse order whose
amplitude reaches 50 mV, the speed estimate in 1/16 rpm, the step and T60 in ns the last crossings give, and the time in ns
from the last crossing to the window's end. -/
structure CatchSpin where
  forward : Nat
  reverse : Nat
  speed : Nat
  step : Nat
  t60 : Nat
  since : Nat
  deriving DecidableEq, Repr

/-- What an engine sees where its slot of a pour starts (R71, R72): the wobble phase values of the address unit, and the PF8
symbol at which the slot starts. -/
structure SlotStart where
  wobble : List Nat
  symcnt : Nat
  deriving DecidableEq, Repr

/-- A lane fault at one tick: the position, the loop, and which of lane A, lane B and the joined spare gave a result
other than the right one (R162). -/
structure LaneFault where
  p : PosIx
  l : Fin 24
  a : Bool
  b : Bool
  s : Bool
  deriving DecidableEq, Repr

/-- What training finds (R261, Table 9.7): lanes that pass, round trip and downstream delay, the presets kept for each
lane, and PF8_ID and PF8_VER as read. -/
structure Training where
  pass : Nat
  rtt : Nat
  ddown : Nat
  tx : List Nat
  rx : List Nat
  id : Nat
  ver : Nat
  deriving DecidableEq, Repr

/-- A block expected at a block time: not received, received with an invalid header, or received with these payload
bytes from byte 1 on (R243). -/
inductive Block where
  | missing
  | badHeader
  | bytes (l : List Byte)
  deriving DecidableEq, Repr

/-- What becomes of the wick packet that the engine of a pickup sends next (R251): it is lost on the link, its CRC fails, or
it arrives after its first symbol. Its content is the engine's. -/
structure WickPacket where
  pickup : Fin 8
  lost : Bool
  crcOk : Bool
  late : Bool
  deriving DecidableEq, Repr

/-- A sample packet with its SAMPLE_TAIL as received (R250, Table 9.3), for one stream of a pickup: whether sampling
lock held, SYMCNT, whether the CRC holds, the 384 raw samples, and of stream 0 the wobble phase values with the offset in
symbols of the first wobble boundary; `slip`: the wobble clock's phase error passed 4 symbols (Table 3.5). -/
structure SamplePacket where
  pickup : Fin 8
  stream : Fin 4
  lock : Bool
  symcnt : Nat
  crcOk : Bool
  raw : List Nat
  wob : List Nat
  wobofs : Nat
  slip : Bool
  deriving DecidableEq, Repr

/-- An entry read from a submission ring (Table 10.4): its 64 bytes, and the 16-byte elements of the scatter list that
its data pointer names, up to where the list ends or breaks R276. -/
structure Fetched where
  sqe : List Byte
  sgl : List (List Byte)
  deriving DecidableEq, Repr

/-- What a mount reads from the pack (R51, R57, R98): the L0 card of S0; per ledger segment, in order, what the copies on
S0 and S1 gave, none where a copy does not decode, ending where both are blank; and home and riser slots, by layer and
number, that the blank test found written. -/
structure PackImage where
  card : List Byte
  segs : List (Option (List Byte) × Option (List Byte))
  written : List (Nat × Nat)
  deriving DecidableEq, Repr

/-- What a test slot of an OPC run gave on one surface (R220, R221, R227): the three levels of CAST_LVL, CAST_SER.SER_WORST,
whether GATE or SYNC was set, and the mean e² and the seed block that the verify detector held at its end. -/
structure OpcSlot where
  levels : List Nat
  ser : Nat
  lost : Bool
  e2 : Nat
  seed : List Byte
  deriving DecidableEq, Repr

/-- An OPC run as it happened (R216, R217, R220): test slots of the area that the blank test found written, per surface its slots in order, whether the pack
temperature moved by more than 1.0 °C within it, and whether snuff, a forced reset or a stripe operation cut it short. -/
structure OpcData where
  written : List Nat
  slots : List (List OpcSlot)
  drift : Bool
  discarded : Bool
  deriving DecidableEq, Repr

/-- A marked instruction that retires or is cancelled (Table 13.5), the core and TIME apart: PC, data address, FLAGS
[1:0] privilege, retired, caused a redirect, serialising, LEVEL, the four cycle fields and WAITCLS. -/
structure SampleRec where
  pc : Nat
  daddr : Nat
  priv : Priv
  retired : Bool
  redirect : Bool
  serial : Bool
  level : Nat
  toqueue : Nat
  toissue : Nat
  todone : Nat
  toretire : Nat
  waitcls : Nat
  deriving DecidableEq, Repr

/-- The reset levels (R430). -/
inductive Level where
  | core | system | power
  deriving DecidableEq, Repr


/-- The commands: one constructor per row of spec/opcode_table.json. -/
inductive Instr where
  /-- REGISTER_WRITE (R4): A write to a register field that has no row of its own takes effect according to its access code. Operands: the requester, the register address, the access size in bytes and the value. -/
  | registerWrite (who : Requester) (addr size value : Nat)
  /-- RC_FIELD_READ (R6): A read of an RC field returns its value and clears it, whatever the source of the read. Operands: the requester, the register address and the access size in bytes. -/
  | rcFieldRead (who : Requester) (addr size : Nat)
  /-- FABRIC_ACCESS (R11): A requester's access to an internal address is checked against its reach and the address map, then served or refused. Operands: the requester, its privilege, the address, the access and its surroundings. -/
  | fabricAccess (who : Requester) (priv : Priv) (addr : Nat) (acc : Access) (env : AccessEnv)
  /-- DEVICE_FAILED (R357): A failed retraining marks the GDDR7 device failed and serves mirror regions from the survivor. Operands: the device. -/
  | deviceFailed (d : DevIx)
  /-- SELF_REFRESH_ENTRY (R420): With no window access outstanding and all cores waiting for interrupt, both GDDR7 devices enter self-refresh and their domains stop. -/
  | selfRefreshEntry
  /-- EVICTION_WRITEBACK (R374): An eviction-buffer entry drains its dirty line to the BUF in arrival order. -/
  | evictionWriteback
  /-- TILE_RELEASE (R62): Once all four release conditions hold, both copies of a data tile are released within 100 µs. Operands: the position, the logical rank and its data frame. -/
  | tileRelease (p : PosIx) (n : Nat) (k : Fin 6)
  /-- RANK_IDLE_EXPIRY (R67): RANK_IDLE after a rank's first staged byte makes the rank ready, padding its unassigned rest. Operands: the position and the logical rank. -/
  | rankIdleExpiry (p : PosIx) (n : Nat)
  /-- RANK_ASSEMBLY (R69): A ready rank whose predecessors are assembled is read from the tundish, encrypted, given parity and streamed to its engines. Operands: the position, the logical rank, and the roles of frames whose lockstep pair disagrees (R472). -/
  | rankAssembly (p : PosIx) (n : Nat) (mism : List (Fin 8))
  /-- CAST_START (R71): CAST_CTRL.START fetches the pour descriptor and arms the engine for its slot. Operands: the engine. -/
  | castStart (e : EngIx)
  /-- CAST_ABORT (R82): CAST_CTRL.ABORT drops the write gate, raises the abort snuff source and abandons the frame. Operands: the engine. -/
  | castAbort (e : EngIx)
  /-- POUR_SLOT_START (R72): At an armed engine's slot the write gate opens only if the wobble address matches and no snuff is set, else sync loss is reported. Operands: the engine, and what it sees where the slot starts: the 790 wobble phase values of the address unit that R71 and R72 name, and the PF8 symbol. -/
  | pourSlotStart (e : EngIx) (start : SlotStart)
  /-- FRAME_VERDICT (R80): An engine posts its frame verify verdict in CAST_STAT after the verify spot passes the slot's last data symbol. Operands: the engine, and whether the two copies of the verdict logic disagree (R472). -/
  | frameVerdict (e : EngIx) (mismatch : Bool)
  /-- JOURNAL_COMMIT (R80): An appended journal entry is committed to the Ember store within 20 µs. -/
  | journalCommit
  /-- RISER_VISIT (R87): After a cast's last home rank, its failed ranks are re-poured into the riser in one visit. Operands: the position and the cast. -/
  | riserVisit (p : PosIx) (m : Nat)
  /-- POUR_STREAM_IDLE (R77): 100 ms without a rank poured on a layer stops the pour stream and ends neighbour-source status of its tiles. Operands: the position. -/
  | pourStreamIdle (p : PosIx)
  /-- LEDGER_AGE_EXPIRY (R93): The oldest waiting ledger record reaching LEDGER_AGE triggers a ledger pour. Operands: the position. -/
  | ledgerAgeExpiry (p : PosIx)
  /-- LEDGER_POUR (R93): Queued ledger records are written as whole segments to both ledger copies in one pour. Operands: the position. -/
  | ledgerPour (p : PosIx)
  /-- LEDGER_POUR_VERIFIED (R94): A ledger pour that passes verify in both copies appends LEDGER_FLUSHED and CAST_CLOSED for each cast it recorded. Operands: the position. -/
  | ledgerPourVerified (p : PosIx)
  /-- LAYER_FIRST_ACCESS (R51): The first access to a layer in a mount reads its media card and checks F(z). Operands: the position, the layer, and per surface the card frames read in order. -/
  | layerFirstAccess (p : PosIx) (layer : Fin 16) (cards : List (List (List Byte)))
  /-- SHOCK_FALL (R83): SHOCK_Np low past its glitch filter raises snuff on the position. Operands: the position. -/
  | shockFall (p : PosIx)
  /-- SNUFF_CLEAR (R167): SRV_SNUFF.CLR clears the latch and SEEN only when no source is live. Operands: the position. -/
  | snuffClear (p : PosIx)
  /-- READ_START (R128): RD_CTRL.START fetches a read descriptor when in read mode and idle, else sets RD_STAT.ERR. Operands: the engine. -/
  | readStart (e : EngIx)
  /-- READ_ABORT (R129): RD_CTRL.ABORT stops the read at once and posts result 7. Operands: the engine. -/
  | readAbort (e : EngIx)
  /-- READ_SLOT_START (R104): At the slot the engine begins reading if the wobble address of eighth 0 matches, or proceeds on count, or reports slot not found. Operands: the engine, the 790 wobble phase values of the unit of eighth 0, and the PF8 symbol at which the slot starts. -/
  | readSlotStart (e : EngIx) (wobble : List Nat) (symcnt : Nat)
  /-- SAMPLE_PACKET (R250): An upstream sample packet with its SAMPLE_TAIL is received, checked and fed to the engine. Operands: the position and the packet. -/
  | samplePacket (p : PosIx) (x : SamplePacket)
  /-- READ_RESULT_POST (R118): The engine posts the results of all sixteen codewords within 60 µs of the slot's last data symbol. Operands: the engine, the codewords on which the two copies of its XTS lane disagree (R472), and the upsets and the cache error that its read of the capture area meets (R342, R377). -/
  | readResultPost (e : EngIx) (mismatch : List (Fin 16)) (upsets : List Upset) (cacheErr : Option CacheError)
  /-- RETRY_PASS (R132): After a stripe read, deferred ranks climb the medium-reading ladder steps in slot order within their limits. Operands: the position, the logical rank, whether deep read is asked for, and the upsets that a reconstruction's reads meet (R342). -/
  | retryPass (p : PosIx) (n : Nat) (deep : Bool) (upsets : List Upset)
  /-- MARGIN_CLEAR (R137): MRG_CTRL.CLR zeroes every margin counter. Operands: the engine. -/
  | marginClear (e : EngIx)
  /-- SERVO_TICK (R142): Each 800 ns tick boundary latches set-points, runs the due surface loops on twin lanes and applies drive codes. Operands: the lane faults of this tick, and cycles of the EMB clock that ended since the last one. -/
  | servoTick (faults : List LaneFault) (emb : Nat)
  /-- SRV_ENABLE (R142): SRV_CTRL.EN starts or stops a position's loops at the next boundary of the common tick grid. Operands: the position and the value of EN. -/
  | srvEnable (p : PosIx) (on : Bool)
  /-- SPARE_LEAVE (R164): After 1,024 strike-free voting ticks the spare leaves and the strikes clear. Operands: the position. -/
  | spareLeave (p : PosIx)
  /-- SERVO_FAIL (R165): Three-way disagreement, or four consecutive disagreements without a spare, puts every surface loop of the position into FAIL. Operands: the position. -/
  | servoFail (p : PosIx)
  /-- LOOP_MODE_WRITE (R153): LOOP_CTRL.MODE changes the loop mode at the next tick boundary, or is refused with MODEERR. Operands: the position, the loop and the value of MODE. -/
  | loopModeWrite (p : PosIx) (l : Fin 24) (mode : Fin 8)
  /-- LOOP_GAIN_NOW (R150): LOOP_CTRL.GAIN_NOW copies the gain target to the applied gain when MODE is not CLOSED, else sets MODEERR. Operands: the position and the loop. -/
  | loopGainNow (p : PosIx) (l : Fin 24)
  /-- LOOP_COEF_WRITE (R149): A coefficient write to the inactive bank is stored; to the active bank it is ignored with BANKERR. Operands: the position, the loop, the bank, the section, the coefficient and its value. -/
  | loopCoefWrite (p : PosIx) (l : Fin 24) (bank : Fin 2) (n : Fin 6) (j : Fin 5) (value : Nat)
  /-- SETPOINT_WRITE (R151): A write to SRV_SPs sets the surface's focus, track and tilt set-points, latched at the next boundary. Operands: the position, the surface and the 64-bit value. -/
  | setpointWrite (p : PosIx) (f : Fin 8) (value : Nat)
  /-- FOCUS_LOST (R156): SUM below SUM_MIN for 8 consecutive ticks opens focus at PARK, stops tracking and raises the focus snuff source. Operands: the position and the surface. -/
  | focusLost (p : PosIx) (f : Fin 8)
  /-- JUMP_GO (R157): JMP_CTRL.GO starts the surface's jump sequence at the next tick boundary, or refuses it with RESULT 4. Operands: the position and the surface. -/
  | jumpGo (p : PosIx) (f : Fin 8)
  /-- SRV_JMPGO (R157): SRV_JMPGO starts the sequences of the selected surfaces on one common tick. Operands: the position and the mask of surfaces. -/
  | srvJmpgo (p : PosIx) (mask : Nat)
  /-- JUMP_ABORT (R158): JMP_CTRL.ABORT ends the sequence with result 5 and holds its loops. Operands: the position and the surface. -/
  | jumpAbort (p : PosIx) (f : Fin 8)
  /-- JUMP_TIMEOUT (R158): ELAPSED reaching TMO ends the sequence with result 6, focus at PARK and tracking OFF. Operands: the position and the surface. -/
  | jumpTimeout (p : PosIx) (f : Fin 8)
  /-- CENTRE_PUBLISH (R160): Every 64th tick the mean tracking drive is published in SRV_CENTRE. Operands: the position. -/
  | centrePublish (p : PosIx)
  /-- SPN_START (R179): START turns the gates off and enters OBSERVE for catch-spin. Operands: the position. -/
  | spnStart (p : PosIx)
  /-- SPN_STOP_REGEN (R179): STOP_REGEN stops the spindle with regenerative drive, or short brake when the chopper is faulty. Operands: the position. -/
  | spnStopRegen (p : PosIx)
  /-- SPN_STOP_SHORT (R179): STOP_SHORT stops the spindle with short brake. Operands: the position. -/
  | spnStopShort (p : PosIx)
  /-- SPN_COAST (R179): COAST turns the gates off at the next PWM period and enters COAST. Operands: the position. -/
  | spnCoast (p : PosIx)
  /-- SPN_CLEAR (R179): CLEAR leaves FAULT for OFF when no cause remains. Operands: the position. -/
  | spnClear (p : PosIx)
  /-- SPN_PWM_PERIOD (R171): Each 25 µs spindle PWM period samples current, bus and back-EMF and updates the duty. Operands: the position and what the motor ADC gives. -/
  | spnPwmPeriod (p : PosIx) (x : PwmSample)
  /-- COMMUTATION (R172): At the scheduled time after an event the bridge steps to the next commutation step. Operands: the position. -/
  | commutation (p : PosIx)
  /-- CHOPPER_FEEDBACK_TIMEOUT (R185): SPNp_CHFB differing from SPNp_CHOP for more than 10 µs declares the chopper faulty. Operands: the position. -/
  | chopperFeedbackTimeout (p : PosIx)
  /-- IPEAK_FAULT (R175): 256 consecutive PWM periods reaching IPEAK put the spindle in FAULT with 0x0605. Operands: the position. -/
  | ipeakFault (p : PosIx)
  /-- SPEED_LOOP (R176): Every 128 ticks the speed loop computes the current demand from the applied target and measured speed. Operands: the position. -/
  | speedLoop (p : PosIx)
  /-- OBSERVE_END (R180): The 20 ms OBSERVE window ends in RUN, or BRAKE with or without REVERSE. Operands: the position and what the window found. -/
  | observeEnd (p : PosIx) (x : CatchSpin)
  /-- BRAKE_END (R180): The 2 s BRAKE ends in ALIGN, or OFF when a stop is pending. Operands: the position. -/
  | brakeEnd (p : PosIx)
  /-- ALIGN_END (R181): ALIGN_T elapsing starts the open-loop RAMP. Operands: the position. -/
  | alignEnd (p : PosIx)
  /-- LOCKED_ROTOR_TIMEOUT (R182): 200 ms without an event in RAMP or RUN turns the gates off and enters WAIT, or FAULT after three retries. Operands: the position. -/
  | lockedRotorTimeout (p : PosIx)
  /-- WAIT_END (R182): The 1 s WAIT ends in OBSERVE for a retry. Operands: the position. -/
  | waitEnd (p : PosIx)
  /-- STOP_NO_EVENT_TIMEOUT (R183): 200 ms without an event in regenerative STOPPING applies the final 2 s short brake. Operands: the position. -/
  | stopNoEventTimeout (p : PosIx)
  /-- BRAKE_INTERVAL_END (R183): A 250 ms braking interval in short-brake STOPPING ends in a 20 ms observation window. Operands: the position. -/
  | brakeIntervalEnd (p : PosIx)
  /-- OBSERVATION_WINDOW_END (R183): An observation window in STOPPING either resumes braking or applies the final short brake. Operands: the position and what the window found. -/
  | observationWindowEnd (p : PosIx) (x : CatchSpin)
  /-- FINAL_BRAKE_END (R183): The final 2 s short brake ends and the spindle enters OFF. Operands: the position. -/
  | finalBrakeEnd (p : PosIx)
  /-- SPEED_TARGET_WRITE (R178): A write to SPN_SPD.TARGET sets the target and ends any degraded-speed request. Operands: the position and the value. -/
  | speedTargetWrite (p : PosIx) (rpm : Nat)
  /-- SPINUP_SLOT_OPEN (R482): A waiting START begins when the position's PPS-aligned spin-up slot opens. Operands: the position. -/
  | spinupSlotOpen (p : PosIx)
  /-- CAR_ENABLE (R198): ENABLE takes the carriage from OFF to HOLD at the present position. Operands: the position. -/
  | carEnable (p : PosIx)
  /-- CAR_HOME (R194): HOME starts the homing search toward the inner end stop. Operands: the position. -/
  | carHome (p : PosIx)
  /-- CAR_SEEK (R201): SEEK fixes its target and starts a level-1 seek, or is refused. Operands: the position. -/
  | carSeek (p : PosIx)
  /-- CAR_DIRECT (R200): DIRECT enters level-0 motion with CAR_TGT set to the present reference. Operands: the position. -/
  | carDirect (p : PosIx)
  /-- CAR_GEAR (R205): GEAR engages the electronic gear to SPN_ANGLE when AVALID is set and the entries pass. Operands: the position. -/
  | carGear (p : PosIx)
  /-- CAR_STOP (R198): STOP decelerates along the ramp to rest and then HOLD. Operands: the position. -/
  | carStop (p : PosIx)
  /-- CAR_PARK (R211): PARK seeks to CAR_PARK and enters PARKED on settling. Operands: the position. -/
  | carPark (p : PosIx)
  /-- CAR_OFF (R198): OFF turns the bridge off at the next PWM period. Operands: the position. -/
  | carOff (p : PosIx)
  /-- CAR_CLEAR (R198): CLEAR leaves FAULT for OFF when the cause is gone. Operands: the position. -/
  | carClear (p : PosIx)
  /-- CAR_TARGET_WRITE (R200): A write to CAR_TGT in DIRECT retargets the profile generator at the next period, clamped to the limits. Operands: the position and the value. -/
  | carTargetWrite (p : PosIx) (value : Nat)
  /-- CAR_PWM_PERIOD (R195): Each carriage PWM period runs the phase current loops and advances the microstep. Operands: the position and the codes of the two phase currents. -/
  | carPwmPeriod (p : PosIx) (ia ib : Nat)
  /-- CARRIAGE_LOOP (R196): Every 64 ticks the carriage loop computes current and commutation angle from the reference error. Operands: the position. -/
  | carriageLoop (p : PosIx)
  /-- FOLLOWING_ERROR_FAULT (R209): A following error beyond MAX for 8 consecutive periods outside homing stops the carriage into FAULT. Operands: the position. -/
  | followingErrorFault (p : PosIx)
  /-- PHASE_OVERCURRENT (R209): Phase current above 1.25 × IMAX for 4 PWM periods turns the bridge off and enters FAULT. Operands: the position. -/
  | phaseOvercurrent (p : PosIx)
  /-- ENCODER_ERROR (R193): Both encoder inputs changing in one decoder sample set ENCERR, clear PVALID and stop open loop. Operands: the position. -/
  | encoderError (p : PosIx)
  /-- INDEX_EDGE (R194): The first index rising edge while homing loads CAR_POS, sets PVALID and stops. Operands: the position. -/
  | indexEdge (p : PosIx)
  /-- HOMING_TIMEOUT (R194): No index edge within CAR_HOME.TMO puts the carriage in FAULT with 0x0705. Operands: the position. -/
  | homingTimeout (p : PosIx)
  /-- CAL_LOOKUP (R231): CAL_LCTRL.GO looks up or interpolates a calibration record for the key and temperature. Operands: CAL_LCTRL.TEMP. -/
  | calLookup (temp : Nat)
  /-- CAL_STORE (R234): CAL_LCTRL.STORE writes a calibration record to the region, replacing or freeing others. Operands: CAL_LCTRL.TEMP. -/
  | calStore (temp : Nat)
  /-- CAL_OPERATION_DONE (R231): A lookup or store ends with its result in CAL_LRES or CAL_STAT. -/
  | calOperationDone
  /-- INJECTION_START (R225): CAL_INJ.EN starts a sine injection into one loop's drive. Operands: the position, the loop and the amplitude written with EN. -/
  | injectionStart (p : PosIx) (l amp : Nat)
  /-- INJECTION_DONE (R225): NPER periods accumulated end the injection and set DONE. -/
  | injectionDone
  /-- OPC_RUN (R220): A queued OPC blank-tests and pours a run of test slots at stepped powers and evaluates the levels. Operands: the position and what the run gave. -/
  | opcRun (p : PosIx) (x : OpcData)
  /-- LINK_ENABLE (R267): IGL_CTRL.EN starts or stops the position's link transmitters. Operands: the position and the value of EN. -/
  | linkEnable (p : PosIx) (on : Bool)
  /-- LINK_TRAIN (R261): IGL_CTRL.TRAIN starts link training with the snuff latch held. Operands: the position. -/
  | linkTrain (p : PosIx)
  /-- TRAINING_DONE (R262): Training ends ACTIVE on four lanes, DEGRADED on three, or DOWN. Operands: the position and what training found. -/
  | trainingDone (p : PosIx) (x : Training)
  /-- UPSTREAM_SERVO_SLOT (R248): The upstream servo data slot is received, reconstructed from parity if needed and checked. Operands: the position and the six parts in part order followed by the two parity blocks. -/
  | upstreamServoSlot (p : PosIx) (blocks : List Block)
  /-- SERVO_LINK_FAULT (R254): Three consecutive servo data slots in error raise the link snuff source and log 0x0903. Operands: the position. -/
  | servoLinkFault (p : PosIx)
  /-- STATUS_BLOCK (R249): An upstream status block reports the PF8's lane status, slot errors and fault masks. Operands: the position and the copies received, lane and 16 payload bytes. -/
  | statusBlock (p : PosIx) (copies : List (Fin 4 × List Byte))
  /-- SNUFF_BLOCK (R255): An upstream SNUFF from the PF8 sets the snuff latch and records the source. Operands: the position, the source and the pickup mask. -/
  | snuffBlock (p : PosIx) (source mask : Fin 256)
  /-- CONTROL_REQUEST (R256): IGL_CCMD.GO sends a CREQ to the PF8, or is refused while busy. Operands: the position, IGL_CCMD.OP and ADDR. -/
  | controlRequest (p : PosIx) (op addr : Nat)
  /-- CRSP (R256): A control response completes the matching outstanding request. Operands: the position and the response. -/
  | crsp (p : PosIx) (seq op status data : Nat)
  /-- CREQ_TIMEOUT (R257): No response within 2 µs resends the request; after seven attempts the channel stops with 0x0904. Operands: the position and the SEQ of the request. -/
  | creqTimeout (p : PosIx) (seq : Nat)
  /-- CEVT (R257): An unsolicited PF8 event is routed to the engines, CAL_TEMPp or IGL_EVT. Operands: the position and the event. -/
  | cevt (p : PosIx) (code mask data : Nat)
  /-- LANE_FAIL (R263): A failed lane raises link snuff, sends DEGRADE and requests the degraded spindle speed, or takes the link DOWN. Operands: the position and the lane. -/
  | laneFail (p : PosIx) (l : Fin 4)
  /-- ALIGN_SEND (R245): Every 16,384 block times each active lane sends an ALIGN block. Operands: the position. -/
  | alignSend (p : PosIx)
  /-- WICK_PACKET (R251): The PF8 takes a wick packet, opening, holding or closing the pickup's write gate or dropping it on an underrun. Operands: the position and the packet. -/
  | wickPacket (p : PosIx) (w : WickPacket)
  /-- DOWNSTREAM_SERVO_SLOT (R254): The PF8 takes the downstream drive codes, or keeps its last codes and parks after three errors. Operands: the position and which bits of the 84 content bytes that the controller sent arrive turned after reconstruction (all zero where the slot is good), none where the slot is missing. -/
  | downstreamServoSlot (p : PosIx) (flips : Option (List Byte))
  /-- FUNCTION_ENABLE (R274): FN_CTL.EN = 1 checks the admin ring attributes and brings the function to ready. Operands: the function. -/
  | functionEnable (f : FnIx)
  /-- FUNCTION_READY (R274): The function sets FN_STS.RDY once enabled. Operands: the function. -/
  | functionReady (f : FnIx)
  /-- SQ_DOORBELL (R281): A submission-queue tail doorbell write sets the queue's wake. Operands: the function, the queue, the value and the access size in bytes. -/
  | sqDoorbell (f : FnIx) (q value size : Nat)
  /-- CQ_DOORBELL (R282): A completion-queue head doorbell write frees ring slots and lets held completions be written. Operands: the function, the queue, the value and the access size in bytes. -/
  | cqDoorbell (f : FnIx) (q value size : Nat)
  /-- SQ_POLL_EXPIRY (R284): POLL µs since the last fetch set the queue's wake. Operands: the function and the queue. -/
  | sqPollExpiry (f : FnIx) (q : Nat)
  /-- SQ_FETCH (R280): A woken queue's entries are fetched and consumed in slot order up to the first not owned by the device. Operands: the function, the queue and the entries that the fetch reads from its head on. -/
  | sqFetch (f : FnIx) (q : Nat) (entries : List Fetched)
  /-- SQ_FETCH_FAILED (R302): A failed entry fetch breaks the queue and sets FN_STS.QERR. Operands: the function and the queue. -/
  | sqFetchFailed (f : FnIx) (q : Nat)
  /-- COMMAND_RECORD_CONSUMED (R283): Firmware advancing HQI_CCI frees a command record and resumes paused fetching. Operands: the value of HQI_CCI.COUNT. -/
  | commandRecordConsumed (count : Nat)
  /-- CREATE_CQ (R286): CREATE_CQ checks its configuration and creates a completion queue. Operands: the command tag. -/
  | createCq (n : Nat)
  /-- CREATE_SQ (R286): CREATE_SQ checks its configuration and creates a submission queue bound to a CQ. Operands: the command tag. -/
  | createSq (n : Nat)
  /-- DESTROY_SQ (R287): DESTROY_SQ removes an empty, idle submission queue, or is refused with QUEUE_BUSY. Operands: the command tag and D of the slot at the head. -/
  | destroySq (n : Nat) (headD : Bool)
  /-- DESTROY_CQ (R287): DESTROY_CQ removes a completion queue with no bound SQ and no held completion. Operands: the command tag. -/
  | destroyCq (n : Nat)
  /-- THAW_QUEUE (R296): THAW_QUEUE restarts fetching of a frozen SQ after the error log was read, optionally discarding entries. Operands: the command tag and the entries that the ring holds from its head on. -/
  | thawQueue (n : Nat) (entries : List (List Byte))
  /-- ABORT (R298): ABORT presents an abort of the named command to its tag arbiter. Operands: the command tag. -/
  | abort (n : Nat)
  /-- QUOTA (R272): QUOTA on F0 sets a disabled VF's queue, tag and holding quotas. Operands: the command tag. -/
  | quota (n : Nat)
  /-- COMPLETION_POST (R288): HQI_POST.GO posts a tag's completion to its CQ ring, holding share or tag context. Operands: the command tag. -/
  | completionPost (n : Nat)
  /-- HQI_ABORT (R298): HQI_ABORT.GO presents a firmware abort for a tag to the arbiter. Operands: the command tag. -/
  | hqiAbort (n : Nat)
  /-- INTERRUPT_TIMER (R292): ITIME elapsing since the first unsignalled CQE signals the CQ's MSI-X vector. Operands: the function and the queue. -/
  | interruptTimer (f : FnIx) (q : Nat)
  /-- FLR (R299): A function-level reset request resets the function. Operands: the function. -/
  | flr (f : FnIx)
  /-- BUS_MASTER_DISABLE (R299): Clearing bus-master enable resets the function. Operands: the function. -/
  | busMasterDisable (f : FnIx)
  /-- FUNCTION_DISABLE (R299): Writing FN_CTL.EN from 1 to 0 resets the function. Operands: the function. -/
  | functionDisable (f : FnIx)
  /-- VF_ENABLE_CLEAR (R299): Clearing VF Enable resets every VF. -/
  | vfEnableClear
  /-- HOT_RESET (R299): A hot reset resets every function. -/
  | hotReset
  /-- PCIE_LINK_DOWN (R299): Link down resets every function. -/
  | pcieLinkDown
  /-- FUNCTION_RESET_DONE (R300): The reset function becomes ready for configuration within 100 ms. Operands: the function. -/
  | functionResetDone (f : FnIx)
  /-- HOST_DATA_ARRIVAL (R59): Host data read by DMA arrives and is staged into tiles. Operands: the command tag, the DMA channel, the bytes, and tiles for frames that have none yet. -/
  | hostDataArrival (n : Nat) (ch : Fin 64) (bytes : List Byte) (tiles : List Nat)
  /-- HOST_DMA_READ_ERROR (R301): A failed host DMA read completes the command with class 5 and freezes its SQ. Operands: the command tag. -/
  | hostDmaReadError (n : Nat)
  /-- PCIE_LANE_FAIL (R270): A failed PCIe lane retrains the link to the widest remaining width. Operands: the lane. -/
  | pcieLaneFail (l : Fin 8)
  /-- GET_LOG (R332): GET_LOG returns a log page from the given offset. Operands: the command tag. -/
  | getLog (n : Nat)
  /-- EVENT_WAIT (R333): EVENT_WAIT completes when a readable page gains an entry or changes a flag. Operands: the command tag. -/
  | eventWait (n : Nat)
  /-- SET_POLICY (R331): SET_POLICY checks and applies a set of policy parameters. Operands: the command tag and its data as read from host memory. -/
  | setPolicy (n : Nat) (data : List Byte)
  /-- GRANT (R307): GRANT replaces a VF's position grant. Operands: the command tag. -/
  | grant (n : Nat)
  /-- MOUNT (R320): MOUNT spins up, reads card and ledger, unwraps the key and reconciles the journal. Operands: the command tag and what the pack gives. -/
  | mount (n : Nat) (img : PackImage)
  /-- UNMOUNT (R322): UNMOUNT drains commands, pads the open cast, flushes the ledger, releases tiles and parks the pack. Operands: the position. -/
  | unmount (p : PosIx)
  /-- PACK_POWER (R323): PACK_POWER brings a pack down now or sets its idle floor. Operands: the position. -/
  | packPower (p : PosIx)
  /-- FORMAT (R325): FORMAT writes the pack identity, wrapped key and OPC of every layer in journalled steps. Operands: the position. -/
  | format (p : PosIx)
  /-- SANITISE (R328): SANITISE destroys the pack key and, in mode 2, starts the obliteration burn. Operands: the position and how many frame slots the burn has passed since it was last looked at. -/
  | sanitise (p : PosIx) (slots : Nat)
  /-- DISCARD_RANGE (R319): DISCARD_RANGE removes one uncast-range entry, releasing held tiles of a cause 1 entry. Operands: the position. -/
  | discardRange (p : PosIx)
  /-- FW_DOWNLOAD (R442): FW_DOWNLOAD stores part of an image or the option page. Operands: the command tag, its data as read from host memory, and whether the flash erases and programs. -/
  | fwDownload (n : Nat) (data : List Byte) (ok : Bool)
  /-- FW_ACTIVATE (R443): FW_ACTIVATE verifies the unused slot and makes it the preferred trial slot. Operands: the command tag. -/
  | fwActivate (n : Nat)
  /-- FW_ACTIVATE_RESET (R443): 10 ms after an ACTION 2 CQE the device applies a system reset with cause FWACT. -/
  | fwActivateReset
  /-- APPEND (R65): APPEND assigns consecutive user codewords from the append point and stages the data. Operands: the command tag and tiles for frames of a copied stream. -/
  | append (n : Nat) (tiles : List Nat)
  /-- PLACE (R66): PLACE assigns data at a rank-aligned address, padding what lies before it. Operands: the command tag and tiles for frames of a copied stream. -/
  | place (n : Nat) (tiles : List Nat)
  /-- READ (R315): READ transfers a range's bytes in address order from tundish or medium. Operands: the command tag. -/
  | read (n : Nat)
  /-- VERIFY (R316): VERIFY reads a range without transferring it and reports unrecovered codewords. Operands: the command tag. -/
  | verify (n : Nat)
  /-- COMPRESS (R402): COMPRESS codes host data into a Taper stream, stopping when output space runs out. Operands: the command tag. -/
  | compress (n : Nat)
  /-- DECOMPRESS (R402): DECOMPRESS decodes a Taper stream from host memory to host memory. Operands: the command tag. -/
  | decompress (n : Nat)
  /-- PATROL_READ (R331): With PATROL_EN set, idle stripe capacity reads recorded ranks in the background. Operands: the position and the logical rank. -/
  | patrolRead (p : PosIx) (n : Nat)
  /-- STRIPE_START (R505): A stripe operation waiting for lock, link or firmware begins within 1 ms of the last condition clearing. Operands: the position, whether it pours, the layer of its first rank, and its engines by surface. -/
  | stripeStart (p : PosIx) (pour : Bool) (layer : Fin 16) (engines : List EngIx)
  /-- PACK_REMOVED (R324): PACK_SENSE_Np deasserting for a mounted pack snuffs, fails its commands, lists staged data and unmounts it. Operands: the position. -/
  | packRemoved (p : PosIx)
  /-- PACK_SEATED (R493): PACK_SENSE_Np asserting for 5 ms sets POS_CFG.PACK. Operands: the position. -/
  | packSeated (p : PosIx)
  /-- POSITION_ENABLE (R334): A write to POS_CFG.EN runs the configuration-consistency check and enables or refuses. Operands: the position and the value of EN. -/
  | positionEnable (p : PosIx) (on : Bool)
  /-- STREAMING_IDLE_EXPIRY (R423): 100 ms without a stripe operation flushes the ledger and moves the pack to Tracking-idle. Operands: the position. -/
  | streamingIdleExpiry (p : PosIx)
  /-- IDLE_PARK_EXPIRY (R423): IDLE_PARK moves the pack from Tracking-idle to Spinning-idle. Operands: the position. -/
  | idleParkExpiry (p : PosIx)
  /-- IDLE_SPINDOWN_EXPIRY (R423): IDLE_SPINDOWN moves the pack from Spinning-idle to Off. Operands: the position. -/
  | idleSpindownExpiry (p : PosIx)
  /-- TILE_OPEN (R353): OPEN makes a free tile OPEN with FILL and SEAL zero. Operands: the tile number. -/
  | tileOpen (t : Nat)
  /-- TILE_CLOSE (R353): CLOSE completes pending writes, zero-fills the tile and seals it. Operands: the tile number. -/
  | tileClose (t : Nat)
  /-- TILE_FREE (R353): FREE frees a tile not in use. Operands: the tile number. -/
  | tileFree (t : Nat)
  /-- TILE_VERIFY (R353): VERIFY checks a tile's seal without delivering data. Operands: the tile number and upsets present. -/
  | tileVerify (t : Nat) (upsets : List Upset)
  /-- TILE_USE (R354): A use snapshots FILL and SEAL, checks the seal over the extent and only then delivers. Operands: the user, the tile, the first byte, the number of bytes and upsets present. -/
  | tileUse (who : Requester) (t first count : Nat) (upsets : List Upset)
  /-- BUF_ENABLE (R361): BUF_CTRL.EN trains both GDDR7 interfaces. Operands: whether each interface trains. -/
  | bufEnable (trained0 trained1 : Bool)
  /-- BUF_INIT (R360): BUF_INIT.GO writes the unwritten pattern to class W words and clears valid bits. -/
  | bufInit
  /-- BUF_INIT_DONE (R360): Initialisation ends and READY is set. -/
  | bufInitDone
  /-- DEVICE_OFFLINE (R358): Writing M0_OFF or M1_OFF as 1 drains and takes the device offline. Operands: the device. -/
  | deviceOffline (d : DevIx)
  /-- OFFLINE_REACHED (R358): Issued accesses complete and the OFFLINE bit sets. Operands: the device. -/
  | offlineReached (d : DevIx)
  /-- DEVICE_ONLINE (R358): Writing the OFF bit to 0 re-initialises the half and copies the mirror regions back. Operands: the device. -/
  | deviceOnline (d : DevIx)
  /-- ONLINE_REACHED (R358): The mirror copy ends and OFFLINE clears. Operands: the device. -/
  | onlineReached (d : DevIx)
  /-- PPR_START (R358): BUF_PPR.GO starts a post-package repair of an offline device. Operands: BUF_PPR.DEV, HARD and LOC. -/
  | pprStart (d : DevIx) (hard : Bool) (loc : Nat)
  /-- PPR_DONE (R358): The repair ends with its result in BUF_PPRSTAT. Operands: whether the device reports success. -/
  | pprDone (ok : Bool)
  /-- VCLR (R362): VCLR clears the valid bits of class V lines in a range. -/
  | vclr
  /-- POISON (R362): POISON stores the unwritten pattern in class W lines of a range. -/
  | poison
  /-- SCRUB (R362): SCRUB rewrites corrected words of a range. -/
  | scrub
  /-- BUF_RANGE_DONE (R362): A buffer range operation ends and RANGE_BUSY clears. -/
  | bufRangeDone
  /-- CCH_CLEAN (R375): CLEAN writes back dirty lines of a range. Operands: CCH_RCMD.ALL. -/
  | cchClean (all : Bool)
  /-- CCH_INVALIDATE (R375): INVALIDATE discards lines of a range without write-back. Operands: CCH_RCMD.ALL. -/
  | cchInvalidate (all : Bool)
  /-- CCH_CLEAN_INV (R375): CLEAN_INV writes back and discards lines of a range. Operands: CCH_RCMD.ALL. -/
  | cchCleanInv (all : Bool)
  /-- CCH_LOAD (R375): LOAD fills lines of a range into a class's locked ways. Operands: CCH_RCMD.CLASS. -/
  | cchLoad (cls : Fin 8)
  /-- CCH_RANGE_DONE (R376): A cache range operation ends once every write-back reaches the BUF. -/
  | cchRangeDone
  /-- CCH_COUNTER_CLEAR (R382): CCH_CTRL.CCLR zeroes the hit, miss and eviction counters. -/
  | cchCounterClear
  /-- PERF_SNAPSHOT (R379): PERF_SNAP.GO copies every core's counters on one cycle. Operands: per core what it counted since the last snapshot or clear at the levels enabled: DUAL, SINGLE, SHORT, EMPTY, LWCCH, LWFAR, DEPWAIT, BLOCK, RETIRED, SQUASHED and REDIRECT. -/
  | perfSnapshot (counts : List (List Nat))
  /-- PERF_CLEAR (R379): PERF_CTRL.CLR zeroes every live counter. -/
  | perfClear
  /-- SAMPLE_TRIGGER (R381): A sampling countdown reaching zero marks an instruction or counts BUSY. Operands: the core, and how many of the selected events have come since the last such command, at the levels enabled. -/
  | sampleTrigger (c : CoreIx) (events : Nat)
  /-- SAMPLE_RECORD (R381): A marked instruction retiring or cancelled writes a sample record or counts a drop. Operands: the core and what it stamped. -/
  | sampleRecord (c : CoreIx) (x : SampleRec)
  /-- CORE_RELEASE (R367): A write to LAMP_CREL releases cores C1 to C5. Operands: the value of REL. -/
  | coreRelease (value : Nat)
  /-- JOB_SUBMIT (R405): Firmware advancing CMP_JPI adds job descriptors to the ring. Operands: the value of CMP_JPI.COUNT. -/
  | jobSubmit (count : Nat)
  /-- JOB_START (R399): An idle engine takes the oldest job after its consistency check. Operands: the compression engine. -/
  | jobStart (z : CmpIx)
  /-- JOB_COMPLETE (R405): A job ends, complete or out of space, with its results written and CMP_JDONE advanced. Operands: the compression engine. -/
  | jobComplete (z : CmpIx)
  /-- LOCKSTEP_MISMATCH (R398): A compression lockstep mismatch ends the job with class 6 and takes the engine out of service. Operands: the compression engine and the output bytes that had left it. -/
  | lockstepMismatch (z : CmpIx) (sent : Nat)
  /-- CONTEXT_EXPIRY (R403): A stopped job's context is freed 60 s after the stop. Operands: the context. -/
  | contextExpiry (c : Fin 64)
  /-- XTAL_LOSS (R406): Loss of the 25 MHz crystal sets the safe-state latch and the fault state. -/
  | xtalLoss
  /-- REFCLK_LOSS (R406): Loss of the PCIe reference clock takes the link down. -/
  | refclkLoss
  /-- X32_LOSS (R406): Loss of the 32.768 kHz crystal moves the Ember domain to its RC oscillator. -/
  | x32Loss
  /-- PLL_LOCK_LOSS (R409): A PLL losing lock stops its domains and raises snuff on affected positions. Operands: the PLL, as Table 15.2 numbers it. -/
  | pllLockLoss (n : Fin 15)
  /-- PLL_LOCK (R409): A PLL achieving lock starts the domains it feeds. Operands: the PLL, as Table 15.2 numbers it. -/
  | pllLock (n : Fin 15)
  /-- ENGINE_POWER (R418): A write to PWR_ENG powers a beam engine up or down, refusing a busy one. Operands: the value of PWR_ENG. -/
  | enginePower (value : Nat)
  /-- ENGINE_READY (R418): A powered engine's PWR_ENGRDY bit sets within 50 µs. Operands: the engine. -/
  | engineReady (e : EngIx)
  /-- COMPRESSION_CLOCK_ENABLE (R419): A write to CLK_ZEN starts or stops an engine's clock, refusing a busy one. Operands: the value of CLK_ZEN. -/
  | compressionClockEnable (value : Nat)
  /-- SAFE_RELEASE_POSITION (R438): PWR_SAFECLR.POS releases a configured position's outputs from the safe-state latch. Operands: the position. -/
  | safeReleasePosition (p : PosIx)
  /-- SAFE_RELEASE_LASER (R438): PWR_SAFECLR.LASER releases LASER_EN once no position bit is set. -/
  | safeReleaseLaser
  /-- POWER_ON_RESET (R431): VDD_EMB below its threshold applies the power-on reset level. -/
  | powerOnReset
  /-- MAIN_SUPPLY_FAULT (R475): A main supply out of range for 1 ms applies the system reset MAINSUP. -/
  | mainSupplyFault
  /-- RESET_PIN (R431): RESET_N low applies a system reset. -/
  | resetPin
  /-- PERST_ASSERT (R432): PERST_N falling resets the PCIe endpoint, or the system when PERST_LVL is 1. -/
  | perstAssert
  /-- SOFTWARE_SYSTEM_RESET (R431): LAMP_SWRST.SYS with the key applies a system reset. Operands: the value of LAMP_SWRST.KEY. -/
  | softwareSystemReset (key : Nat)
  /-- SOFTWARE_CORE_RESET (R431): LAMP_SWRST.CORE with the key applies a core reset. Operands: the value of LAMP_SWRST.KEY. -/
  | softwareCoreReset (key : Nat)
  /-- DEBUG_RESET_REQUEST (R431): An unlocked debug port requests a system or core reset. Operands: whether it asks for the system level, else the core level. -/
  | debugResetRequest (sys : Bool)
  /-- POWER_FAIL (R447): PWRFAIL_N falling snuffs every position, stops new work and starts the Ember commit. -/
  | powerFail
  /-- EMBER_COMMIT_DONE (R434): The Ember commit ends, letting a held reset sequence proceed. -/
  | emberCommitDone
  /-- POWER_RETURN (R448): PWRFAIL_N high for 10 ms with supplies in range applies a system reset PFRET. -/
  | powerReturn
  /-- RESET_RELEASE (R434): The last source of a level releases and Lamplighter begins its sequence. Operands: the level whose last source releases, and the EMB clock cycles it lasted. -/
  | resetRelease (lvl : Level) (cycles : Nat)
  /-- C0_RELEASE (R437): C0 is released at ENTRY and the boot-ok deadline starts. -/
  | c0Release
  /-- BOOT_OK (R440): LAMP_BOOTOK.OK clears FAILCNT and confirms a trial image. Operands: the anti-rollback fuses blown once Mantle has tried to raise the counter. -/
  | bootOk (fuses : Nat)
  /-- BOOT_DEADLINE_EXPIRY (R440): No boot-ok within 2 s counts a failed start and applies a system reset. -/
  | bootDeadlineExpiry
  /-- WATCHDOG_ENABLE (R444): Setting LAMP_WDT.EN starts the watchdog until the next system reset. Operands: the value of PERIOD written with EN. -/
  | watchdogEnable (period : Nat)
  /-- WATCHDOG_KICK (R444): A write to LAMP_WDKICK restarts the watchdog count. -/
  | watchdogKick
  /-- WATCHDOG_EXPIRY (R444): PERIOD without a kick applies a core reset with cause WDT. -/
  | watchdogExpiry
  /-- BLOCK_RESET (R445): LAMP_BRST.GO asks an engine or position to go idle for a single-block reset. Operands: LAMP_BRST.KIND and INDEX. -/
  | blockReset (position : Bool) (index : Nat)
  /-- BLOCK_RESET_IDLE (R445): The block reaching idle is reset with RESULT 1. Operands: the requesters whose requests waited on the crossings of the block. -/
  | blockResetIdle (flushed : List Requester)
  /-- BLOCK_RESET_TIMEOUT (R445): TMO expiring raises block-reset snuff and resets the block at once. Operands: the requesters whose requests waited on the crossings of the block. -/
  | blockResetTimeout (flushed : List Requester)
  /-- BLOCK_RESTART_DONE (R446): A reset block's restart ends and its crossings return to request and acknowledge. -/
  | blockRestartDone
  /-- KEY_NEW (R454): KEY_NEW draws and wraps a pack key and loads the slot. -/
  | keyNew
  /-- KEY_UNWRAP (R456): KEY_UNWRAP unwraps a WRAPPED_KEY body by the device or escrow path and loads the slot. -/
  | keyUnwrap
  /-- KEY_DROP (R453): KEY_DROP clears one key slot. -/
  | keyDrop
  /-- KEY_DESTROY (R458): KEY_DESTROY waits for a rank boundary, zeroises the slot and lists staged data as cause 7. -/
  | keyDestroy
  /-- ESCROW_ENROLL (R455): ESCROW_ENROLL writes an escrow key into a free slot. -/
  | escrowEnroll
  /-- DBG_CHAL (R462): DBG_CHAL returns a fresh debug nonce. -/
  | dbgChal
  /-- DBG_UNLOCK (R462): DBG_UNLOCK checks a signed token and unlocks the debug port. -/
  | dbgUnlock
  /-- TRNG (R467): TRNG returns up to 64 random bytes. -/
  | trng
  /-- MAILBOX_DONE (R467): A mailbox operation ends with its result in MTL_DATA and MTL_STAT. -/
  | mailboxDone
  /-- NONCE_EXPIRY (R462): A debug nonce expires 60 s after DBG_CHAL. -/
  | nonceExpiry
  /-- TRNG_HEALTH_FAIL (R466): A failing TRNG health test fails every operation needing random bytes. -/
  | trngHealthFail
  /-- MANTLE_FAULT (R466): An uncorrectable Mantle memory error or watchdog expiry applies a system reset MTL. -/
  | mantleFault
  /-- SPDM_REQUEST (R464): Mantle answers an SPDM request received as MCTP over PCIe VDM. Operands: the request message. -/
  | spdmRequest (msg : List Byte)
  /-- SUPPLY_OUT_OF_RANGE (R475): A supply more than 6 % from nominal for 200 ns raises the supply snuff source. Operands: the supply, in the order of R475. -/
  | supplyOutOfRange (n : Fin 7)
  /-- PPS_EDGE (R480): An accepted PPS edge corrects or acquires TIME and updates the trim. Operands: nanoseconds from the last tick boundary to the edge. -/
  | ppsEdge (dt : Nat)
  /-- PPS_HOLDOVER (R481): No accepted edge for 1.5 s sets HOLDOVER and freezes the trim. -/
  | ppsHoldover
  /-- TIME_SETSEC (R480): A write to TIME_SETSEC sets the seconds to apply at the next accepted edge. Operands: the value of SEC. -/
  | timeSetsec (sec : Nat)
  /-- SHOCK_RELEASE (R82): SHOCK_Np returning high deasserts the position's shock snuff source, so that a later snuff clear can succeed. Operands: the position. -/
  | shockRelease (p : PosIx)
  /-- SUPPLY_IN_RANGE (R475): A monitored supply returning within range deasserts the supply snuff source and clears its FLT_VMON bit. Operands: the supply, in the order of R475. -/
  | supplyInRange (n : Fin 7)
  /-- ENCODER_EDGE (R193): A filtered quadrature edge on CARp_ENCA or CARp_ENCB advances or retards CAR_POS by one count, in every state. Operands: the position, which input changes (true: B) and its new level. -/
  | encoderEdge (p : PosIx) (chB level : Bool)
  /-- TRST_ASSERT (R430): TRST_N going low resets the debug logic and nothing else. -/
  | trstAssert
  /-- JTAG_TEST_MODE (R412): The JTAG test controller entering or leaving test mode, or an EXTEST instruction, switches every crossing to two flip-flops and overrides the safe-state latch, and back again. Operands: whether test mode is held, and whether an EXTEST instruction is. -/
  | jtagTestMode (test extest : Bool)
  /-- THERM_TJ_CROSSING (R331): The on-die junction temperature reaching THERM_TJ limits the device to two stripe operations, and the limit lifts once it falls 5.0 °C below. Operands: the junction temperature in 0.1 °C. -/
  | thermTjCrossing (t : Int)
  /-- TRNG_HEALTH_RECOVERY (R466): The TRNG health tests passing again ends the failing condition, so operations that need random bytes succeed once more. -/
  | trngHealthRecovery
  /-- RETRAIN_COMPLETE (R356): A GDDR7 interface retraining that succeeds ends within 200 µs, and the accesses that waited through it proceed. Operands: the device. -/
  | retrainComplete (d : DevIx)
  /-- ALIGN_RECEIVED (R245): An ALIGN block received from the PF8 on a lane reseeds that lane's descrambler and deskews the lanes, or completes a lane change. Operands: the position and the lane. -/
  | alignReceived (p : PosIx) (l : Fin 4)
  /-- PERST_RELEASE (R432): PERST_N rising while PERST_LVL is 0 ends the fundamental reset of the PCIe endpoint alone, so the link can train again. -/
  | perstRelease
  deriving DecidableEq, Repr

end Sys2Proof
end

