-- ==== Sys2Proof/Machine/Crc.lean ====
section
/-! DEFINITION. The check words: CRC-32C, CRC-64/ECMA-182 (R351) and the XOR of blocks (R248). -/

namespace Sys2Proof.Machine

/-- One bit of the reflected CRC-32C register. PRESUMED: log 25. -/
def crc32cBit (c : Nat) : Nat := if c % 2 = 1 then xorBits (c / 2) 0x82F63B78 else c / 2

/-- One byte of CRC-32C. PRESUMED: log 25. -/
def crc32cByte (c : Nat) (b : Byte) : Nat :=
  (List.range 8).foldl (fun c _ => crc32cBit c) (xorBits c b.toNat)

/-- CRC-32C of a byte string: the Castagnoli polynomial, reflected, all-ones start and final inversion. PRESUMED: log 25. -/
def crc32c (l : List Byte) : Nat := xorBits (l.foldl crc32cByte 0xFFFFFFFF) 0xFFFFFFFF

/-- One bit of the seal's register. -/
def crc64Bit (c : Nat) : Nat :=
  if bitAt c 63 then xorBits (c * 2 % 2 ^ 64) 0x42F0E1EBA9EA3693 else c * 2 % 2 ^ 64

/-- One byte folded into a seal (R351). -/
def crc64Byte (c : Nat) (b : Byte) : Nat :=
  (List.range 8).foldl (fun c _ => crc64Bit c) (xorBits c (b.toNat * 2 ^ 56))

/-- The seal after more bytes, in address order (R351); the seal of an empty extent is 0. -/
def sealFold (c : Nat) (l : List Byte) : Nat := l.foldl crc64Byte c

/-- The exclusive or of two byte strings of one length. -/
def xorBytes (a b : List Byte) : List Byte := List.zipWith (fun x y => x ^^^ y) a b

end Sys2Proof.Machine
end

