-- ==== Sys2Proof/Config.lean ====
section
/-! DEFINITION. What one part fixes and the spec leaves open: constants and functions without a body, so that no
proof can see a value of them. Each is named in the assumption log. -/

namespace Sys2Proof.Config

/-- A free value: whatever the part gives at site `site` on the `n`-th time a step asks for one. DESIGN CHOICE: log 4. -/
opaque free : (site n : Nat) → Nat

/-- One choice of an unstated rounding: whether the arithmetic at `site` rounds num/den up rather than down. DESIGN CHOICE: log 4. -/
opaque roundUp : (site : Nat) → (num den : Int) → Bool

/-- The byte of the boot ROM at an offset. -/
opaque bootRom : Nat → BitVec 8

/-- The REASON field of the event record of an access out of reach or in no region; R11 states none. PRESUMED: log 15. -/
opaque reachReason : BitVec 16

/-- The REASON fields of the event records of a fenced servo lane (R164) and of a failed servo (R165): none stated. -/
opaque fenceReason : BitVec 16
opaque servoReason : BitVec 16

/-- The unique device secret (R451). -/
opaque uds : List (BitVec 8)

/-- Whether a signature verifies (RFC 8032) under a key: 0 Mirop root, 1 Mirop debug, 2 customer firmware, 3 customer
debug (Table 17.1). -/
opaque ed448 : (key : Nat) → (msg sig : List (BitVec 8)) → Bool

/-- Whether the customer firmware key (2) or the customer debug key (3) is enrolled in OTP. -/
opaque enrolled : (key : Nat) → Bool

/-- OTP fields that the option page meets or fills in for (R436, Table 16.4): the debug lock, and the subsystem IDs. -/
opaque otpDbgLock : Bool
opaque otpSsvid : BitVec 16
opaque otpSsid : BitVec 16

/-- The public half of the device identity key (R451), the anti-rollback fuses blown when the part was made (R461), and the spare
rows and columns in use of SRAM (0), Ember store (1) and valid-bit array (2) (R359). -/
opaque identityKey : List (BitVec 8)
opaque otpFuses : Nat
opaque otpSpares : (memory : Nat) → Nat

/-- The SPDM response to a request, given the measurements and how many values have been drawn (R464). -/
opaque spdmReply : (request : List (BitVec 8)) → (measurements : List (List (BitVec 8))) → (n : Nat) → List (BitVec 8)

/-- The hashes of the enrolled keys as the OTP state holds them (R465). -/
opaque otpHashes : List (BitVec 8)

/-- The firmware version that log page 0x00 gives, 32 bytes (Table 11.7). -/
opaque fwVersion : (image : Nat) → List (BitVec 8)

/-- x × sin(2πk / period) and x × cos(2πk / period) in whole units, as the injection generator rounds (R225). -/
opaque sinTimes : (x : Int) → (k period : Nat) → Int
opaque cosTimes : (x : Int) → (k period : Nat) → Int

/-- The compressor's hash of four bytes, and the code lengths it builds for an alphabet's counts of use, literal/length (true) or
distance (R395 states neither). -/
opaque hash4 : (bytes : Nat) → Nat
opaque codeLengths : (literals : Bool) → (uses : List Nat) → List Nat

/-- The n-th number of the sampling generator under a seed (R381): repeatable, and otherwise not stated. -/
opaque sampleRandom : (seed n : Nat) → Nat

/-- The sampling interpolator at one of its 64 phases over sixteen raw samples, the eighth of which is the symbol's own, in
1/64 of a code; R102 states the phases and not the filter. -/
opaque interpolate : (phase : Nat) → (samples : List Nat) → Int

/-- The start of the 0, 0, 3, 3 run that the preamble search finds among the samples of slot symbols 64 to 239 (R103), held
to 80 to 176; how it searches is not stated. -/
opaque runStart : (samples : List Nat) → Nat

/-- The corrected value of a sample where levels 0 and 3 measured alike, so that no gain puts them apart (R103). -/
opaque noGain : (v : Int) → Int

/-- One less than the metric, in 1/2^36, that one unit of a log-likelihood ratio stands for at DET_LLR.SCALE 64; R110 states
no unit. -/
opaque llrUnit : Nat

/-- The n-th number of the noise generator under a seed: Gaussian, zero mean, in 1/65,536 of the standard deviation (R138). -/
opaque gauss : (seed n : Nat) → Int

/-- log2 of the Gaussian density of a deviation whose square is d2 under a variance, and log2 of a sum of powers of two, both
Q32.32 (R139): d2 and variance in 1/2^36. -/
opaque gaussLog2 : (d2 variance : Nat) → Int
opaque log2Sum : (l : List Int) → Int

/-- The frame slot and the slot symbol that lie beside symbol k of a slot, on the land one revolution back along the path or,
with `later`, forward (R75); R24 to R27 give no closed form of it. -/
opaque beside : (layer slot k : Nat) → (later : Bool) → Nat × Nat

/-- The mean reflectance that a frame shows where its guard or a level gave no sample (Table 3.3). -/
opaque noLevel : (level : Nat) → Nat

/-- The gains of the spindle angle counter's PLL (R187 gives its order and its bandwidth with a tolerance): what a phase error, in
2^-32 counts times its second argument, adds to the rate at once and to the rate's integral part, in 2^-32 counts per tick. -/
opaque pllProportional : Int → Nat → Int
opaque pllIntegral : Int → Nat → Int

/-- The duty that a phase current loop of the carriage sets from the error and the sum of errors, in 2^-56 mA (R195 names a PI loop and
gives no gains). -/
opaque phaseDuty : (err integral : Int) → Int

end Sys2Proof.Config
end

