-- ==== Sys2Proof/Machine/RegFile.lean ====
section
/-! DEFINITION. Sparse data by key in one canonical form, register fields with the access codes of Table 0.3, and
the register file of the whole device: one value per field that differs from its reset value. -/

namespace Sys2Proof.Machine

/-- The value at key k of a list of pairs. -/
def Assoc.get {α : Type} (k : Nat) : List (Nat × α) → Option α
  | [] => none
  | (a, v) :: t => if a = k then some v else Assoc.get k t

/-- The list with value v at key k, keys rising. -/
def Assoc.put {α : Type} (k : Nat) (v : α) : List (Nat × α) → List (Nat × α)
  | [] => [(k, v)]
  | (a, w) :: t =>
    if k < a then (k, v) :: (a, w) :: t
    else if k = a then (k, v) :: t
    else (a, w) :: Assoc.put k v t

/-- The list with nothing at key k. -/
def Assoc.del {α : Type} (k : Nat) : List (Nat × α) → List (Nat × α)
  | [] => []
  | (a, w) :: t => if a = k then Assoc.del k t else (a, w) :: Assoc.del k t

/-- The list with nothing at the keys from lo up to, not including, hi. -/
def Assoc.delRange {α : Type} (lo hi : Nat) (l : List (Nat × α)) : List (Nat × α) :=
  l.filter fun e => !(lo ≤ e.1 && e.1 < hi)

/-- Keys strictly rising: the canonical form. -/
def Assoc.sorted {α : Type} : List (Nat × α) → Bool
  | [] => true
  | [_] => true
  | (a, _) :: (b, w) :: t => a < b && Assoc.sorted ((b, w) :: t)

/-- The access codes of Table 0.3 (R4). RSV needs no field: it reads zero and ignores writes. -/
inductive Acc where
  | rw | ro | w1c | w1s | wo | rc
  deriving DecidableEq, Repr

/-- A field of a register: the register's fabric address, its low bit, width, access code and reset value. -/
structure Fld where
  addr : Nat
  lo : Nat
  w : Nat
  acc : Acc
  rst : Nat
  deriving DecidableEq, Repr

/-- A register: its address, its width in bits (R7) and its fields. -/
structure Reg where
  addr : Nat
  width : Nat
  flds : List Fld
  deriving DecidableEq, Repr

/-- The key of a field in the register file. -/
def Fld.key (f : Fld) : Nat := f.addr * 64 + f.lo

/-- The register file: field keys and values, keys rising, no field at its reset value. -/
abbrev RegFile := List (Nat × Nat)

/-- The value of a field: its reset value where the file lists none. -/
def RegFile.rd (r : RegFile) (f : Fld) : Nat := (Assoc.get f.key r).getD f.rst

/-- The file with a field at a value, cut to the field's width. -/
def RegFile.wr (r : RegFile) (f : Fld) (v : Nat) : RegFile :=
  if v % 2 ^ f.w = f.rst then Assoc.del f.key r else Assoc.put f.key (v % 2 ^ f.w) r

/-- The file with every field of the addresses from lo up to, not including, hi at its reset value (R8). -/
def RegFile.resetRange (r : RegFile) (lo hi : Nat) : RegFile := Assoc.delRange (lo * 64) (hi * 64) r

/-- What software's write of x to a field makes of it, and the value now held, by access code (R4, Table 0.3).
A WO field holds nothing: its action or load is the effect its description gives. -/
def Fld.written (f : Fld) (old x : Nat) : Nat :=
  match f.acc with
  | .rw => x
  | .ro => old
  | .w1c => andNotBits old x
  | .w1s => orBits old x
  | .wo => old
  | .rc => old

/-- What a read of a field returns (R4): the value, zero for WO. -/
def Fld.readValue (f : Fld) (v : Nat) : Nat := if f.acc = .wo then 0 else v

/-- What a read leaves in a field (R4, R6): an RC field clears, whatever the source of the read. -/
def Fld.afterRead (f : Fld) (v : Nat) : Nat := if f.acc = .rc then 0 else v

/-- Base of beam engine e's register block (Table 1.4). -/
def engBase (e : Nat) : Nat := 0x0202000000 + e * 0x10000

/-- Base of position p's register block (Table 1.4). -/
def posBase (p : Nat) : Nat := 0x0201000000 + p * 0x100000

/-- The key base of function f's capability and control page. BAR0 lies in host address space (R19), outside the
40-bit fabric map, so the model numbers it above that map. -/
def bar0 (f : Nat) : Nat := 0x10000000000 + f * 0x2000000

end Sys2Proof.Machine
end

