-- ==== Sys2Proof/Machine/RegsEngine.lean ====
section
/-! DEFINITION. The registers of beam engine e (chapters 3 and 4).
One definition per field of the register tables of the spec, with its offset, low bit, width, access code and
reset value as the table gives them, and the register map of each block for reads and writes by address. -/

namespace Sys2Proof.Machine.R

/-- CAST_CTRL.ABORT [2], WO (R99, Table 3.10): 1 drops the write gate at once, raises snuff on the engine's position and abandons the frame. -/
def castCtrlAbort (e : Nat) : Fld :=
  ⟨engBase e + 0x4000, 2, 1, .wo, 0⟩
/-- CAST_CTRL.START [1], WO (R99, Table 3.10): 1 fetches the descriptor at CAST_DESC.ADDR and arms the engine for its slot; ignored while CAST_STAT.BUSY = 1. -/
def castCtrlStart (e : Nat) : Fld :=
  ⟨engBase e + 0x4000, 1, 1, .wo, 0⟩
/-- CAST_CTRL.EN [0], RW (R99, Table 3.10): 1 selects cast mode, 0 read mode; takes effect at the next rank boundary. -/
def castCtrlEn (e : Nat) : Fld :=
  ⟨engBase e + 0x4000, 0, 1, .rw, 0⟩
/-- CAST_DESC.ADDR [39:7], RW (R99, Table 3.11): Bits [39:7] of the descriptor's SRAM address. -/
def castDescAddr (e : Nat) : Fld :=
  ⟨engBase e + 0x4008, 7, 33, .rw, 0⟩
/-- CAST_VFY0.SER_MAX [31:16], RW (R99, Table 3.12): Raw symbol errors allowed per codeword; values above 0x0180 act as 0x0180. -/
def castVfy0SerMax (e : Nat) : Fld :=
  ⟨engBase e + 0x4010, 16, 16, .rw, 0x00C0⟩
/-- CAST_VFY0.ERUN_MAX [15:8], RW (R99, Table 3.12): Longest erasure run allowed, in symbols; values above 0x60 act as 0x60. -/
def castVfy0ErunMax (e : Nat) : Fld :=
  ⟨engBase e + 0x4010, 8, 8, .rw, 0x30⟩
/-- CAST_VFY0.FLY_MAX [7:4], RW (R99, Table 3.12): Flywheeled sync marks allowed per frame; values above 0x4 act as 0x4. -/
def castVfy0FlyMax (e : Nat) : Fld :=
  ⟨engBase e + 0x4010, 4, 4, .rw, 0x2⟩
/-- CAST_VFY0.ITER_MAX [3:0], RW (R99, Table 3.12): LDPC iterations allowed; values above 0xA act as 0xA. -/
def castVfy0IterMax (e : Nat) : Fld :=
  ⟨engBase e + 0x4010, 0, 4, .rw, 0x6⟩
/-- CAST_VFY1.ERAS_MAX [31:16], RW (R99, Table 3.13): Flagged symbols allowed per codeword; values above 0x00C0 act as 0x00C0. -/
def castVfy1ErasMax (e : Nat) : Fld :=
  ⟨engBase e + 0x4014, 16, 16, .rw, 0x0060⟩
/-- CAST_VFY1.LVL_TOL [15:8], RW (R99, Table 3.13): Level tolerance in units of 0.001; values above 0x1E act as 0x1E. -/
def castVfy1LvlTol (e : Nat) : Fld :=
  ⟨engBase e + 0x4014, 8, 8, .rw, 0x1E⟩
/-- CAST_VFY1.HDR_CORR_MAX [7:4], RW (R99, Table 3.13): Header byte corrections allowed; values above 0x4 act as 0x4. -/
def castVfy1HdrCorrMax (e : Nat) : Fld :=
  ⟨engBase e + 0x4014, 4, 4, .rw, 0x2⟩
/-- CAST_STAT.BUSY [31], RO (R99, Table 3.14): Armed or pouring. -/
def castStatBusy (e : Nat) : Fld :=
  ⟨engBase e + 0x4018, 31, 1, .ro, 0⟩
/-- CAST_STAT.VERDICT [30:28], RO (R99, Table 3.14): Last frame: 0 none, 1 pass, 2 fail, 3 abandoned, 4 no verdict after forced reset; other values reserved. -/
def castStatVerdict (e : Nat) : Fld :=
  ⟨engBase e + 0x4018, 28, 3, .ro, 0⟩
/-- CAST_STAT.DONE [8], W1C (R99, Table 3.14): Set when VERDICT is posted. -/
def castStatDone (e : Nat) : Fld :=
  ⟨engBase e + 0x4018, 8, 1, .w1c, 0⟩
/-- CAST_STAT.SEAL [7], W1C (R99, Table 3.14): Assembler reported a tile failed in both copies. -/
def castStatSeal (e : Nat) : Fld :=
  ⟨engBase e + 0x4018, 7, 1, .w1c, 0⟩
/-- CAST_STAT.GATE [6], W1C (R99, Table 3.14): Gate criterion failed. -/
def castStatGate (e : Nat) : Fld :=
  ⟨engBase e + 0x4018, 6, 1, .w1c, 0⟩
/-- CAST_STAT.LEVELS [5], W1C (R99, Table 3.14): Levels criterion failed. -/
def castStatLevels (e : Nat) : Fld :=
  ⟨engBase e + 0x4018, 5, 1, .w1c, 0⟩
/-- CAST_STAT.DECODE [4], W1C (R99, Table 3.14): Decode criterion failed. -/
def castStatDecode (e : Nat) : Fld :=
  ⟨engBase e + 0x4018, 4, 1, .w1c, 0⟩
/-- CAST_STAT.ERAS [3], W1C (R99, Table 3.14): Erasures criterion failed. -/
def castStatEras (e : Nat) : Fld :=
  ⟨engBase e + 0x4018, 3, 1, .w1c, 0⟩
/-- CAST_STAT.SER [2], W1C (R99, Table 3.14): Raw symbol errors criterion failed. -/
def castStatSer (e : Nat) : Fld :=
  ⟨engBase e + 0x4018, 2, 1, .w1c, 0⟩
/-- CAST_STAT.HDR [1], W1C (R99, Table 3.14): Header criterion failed. -/
def castStatHdr (e : Nat) : Fld :=
  ⟨engBase e + 0x4018, 1, 1, .w1c, 0⟩
/-- CAST_STAT.SYNC [0], W1C (R99, Table 3.14): Sync criterion failed, or sync loss at the slot start. -/
def castStatSync (e : Nat) : Fld :=
  ⟨engBase e + 0x4018, 0, 1, .w1c, 0⟩
/-- CAST_SER.ERAS_WORST [31:16], RO (R99, Table 3.15): Most flagged symbols in any codeword of the last frame. -/
def castSerErasWorst (e : Nat) : Fld :=
  ⟨engBase e + 0x401C, 16, 16, .ro, 0⟩
/-- CAST_SER.SER_WORST [15:0], RO (R99, Table 3.15): Most raw symbol errors in any codeword of the last frame. -/
def castSerSerWorst (e : Nat) : Fld :=
  ⟨engBase e + 0x401C, 0, 16, .ro, 0⟩
/-- CAST_LVL.LVL3 [47:32], RO (R99, Table 3.16): Mean reflectance of level 3 in the last frame, in units of 1/4,096 of unrecorded land. -/
def castLvlLvl3 (e : Nat) : Fld :=
  ⟨engBase e + 0x4020, 32, 16, .ro, 0⟩
/-- CAST_LVL.LVL2 [31:16], RO (R99, Table 3.16): As LVL3, for level 2. -/
def castLvlLvl2 (e : Nat) : Fld :=
  ⟨engBase e + 0x4020, 16, 16, .ro, 0⟩
/-- CAST_LVL.LVL1 [15:0], RO (R99, Table 3.16): As LVL3, for level 1. -/
def castLvlLvl1 (e : Nat) : Fld :=
  ⟨engBase e + 0x4020, 0, 16, .ro, 0⟩
/-- CAST_PSCALE.TARGET [27:16], RO (R99, Table 3.17): Target from the current descriptor. -/
def castPscaleTarget (e : Nat) : Fld :=
  ⟨engBase e + 0x4028, 16, 12, .ro, 0⟩
/-- CAST_PSCALE.APPLIED [11:0], RO (R99, Table 3.17): Power scale now sent to the PF8. -/
def castPscaleApplied (e : Nat) : Fld :=
  ⟨engBase e + 0x4028, 0, 12, .ro, 0⟩
/-- CAST_NBR.LATER [3:2], RO (R99, Table 3.18): Later-neighbour source in use, coded as NBR. -/
def castNbrLater (e : Nat) : Fld :=
  ⟨engBase e + 0x4030, 2, 2, .ro, 0⟩
/-- CAST_NBR.EARLIER [1:0], RO (R99, Table 3.18): Earlier-neighbour source in use, coded as NBR. -/
def castNbrEarlier (e : Nat) : Fld :=
  ⟨engBase e + 0x4030, 0, 2, .ro, 0⟩
/-- CAST_SNUFF.SRC [9:0], RO (R99, Table 3.18): Snuff sources seen at the last abandonment, in the order of Table 3.5: bit 0 off-track to bit 8 block reset and bit 9 abort. -/
def castSnuffSrc (e : Nat) : Fld :=
  ⟨engBase e + 0x4034, 0, 10, .ro, 0⟩
/-- RD_CTRL.ABORT [1], WO (R141, Table 4.9): 1 stops the read at once (R129). -/
def rdCtrlAbort (e : Nat) : Fld :=
  ⟨engBase e + 0x0000, 1, 1, .wo, 0⟩
/-- RD_CTRL.START [0], WO (R141, Table 4.9): 1 fetches the descriptor at RD_DESC.ADDR (R128). -/
def rdCtrlStart (e : Nat) : Fld :=
  ⟨engBase e + 0x0000, 0, 1, .wo, 0⟩
/-- RD_DESC.ADDR [39:7], RW (R141, Table 4.9): Bits [39:7] of the descriptor's SRAM address. -/
def rdDescAddr (e : Nat) : Fld :=
  ⟨engBase e + 0x0008, 7, 33, .rw, 0⟩
/-- RD_STAT.BUSY [31], RO (R141, Table 4.10): Armed or reading. -/
def rdStatBusy (e : Nat) : Fld :=
  ⟨engBase e + 0x0010, 31, 1, .ro, 0⟩
/-- RD_STAT.RESULT [30:28], RO (R141, Table 4.10): 0 none, 1 all requested codewords OK, 2 one or more failed, 3 blank, 4 written, 5 undetermined, 6 slot not found, 7 aborted. -/
def rdStatResult (e : Nat) : Fld :=
  ⟨engBase e + 0x0010, 28, 3, .ro, 0⟩
/-- RD_STAT.ERR [11], W1C (R141, Table 4.10): START refused (R107, R128). -/
def rdStatErr (e : Nat) : Fld :=
  ⟨engBase e + 0x0010, 11, 1, .w1c, 0⟩
/-- RD_STAT.SLAGERR [10], W1C (R141, Table 4.10): Slag list out of order (R113). -/
def rdStatSlagerr (e : Nat) : Fld :=
  ⟨engBase e + 0x0010, 10, 1, .w1c, 0⟩
/-- RD_STAT.LOCK [9], W1C (R141, Table 4.10): PF8 sampling lock lost during the slot. -/
def rdStatLock (e : Nat) : Fld :=
  ⟨engBase e + 0x0010, 9, 1, .w1c, 0⟩
/-- RD_STAT.DONE [8], W1C (R141, Table 4.10): Set when RESULT is posted. -/
def rdStatDone (e : Nat) : Fld :=
  ⟨engBase e + 0x0010, 8, 1, .w1c, 0⟩
/-- RD_CW.ERAS [63:48], RO (R141, Table 4.11): Erased symbols in the codeword. -/
def rdCwEras (e : Nat) (c : Nat) : Fld :=
  ⟨engBase e + 0x0100 + 8 * c, 48, 16, .ro, 0⟩
/-- RD_CW.SER [47:32], RO (R141, Table 4.11): Raw symbol errors; valid when RESULT is 1. -/
def rdCwSer (e : Nat) (c : Nat) : Fld :=
  ⟨engBase e + 0x0100 + 8 * c, 32, 16, .ro, 0⟩
/-- RD_CW.RESULT [31:28], RO (R141, Table 4.11): 0 not decoded, 1 OK, 2 FAIL, 3 MISCORRECT, 4 UNREADABLE; other values reserved. -/
def rdCwResult (e : Nat) (c : Nat) : Fld :=
  ⟨engBase e + 0x0100 + 8 * c, 28, 4, .ro, 0⟩
/-- RD_CW.ITER [27:22], RO (R141, Table 4.11): Iterations used in the last pass. -/
def rdCwIter (e : Nat) (c : Nat) : Fld :=
  ⟨engBase e + 0x0100 + 8 * c, 22, 6, .ro, 0⟩
/-- RD_CW.STEP [21:19], RO (R141, Table 4.11): Ladder step of the result. -/
def rdCwStep (e : Nat) (c : Nat) : Fld :=
  ⟨engBase e + 0x0100 + 8 * c, 19, 3, .ro, 0⟩
/-- RD_CW.GLOBAL [18:16], RO (R141, Table 4.11): Passes used. -/
def rdCwGlobal (e : Nat) (c : Nat) : Fld :=
  ⟨engBase e + 0x0100 + 8 * c, 16, 3, .ro, 0⟩
/-- TR_CFG.KP_ACQ [31:24], RW (R141, Table 4.12): Proportional gain during acquisition, code / 65,536 phase per unit error. -/
def trCfgKpAcq (e : Nat) : Fld :=
  ⟨engBase e + 0x0020, 24, 8, .rw, 0x40⟩
/-- TR_CFG.KI_ACQ [23:16], RW (R141, Table 4.12): Integral gain during acquisition, same unit. -/
def trCfgKiAcq (e : Nat) : Fld :=
  ⟨engBase e + 0x0020, 16, 8, .rw, 0x08⟩
/-- TR_CFG.KP_TRK [15:8], RW (R141, Table 4.12): Proportional gain when tracking. -/
def trCfgKpTrk (e : Nat) : Fld :=
  ⟨engBase e + 0x0020, 8, 8, .rw, 0x10⟩
/-- TR_CFG.KI_TRK [7:0], RW (R141, Table 4.12): Integral gain when tracking. -/
def trCfgKiTrk (e : Nat) : Fld :=
  ⟨engBase e + 0x0020, 0, 8, .rw, 0x01⟩
/-- TR_STAT.PHASE [21:16], RO (R141, Table 4.12): Interpolator phase, 0 to 63. -/
def trStatPhase (e : Nat) : Fld :=
  ⟨engBase e + 0x0024, 16, 6, .ro, 0⟩
/-- TR_STAT.ZONE [13:8], RO (R141, Table 4.12): Zone last preset. -/
def trStatZone (e : Nat) : Fld :=
  ⟨engBase e + 0x0024, 8, 6, .ro, 0⟩
/-- TR_STAT.LOCKED [0], RO (R141, Table 4.12): PF8 reports sampling lock. -/
def trStatLocked (e : Nat) : Fld :=
  ⟨engBase e + 0x0024, 0, 1, .ro, 0⟩
/-- EQ_CFG.ALIGN_OUT [31:23], RW (R141, Table 4.13): Outer-stream alignment d_out, signed symbols. -/
def eqCfgAlignOut (e : Nat) : Fld :=
  ⟨engBase e + 0x1000, 23, 9, .rw, 0⟩
/-- EQ_CFG.ALIGN_IN [22:14], RW (R141, Table 4.13): Inner-stream alignment d_in, signed symbols. -/
def eqCfgAlignIn (e : Nat) : Fld :=
  ⟨engBase e + 0x1000, 14, 9, .rw, 0⟩
/-- EQ_CFG.MU_MAIN [13:10], RW (R141, Table 4.13): Main-tap step 2^−MU_MAIN. -/
def eqCfgMuMain (e : Nat) : Fld :=
  ⟨engBase e + 0x1000, 10, 4, .rw, 0xA⟩
/-- EQ_CFG.MU_SIDE [9:6], RW (R141, Table 4.13): Side-tap step 2^−MU_SIDE. -/
def eqCfgMuSide (e : Nat) : Fld :=
  ⟨engBase e + 0x1000, 6, 4, .rw, 0xC⟩
/-- EQ_CFG.LEAK [5:2], RW (R141, Table 4.13): Leak toward the seed; 0 none (R106). -/
def eqCfgLeak (e : Nat) : Fld :=
  ⟨engBase e + 0x1000, 2, 4, .rw, 0⟩
/-- EQ_CFG.FREEZE [1], RW (R141, Table 4.13): 1 stops adaptation. -/
def eqCfgFreeze (e : Nat) : Fld :=
  ⟨engBase e + 0x1000, 1, 1, .rw, 0⟩
/-- EQ_CFG.SIDE_EN [0], RW (R141, Table 4.13): 1 includes the side sums. -/
def eqCfgSideEn (e : Nat) : Fld :=
  ⟨engBase e + 0x1000, 0, 1, .rw, 1⟩
/-- EQ_STAT.CLAMP [0], W1C (R141, Table 4.13): A tap saturated. -/
def eqStatClamp (e : Nat) : Fld :=
  ⟨engBase e + 0x1004, 0, 1, .w1c, 0⟩
/-- EQ_TAP.TAP [13:0], RW (R141, Table 4.14): Tap in units of 1/4,096, signed; i = 0 to 14 main, 15 to 21 inner, 22 to 28 outer. -/
def eqTapTap (e : Nat) (i : Nat) : Fld :=
  ⟨engBase e + 0x1100 + 4 * i, 0, 14, .rw, (if i = 7 then 0x1000 else 0)⟩
/-- DET_LVL.A3 [31:24], RW (R141, Table 4.15): Level-3 amplitude, signed, units of 1/64. -/
def detLvlA3 (e : Nat) : Fld :=
  ⟨engBase e + 0x2000, 24, 8, .rw, 0xC0⟩
/-- DET_LVL.A2 [23:16], RW (R141, Table 4.15): Level-2 amplitude. -/
def detLvlA2 (e : Nat) : Fld :=
  ⟨engBase e + 0x2000, 16, 8, .rw, 0xE7⟩
/-- DET_LVL.A1 [15:8], RW (R141, Table 4.15): Level-1 amplitude. -/
def detLvlA1 (e : Nat) : Fld :=
  ⟨engBase e + 0x2000, 8, 8, .rw, 0x12⟩
/-- DET_LVL.A0 [7:0], RW (R141, Table 4.15): Level-0 amplitude. -/
def detLvlA0 (e : Nat) : Fld :=
  ⟨engBase e + 0x2000, 0, 8, .rw, 0x40⟩
/-- DET_TGT.G2 [29:20], RW (R141, Table 4.15): Target coefficient, signed, units of 1/256. -/
def detTgtG2 (e : Nat) : Fld :=
  ⟨engBase e + 0x2004, 20, 10, .rw, 0x080⟩
/-- DET_TGT.G1 [19:10], RW (R141, Table 4.15): Target coefficient. -/
def detTgtG1 (e : Nat) : Fld :=
  ⟨engBase e + 0x2004, 10, 10, .rw, 0x100⟩
/-- DET_TGT.G0 [9:0], RW (R141, Table 4.15): Target coefficient. -/
def detTgtG0 (e : Nat) : Fld :=
  ⟨engBase e + 0x2004, 0, 10, .rw, 0x080⟩
/-- DET_LLR.CLIP [13:8], RW (R141, Table 4.15): Ratio clip; values above 0x1F act as 0x1F. -/
def detLlrClip (e : Nat) : Fld :=
  ⟨engBase e + 0x2008, 8, 6, .rw, 0x1F⟩
/-- DET_LLR.SCALE [7:0], RW (R141, Table 4.15): Ratio scale, units of 1/64. -/
def detLlrScale (e : Nat) : Fld :=
  ⟨engBase e + 0x2008, 0, 8, .rw, 0x40⟩
/-- LDPC_CFG.ITER_EXT [31:26], RW (R141, Table 4.16): Iteration limit from the capture; above 0x3C acts as 0x3C, 0 as 1. -/
def ldpcCfgIterExt (e : Nat) : Fld :=
  ⟨engBase e + 0x2010, 26, 6, .rw, 0x32⟩
/-- LDPC_CFG.ITER_MAX [25:21], RW (R141, Table 4.16): Iteration limit at step 0; above 0x14 acts as 0x14, 0 as 1. -/
def ldpcCfgIterMax (e : Nat) : Fld :=
  ⟨engBase e + 0x2010, 21, 5, .rw, 0x14⟩
/-- LDPC_CFG.NORM [20:17], RW (R141, Table 4.16): Normalisation, units of 1/16. -/
def ldpcCfgNorm (e : Nat) : Fld :=
  ⟨engBase e + 0x2010, 17, 4, .rw, 0xC⟩
/-- LDPC_CFG.GLOBAL [16:14], RW (R141, Table 4.16): Passes at step 0; 0 acts as 1, above 4 as 4. -/
def ldpcCfgGlobal (e : Nat) : Fld :=
  ⟨engBase e + 0x2010, 14, 3, .rw, 1⟩
/-- LDPC_CFG.GLOBAL_EXT [13:11], RW (R141, Table 4.16): Passes from the capture; 0 acts as 1, above 4 as 4. -/
def ldpcCfgGlobalExt (e : Nat) : Fld :=
  ⟨engBase e + 0x2010, 11, 3, .rw, 3⟩
/-- SYNC_CFG.THR [20:16], RW (R141, Table 4.17): Agreement threshold; below 0x10 acts as 0x10, above 0x18 as 0x18. -/
def syncCfgThr (e : Nat) : Fld :=
  ⟨engBase e + 0x3000, 16, 5, .rw, 0x14⟩
/-- SYNC_CFG.HDR_WIN [15:8], RO (R141, Table 4.17): Header window half-width, symbols. -/
def syncCfgHdrWin (e : Nat) : Fld :=
  ⟨engBase e + 0x3000, 8, 8, .ro, 0x40⟩
/-- SYNC_CFG.WIN [7:0], RO (R141, Table 4.17): Block window half-width, symbols. -/
def syncCfgWin (e : Nat) : Fld :=
  ⟨engBase e + 0x3000, 0, 8, .ro, 0x0C⟩
/-- SYNC_STAT.FLY [31:24], RO (R141, Table 4.17): Flywheeled marks in the last slot. -/
def syncStatFly (e : Nat) : Fld :=
  ⟨engBase e + 0x3004, 24, 8, .ro, 0⟩
/-- SYNC_STAT.REJECT [23:16], RO (R141, Table 4.17): Rejected candidates in the last slot, saturating. -/
def syncStatReject (e : Nat) : Fld :=
  ⟨engBase e + 0x3004, 16, 8, .ro, 0⟩
/-- SYNC_STAT.LOST [15:8], RO (R141, Table 4.17): Losses of sync in the last slot. -/
def syncStatLost (e : Nat) : Fld :=
  ⟨engBase e + 0x3004, 8, 8, .ro, 0⟩
/-- SYNC_STAT.REALIGN_BAD [0], RO (R141, Table 4.17): A realignment was not confirmed (R125). -/
def syncStatRealignBad (e : Nat) : Fld :=
  ⟨engBase e + 0x3004, 0, 1, .ro, 0⟩
/-- DEF_CFG.LO [31:24], RW (R141, Table 4.17): Low threshold, units of 1/128. -/
def defCfgLo (e : Nat) : Fld :=
  ⟨engBase e + 0x3010, 24, 8, .rw, 0x4D⟩
/-- DEF_CFG.HI [23:16], RW (R141, Table 4.17): High threshold, units of 1/128. -/
def defCfgHi (e : Nat) : Fld :=
  ⟨engBase e + 0x3010, 16, 8, .rw, 0xA0⟩
/-- DEF_CFG.WIN [15:8], RW (R141, Table 4.17): Window, symbols; 0 acts as 1. -/
def defCfgWin (e : Nat) : Fld :=
  ⟨engBase e + 0x3010, 8, 8, .rw, 0x20⟩
/-- DEF_CFG.EXT [7:0], RW (R141, Table 4.17): Widening on each side, symbols. -/
def defCfgExt (e : Nat) : Fld :=
  ⟨engBase e + 0x3010, 0, 8, .rw, 0x10⟩
/-- BLANK_CFG.LVL [23:16], RW (R141, Table 4.17): Dark threshold, units of 1/128 of the reference. -/
def blankCfgLvl (e : Nat) : Fld :=
  ⟨engBase e + 0x3014, 16, 8, .rw, 0x6E⟩
/-- BLANK_CFG.MARKS [15:0], RW (R141, Table 4.17): Dark symbols below which a slot is blank. -/
def blankCfgMarks (e : Nat) : Fld :=
  ⟨engBase e + 0x3014, 0, 16, .rw, 0x0010⟩
/-- MRG_CTRL.REF [4], RW (R141, Table 4.18): Decoded symbols from OUT (R139). -/
def mrgCtrlRef (e : Nat) : Fld :=
  ⟨engBase e + 0x5000, 4, 1, .rw, 0⟩
/-- MRG_CTRL.NOISE_EN [3], RW (R141, Table 4.18): Noise injection (R138). -/
def mrgCtrlNoiseEn (e : Nat) : Fld :=
  ⟨engBase e + 0x5000, 3, 1, .rw, 0⟩
/-- MRG_CTRL.SIR_EN [2], RW (R141, Table 4.18): Information-rate recursion (R139). -/
def mrgCtrlSirEn (e : Nat) : Fld :=
  ⟨engBase e + 0x5000, 2, 1, .rw, 0⟩
/-- MRG_CTRL.CLR [1], WO (R141, Table 4.18): 1 zeroes every margin counter. -/
def mrgCtrlClr (e : Nat) : Fld :=
  ⟨engBase e + 0x5000, 1, 1, .wo, 0⟩
/-- MRG_CTRL.EN [0], RW (R141, Table 4.18): Counters accumulate. -/
def mrgCtrlEn (e : Nat) : Fld :=
  ⟨engBase e + 0x5000, 0, 1, .rw, 0⟩
/-- NOISE_CTRL.SIGMA [63:48], RW (R141, Table 4.18): Standard deviation, units of 1/4,096 of A(0) − A(3). -/
def noiseCtrlSigma (e : Nat) : Fld :=
  ⟨engBase e + 0x5008, 48, 16, .rw, 0⟩
/-- NOISE_CTRL.SEED [47:0], RW (R141, Table 4.18): Generator seed; 0 acts as 1. -/
def noiseCtrlSeed (e : Nat) : Fld :=
  ⟨engBase e + 0x5008, 0, 48, .rw, 0x0000_0000_0001⟩
/-- MRG_CW.FAIL0 [63:32], RO (R141, Table 4.18): Codewords not OK at step 0. -/
def mrgCwFail0 (e : Nat) : Fld :=
  ⟨engBase e + 0x5010, 32, 32, .ro, 0⟩
/-- MRG_CW.CW [31:0], RO (R141, Table 4.18): Codewords checked. -/
def mrgCwCw (e : Nat) : Fld :=
  ⟨engBase e + 0x5010, 0, 32, .ro, 0⟩
/-- MRG_MISC.MISC [31:0], RO (R141, Table 4.18): Miscorrections. -/
def mrgMiscMisc (e : Nat) : Fld :=
  ⟨engBase e + 0x5018, 0, 32, .ro, 0⟩
/-- MRG_SER.SER [63:0], RO (R141, Table 4.18): Raw symbol errors of OK codewords. -/
def mrgSerSer (e : Nat) : Fld :=
  ⟨engBase e + 0x5020, 0, 64, .ro, 0⟩
/-- MRG_ERS.ERS [63:0], RO (R141, Table 4.18): Erased symbols. -/
def mrgErsErs (e : Nat) : Fld :=
  ⟨engBase e + 0x5028, 0, 64, .ro, 0⟩
/-- MRG_ITER.COUNT [31:0], RO (R141, Table 4.18): n = 0 to 14: OK codewords that needed 4n + 1 to 4n + 4 iterations; n = 15: codewords that did not converge. -/
def mrgIterCount (e : Nat) (n : Nat) : Fld :=
  ⟨engBase e + 0x5040 + 4 * n, 0, 32, .ro, 0⟩
/-- MRG_SIRA.SIRA [63:0], RO (R141, Table 4.18): Σ log2 p(y[k] given past y), signed Q32.32. -/
def mrgSiraSira (e : Nat) : Fld :=
  ⟨engBase e + 0x5080, 0, 64, .ro, 0⟩
/-- MRG_SIRB.SIRB [63:0], RO (R141, Table 4.18): Σ log2 p(y[k] given decoded symbols), signed Q32.32. -/
def mrgSirbSirb (e : Nat) : Fld :=
  ⟨engBase e + 0x5088, 0, 64, .ro, 0⟩
/-- MRG_SIRN.SIRN [63:0], RO (R141, Table 4.18): Symbols counted. -/
def mrgSirnSirn (e : Nat) : Fld :=
  ⟨engBase e + 0x5090, 0, 64, .ro, 0⟩
/-- MRG_VAR.VAR [63:0], RO (R141, Table 4.18): Σ e², units of 1/4,096. -/
def mrgVarVar (e : Nat) : Fld :=
  ⟨engBase e + 0x5098, 0, 64, .ro, 0⟩
/-- MRG_PSIG.PSIG [63:0], RO (R141, Table 4.18): Σ r², units of 1/4,096. -/
def mrgPsigPsig (e : Nat) : Fld :=
  ⟨engBase e + 0x50A0, 0, 64, .ro, 0⟩

/-- Every register of the block, by address (R18): what is not listed reads zero and ignores writes. -/
def engRegs (e : Nat) : List Reg :=
  [⟨engBase e + 0x4000, 32, [castCtrlAbort e, castCtrlStart e, castCtrlEn e]⟩,
   ⟨engBase e + 0x4008, 64, [castDescAddr e]⟩,
   ⟨engBase e + 0x4010, 32, [castVfy0SerMax e, castVfy0ErunMax e, castVfy0FlyMax e, castVfy0IterMax e]⟩,
   ⟨engBase e + 0x4014, 32, [castVfy1ErasMax e, castVfy1LvlTol e, castVfy1HdrCorrMax e]⟩,
   ⟨engBase e + 0x4018, 32, [castStatBusy e, castStatVerdict e, castStatDone e, castStatSeal e, castStatGate e, castStatLevels e, castStatDecode e, castStatEras e, castStatSer e, castStatHdr e, castStatSync e]⟩,
   ⟨engBase e + 0x401C, 32, [castSerErasWorst e, castSerSerWorst e]⟩,
   ⟨engBase e + 0x4020, 64, [castLvlLvl3 e, castLvlLvl2 e, castLvlLvl1 e]⟩,
   ⟨engBase e + 0x4028, 32, [castPscaleTarget e, castPscaleApplied e]⟩,
   ⟨engBase e + 0x4030, 32, [castNbrLater e, castNbrEarlier e]⟩,
   ⟨engBase e + 0x4034, 32, [castSnuffSrc e]⟩,
   ⟨engBase e + 0x0000, 32, [rdCtrlAbort e, rdCtrlStart e]⟩,
   ⟨engBase e + 0x0008, 64, [rdDescAddr e]⟩,
   ⟨engBase e + 0x0010, 32, [rdStatBusy e, rdStatResult e, rdStatErr e, rdStatSlagerr e, rdStatLock e, rdStatDone e]⟩,
   ⟨engBase e + 0x0020, 32, [trCfgKpAcq e, trCfgKiAcq e, trCfgKpTrk e, trCfgKiTrk e]⟩,
   ⟨engBase e + 0x0024, 32, [trStatPhase e, trStatZone e, trStatLocked e]⟩,
   ⟨engBase e + 0x1000, 32, [eqCfgAlignOut e, eqCfgAlignIn e, eqCfgMuMain e, eqCfgMuSide e, eqCfgLeak e, eqCfgFreeze e, eqCfgSideEn e]⟩,
   ⟨engBase e + 0x1004, 32, [eqStatClamp e]⟩,
   ⟨engBase e + 0x2000, 32, [detLvlA3 e, detLvlA2 e, detLvlA1 e, detLvlA0 e]⟩,
   ⟨engBase e + 0x2004, 32, [detTgtG2 e, detTgtG1 e, detTgtG0 e]⟩,
   ⟨engBase e + 0x2008, 32, [detLlrClip e, detLlrScale e]⟩,
   ⟨engBase e + 0x2010, 32, [ldpcCfgIterExt e, ldpcCfgIterMax e, ldpcCfgNorm e, ldpcCfgGlobal e, ldpcCfgGlobalExt e]⟩,
   ⟨engBase e + 0x3000, 32, [syncCfgThr e, syncCfgHdrWin e, syncCfgWin e]⟩,
   ⟨engBase e + 0x3004, 32, [syncStatFly e, syncStatReject e, syncStatLost e, syncStatRealignBad e]⟩,
   ⟨engBase e + 0x3010, 32, [defCfgLo e, defCfgHi e, defCfgWin e, defCfgExt e]⟩,
   ⟨engBase e + 0x3014, 32, [blankCfgLvl e, blankCfgMarks e]⟩,
   ⟨engBase e + 0x5000, 32, [mrgCtrlRef e, mrgCtrlNoiseEn e, mrgCtrlSirEn e, mrgCtrlClr e, mrgCtrlEn e]⟩,
   ⟨engBase e + 0x5008, 64, [noiseCtrlSigma e, noiseCtrlSeed e]⟩,
   ⟨engBase e + 0x5010, 64, [mrgCwFail0 e, mrgCwCw e]⟩,
   ⟨engBase e + 0x5018, 32, [mrgMiscMisc e]⟩,
   ⟨engBase e + 0x5020, 64, [mrgSerSer e]⟩,
   ⟨engBase e + 0x5028, 64, [mrgErsErs e]⟩,
   ⟨engBase e + 0x5080, 64, [mrgSiraSira e]⟩,
   ⟨engBase e + 0x5088, 64, [mrgSirbSirb e]⟩,
   ⟨engBase e + 0x5090, 64, [mrgSirnSirn e]⟩,
   ⟨engBase e + 0x5098, 64, [mrgVarVar e]⟩,
   ⟨engBase e + 0x50A0, 64, [mrgPsigPsig e]⟩] ++
  (List.range 16).map (fun c => ⟨engBase e + 0x0100 + 8 * c, 64, [rdCwEras e c, rdCwSer e c, rdCwResult e c, rdCwIter e c, rdCwStep e c, rdCwGlobal e c]⟩) ++
  (List.range 29).map (fun i => ⟨engBase e + 0x1100 + 4 * i, 32, [eqTapTap e i]⟩) ++
  (List.range 16).map (fun n => ⟨engBase e + 0x5040 + 4 * n, 32, [mrgIterCount e n]⟩)

end Sys2Proof.Machine.R
end

