-- ==== Sys2Proof/Machine/RegsHost.lean ====
section
/-! DEFINITION. The capability and control page of function f and the HQI registers (chapter 10).
One definition per field of the register tables of the spec, with its offset, low bit, width, access code and
reset value as the table gives them, and the register map of each block for reads and writes by address. -/

namespace Sys2Proof.Machine.R

/-- FN_CAP.FNUM [35:32], RO (R273, Table 10.3): Function number, 0 to 15. -/
def fnCapFnum (f : Nat) : Fld :=
  ⟨bar0 f + 0x000, 32, 4, .ro, f⟩
/-- FN_CAP.RDYTO [31:24], RO (R273, Table 10.3): Enable-to-ready bound, 10 ms units. -/
def fnCapRdyto (f : Nat) : Fld :=
  ⟨bar0 f + 0x000, 24, 8, .ro, 0x01⟩
/-- FN_CAP.MAXLOG [23:20], RO (R273, Table 10.3): Largest ring, log2 of entries; 0x0 stands for 16. -/
def fnCapMaxlog (f : Nat) : Fld :=
  ⟨bar0 f + 0x000, 20, 4, .ro, 0x0⟩
/-- FN_CAP.MINLOG [19:16], RO (R273, Table 10.3): Smallest ring, log2 of entries. -/
def fnCapMinlog (f : Nat) : Fld :=
  ⟨bar0 f + 0x000, 16, 4, .ro, 0x4⟩
/-- FN_CAP.VER [15:0], RO (R273, Table 10.3): Queue protocol version. -/
def fnCapVer (f : Nat) : Fld :=
  ⟨bar0 f + 0x000, 0, 16, .ro, 0x0100⟩
/-- FN_QUOTA.HOLD [63:48], RO (R273, Table 10.3): Holding-store quota. Reset: Table 10.2. -/
def fnQuotaHold (f : Nat) : Fld :=
  ⟨bar0 f + 0x008, 48, 16, .ro, 256⟩
/-- FN_QUOTA.TAGS [47:32], RO (R273, Table 10.3): Tag quota. Reset: Table 10.2. -/
def fnQuotaTags (f : Nat) : Fld :=
  ⟨bar0 f + 0x008, 32, 16, .ro, (if f = 0 then 8198 else 1638)⟩
/-- FN_QUOTA.CQMAX [31:16], RO (R273, Table 10.3): Completion-queue quota. Reset: Table 10.2. -/
def fnQuotaCqmax (f : Nat) : Fld :=
  ⟨bar0 f + 0x008, 16, 16, .ro, 64⟩
/-- FN_QUOTA.SQMAX [15:0], RO (R273, Table 10.3): Submission-queue quota. Reset: Table 10.2. -/
def fnQuotaSqmax (f : Nat) : Fld :=
  ⟨bar0 f + 0x008, 0, 16, .ro, 64⟩
/-- FN_CTL.EN [0], RW (R273, Table 10.3): 1 enables the function (R274); 1 to 0 resets it (R299, R300). -/
def fnCtlEn (f : Nat) : Fld :=
  ⟨bar0 f + 0x010, 0, 1, .rw, 0⟩
/-- FN_STS.CFGERR [5], W1C (R273, Table 10.3): Enable refused: admin ring attributes invalid. -/
def fnStsCfgerr (f : Nat) : Fld :=
  ⟨bar0 f + 0x014, 5, 1, .w1c, 0⟩
/-- FN_STS.FATAL [4], RO (R273, Table 10.3): The device has entered a fault state (Fault coverage and time base). -/
def fnStsFatal (f : Nat) : Fld :=
  ⟨bar0 f + 0x014, 4, 1, .ro, 0⟩
/-- FN_STS.SZERR [3], W1C (R273, Table 10.3): An access of a size not accepted. -/
def fnStsSzerr (f : Nat) : Fld :=
  ⟨bar0 f + 0x014, 3, 1, .w1c, 0⟩
/-- FN_STS.DBERR [2], W1C (R273, Table 10.3): A doorbell write ignored (R282). -/
def fnStsDberr (f : Nat) : Fld :=
  ⟨bar0 f + 0x014, 2, 1, .w1c, 0⟩
/-- FN_STS.QERR [1], W1C (R273, Table 10.3): A queue is broken (R302). -/
def fnStsQerr (f : Nat) : Fld :=
  ⟨bar0 f + 0x014, 1, 1, .w1c, 0⟩
/-- FN_STS.RDY [0], RO (R273, Table 10.3): The function is ready. -/
def fnStsRdy (f : Nat) : Fld :=
  ⟨bar0 f + 0x014, 0, 1, .ro, 0⟩
/-- FN_AQA.ACQLOG [19:16], RW (R273, Table 10.3): Admin CQ entries, log2 with 0x0 for 16; writes ignored while EN is 1. -/
def fnAqaAcqlog (f : Nat) : Fld :=
  ⟨bar0 f + 0x018, 16, 4, .rw, 0x4⟩
/-- FN_AQA.ASQLOG [3:0], RW (R273, Table 10.3): Admin SQ entries, as ACQLOG. -/
def fnAqaAsqlog (f : Nat) : Fld :=
  ⟨bar0 f + 0x018, 0, 4, .rw, 0x4⟩
/-- FN_ASQ.ADDR [63:12], RW (R273, Table 10.3): Admin SQ base, 4 KiB aligned; writes ignored while EN is 1. -/
def fnAsqAddr (f : Nat) : Fld :=
  ⟨bar0 f + 0x020, 12, 52, .rw, 0⟩
/-- FN_ACQ.ADDR [63:12], RW (R273, Table 10.3): Admin CQ base, 4 KiB aligned; writes ignored while EN is 1. -/
def fnAcqAddr (f : Nat) : Fld :=
  ⟨bar0 f + 0x028, 12, 52, .rw, 0⟩
/-- FN_APOLL.POLL [15:0], RW (R273, Table 10.3): Admin SQ poll interval, µs; 0 none (R284). -/
def fnApollPoll (f : Nat) : Fld :=
  ⟨bar0 f + 0x030, 0, 16, .rw, 0⟩
/-- FN_USE.HELD [47:32], RO (R273, Table 10.3): Completions held (R291). -/
def fnUseHeld (f : Nat) : Fld :=
  ⟨bar0 f + 0x038, 32, 16, .ro, 0⟩
/-- FN_USE.TAGS [31:16], RO (R273, Table 10.3): Tags in use. -/
def fnUseTags (f : Nat) : Fld :=
  ⟨bar0 f + 0x038, 16, 16, .ro, 0⟩
/-- FN_USE.QUEUES [15:0], RO (R273, Table 10.3): SQs plus CQs in existence. -/
def fnUseQueues (f : Nat) : Fld :=
  ⟨bar0 f + 0x038, 0, 16, .ro, 0⟩
/-- HQI_CTRL.EN [0], RW (R304, Table 10.11): 1 lets functions become ready. -/
def hqiCtrlEn : Fld :=
  ⟨0x02_0050_0000 + 0x0000, 0, 1, .rw, 0⟩
/-- HQI_CRING.ADDR [39:7], RW (R304, Table 10.11): Command-record ring base in SRAM, bits [39:7]. -/
def hqiCringAddr : Fld :=
  ⟨0x02_0050_0000 + 0x0008, 7, 33, .rw, 0⟩
/-- HQI_CRING.LOG2 [3:0], RW (R304, Table 10.11): Records in the ring, log2, 4 to 15; writes ignored while EN is 1. -/
def hqiCringLog2 : Fld :=
  ⟨0x02_0050_0000 + 0x0008, 0, 4, .rw, 0xA⟩
/-- HQI_CPI.COUNT [31:0], RO (R304, Table 10.11): Records written, free-running. -/
def hqiCpiCount : Fld :=
  ⟨0x02_0050_0000 + 0x0010, 0, 32, .ro, 0⟩
/-- HQI_CCI.COUNT [31:0], RW (R304, Table 10.11): Records consumed by firmware, free-running. -/
def hqiCciCount : Fld :=
  ⟨0x02_0050_0000 + 0x0014, 0, 32, .rw, 0⟩
/-- HQI_TCTX.ADDR [39:20], RW (R304, Table 10.11): Tag-context array base, 1 MiB aligned; 32,768 contexts of 32 bytes. -/
def hqiTctxAddr : Fld :=
  ⟨0x02_0050_0000 + 0x0018, 20, 20, .rw, 0⟩
/-- HQI_POST.GO [31], WO (R304, Table 10.11): 1 posts the completion in the tag's context. -/
def hqiPostGo : Fld :=
  ⟨0x02_0050_0000 + 0x0020, 31, 1, .wo, 0⟩
/-- HQI_POST.TAG [14:0], RW (R304, Table 10.11): Tag. -/
def hqiPostTag : Fld :=
  ⟨0x02_0050_0000 + 0x0020, 0, 15, .rw, 0⟩
/-- HQI_PSTAT.RESULT [1:0], RO (R304, Table 10.11): 1 taken as the normal completion, 2 taken with class 4 (abort first), 3 tag not in use. -/
def hqiPstatResult : Fld :=
  ⟨0x02_0050_0000 + 0x0024, 0, 2, .ro, 0⟩
/-- HQI_ABORT.GO [31], WO (R304, Table 10.11): 1 presents an abort for TAG to the arbiter. -/
def hqiAbortGo : Fld :=
  ⟨0x02_0050_0000 + 0x0028, 31, 1, .wo, 0⟩
/-- HQI_ABORT.TAG [14:0], RW (R304, Table 10.11): Tag. -/
def hqiAbortTag : Fld :=
  ⟨0x02_0050_0000 + 0x0028, 0, 15, .rw, 0⟩
/-- HQI_ASTAT.RESULT [1:0], RO (R304, Table 10.11): 1 abort taken, 2 completion already taken, 3 tag not in use. -/
def hqiAstatResult : Fld :=
  ⟨0x02_0050_0000 + 0x002C, 0, 2, .ro, 0⟩
/-- HQI_CQSEL.FN [19:16], RW (R304, Table 10.11): Function. -/
def hqiCqselFn : Fld :=
  ⟨0x02_0050_0000 + 0x0030, 16, 4, .rw, 0⟩
/-- HQI_CQSEL.QID [9:0], RW (R304, Table 10.11): Completion queue selected. -/
def hqiCqselQid : Fld :=
  ⟨0x02_0050_0000 + 0x0030, 0, 10, .rw, 0⟩
/-- HQI_CQSTAT.EXISTS [31], RO (R304, Table 10.11): The selected CQ exists. -/
def hqiCqstatExists : Fld :=
  ⟨0x02_0050_0000 + 0x0034, 31, 1, .ro, 0⟩
/-- HQI_CQSTAT.PAUSED [30], RO (R304, Table 10.11): R290. -/
def hqiCqstatPaused : Fld :=
  ⟨0x02_0050_0000 + 0x0034, 30, 1, .ro, 0⟩
/-- HQI_CQSTAT.HELD [25:13], RO (R304, Table 10.11): Completions in its share. -/
def hqiCqstatHeld : Fld :=
  ⟨0x02_0050_0000 + 0x0034, 13, 13, .ro, 0⟩
/-- HQI_CQSTAT.SHARE [12:0], RO (R304, Table 10.11): Holding share in entries, 1 to 4,096; a CQ created with HSHARE 0 reads 64, and an admin CQ reads 16. -/
def hqiCqstatShare : Fld :=
  ⟨0x02_0050_0000 + 0x0034, 0, 13, .ro, 0⟩
/-- HQI_TAGS.INUSE [15:0], RO (R304, Table 10.11): Tags in use, device-wide. -/
def hqiTagsInuse : Fld :=
  ⟨0x02_0050_0000 + 0x0038, 0, 16, .ro, 0⟩
/-- HQI_EVT.VALID [63], RC (R304, Table 10.11): An event is present; the read removes it from the 64-entry queue. -/
def hqiEvtValid : Fld :=
  ⟨0x02_0050_0000 + 0x0040, 63, 1, .rc, 0⟩
/-- HQI_EVT.OVF [62], RC (R304, Table 10.11): Events lost to a full queue since the last read. -/
def hqiEvtOvf : Fld :=
  ⟨0x02_0050_0000 + 0x0040, 62, 1, .rc, 0⟩
/-- HQI_EVT.CODE [55:48], RC (R304, Table 10.11): 1 PAUSE, 2 RESUME, 3 function reset begun, 4 queue broken, 5 abort taken. -/
def hqiEvtCode : Fld :=
  ⟨0x02_0050_0000 + 0x0040, 48, 8, .rc, 0⟩
/-- HQI_EVT.FN [47:44], RC (R304, Table 10.11): Function. -/
def hqiEvtFn : Fld :=
  ⟨0x02_0050_0000 + 0x0040, 44, 4, .rc, 0⟩
/-- HQI_EVT.QID [41:32], RC (R304, Table 10.11): Queue concerned. -/
def hqiEvtQid : Fld :=
  ⟨0x02_0050_0000 + 0x0040, 32, 10, .rc, 0⟩
/-- HQI_EVT.TAG [14:0], RC (R304, Table 10.11): Tag, for code 5. -/
def hqiEvtTag : Fld :=
  ⟨0x02_0050_0000 + 0x0040, 0, 15, .rc, 0⟩

/-- Every register of the block, by address (R18): what is not listed reads zero and ignores writes. -/
def fnRegs (f : Nat) : List Reg :=
  [⟨bar0 f + 0x000, 64, [fnCapFnum f, fnCapRdyto f, fnCapMaxlog f, fnCapMinlog f, fnCapVer f]⟩,
   ⟨bar0 f + 0x008, 64, [fnQuotaHold f, fnQuotaTags f, fnQuotaCqmax f, fnQuotaSqmax f]⟩,
   ⟨bar0 f + 0x010, 32, [fnCtlEn f]⟩,
   ⟨bar0 f + 0x014, 32, [fnStsCfgerr f, fnStsFatal f, fnStsSzerr f, fnStsDberr f, fnStsQerr f, fnStsRdy f]⟩,
   ⟨bar0 f + 0x018, 32, [fnAqaAcqlog f, fnAqaAsqlog f]⟩,
   ⟨bar0 f + 0x020, 64, [fnAsqAddr f]⟩,
   ⟨bar0 f + 0x028, 64, [fnAcqAddr f]⟩,
   ⟨bar0 f + 0x030, 32, [fnApollPoll f]⟩,
   ⟨bar0 f + 0x038, 64, [fnUseHeld f, fnUseTags f, fnUseQueues f]⟩]

/-- Every register of the block, by address (R18): what is not listed reads zero and ignores writes. -/
def hqiRegs : List Reg :=
  [⟨0x02_0050_0000 + 0x0000, 32, [hqiCtrlEn]⟩,
   ⟨0x02_0050_0000 + 0x0008, 64, [hqiCringAddr, hqiCringLog2]⟩,
   ⟨0x02_0050_0000 + 0x0010, 32, [hqiCpiCount]⟩,
   ⟨0x02_0050_0000 + 0x0014, 32, [hqiCciCount]⟩,
   ⟨0x02_0050_0000 + 0x0018, 64, [hqiTctxAddr]⟩,
   ⟨0x02_0050_0000 + 0x0020, 32, [hqiPostGo, hqiPostTag]⟩,
   ⟨0x02_0050_0000 + 0x0024, 32, [hqiPstatResult]⟩,
   ⟨0x02_0050_0000 + 0x0028, 32, [hqiAbortGo, hqiAbortTag]⟩,
   ⟨0x02_0050_0000 + 0x002C, 32, [hqiAstatResult]⟩,
   ⟨0x02_0050_0000 + 0x0030, 32, [hqiCqselFn, hqiCqselQid]⟩,
   ⟨0x02_0050_0000 + 0x0034, 32, [hqiCqstatExists, hqiCqstatPaused, hqiCqstatHeld, hqiCqstatShare]⟩,
   ⟨0x02_0050_0000 + 0x0038, 32, [hqiTagsInuse]⟩,
   ⟨0x02_0050_0000 + 0x0040, 64, [hqiEvtValid, hqiEvtOvf, hqiEvtCode, hqiEvtFn, hqiEvtQid, hqiEvtTag]⟩]

end Sys2Proof.Machine.R
end

