-- ==== Sys2Proof/Machine/RegsMemory.lean ====
section
/-! DEFINITION. The registers of BUF, CCH, PERF and CMP (chapters 12, 13 and 14).
One definition per field of the register tables of the spec, with its offset, low bit, width, access code and
reset value as the table gives them, and the register map of each block for reads and writes by address. -/

namespace Sys2Proof.Machine.R

/-- BUF_CTRL.M1_OFF [2], RW (R364, Table 12.8): 1 takes M1 offline (R358). -/
def bufCtrlM1Off : Fld :=
  ⟨0x02_0060_0000 + 0x0000, 2, 1, .rw, 0⟩
/-- BUF_CTRL.M0_OFF [1], RW (R364, Table 12.8): 1 takes M0 offline (R358). -/
def bufCtrlM0Off : Fld :=
  ⟨0x02_0060_0000 + 0x0000, 1, 1, .rw, 0⟩
/-- BUF_CTRL.EN [0], RW (R364, Table 12.8): 1 trains and opens both interfaces (R361). -/
def bufCtrlEn : Fld :=
  ⟨0x02_0060_0000 + 0x0000, 0, 1, .rw, 0⟩
/-- BUF_STAT.INIT_BUSY [31], RO (R364, Table 12.8): Initialisation running (R360). -/
def bufStatInitBusy : Fld :=
  ⟨0x02_0060_0000 + 0x0004, 31, 1, .ro, 0⟩
/-- BUF_STAT.RANGE_BUSY [30], RO (R364, Table 12.8): Range operation running (R362). -/
def bufStatRangeBusy : Fld :=
  ⟨0x02_0060_0000 + 0x0004, 30, 1, .ro, 0⟩
/-- BUF_STAT.PPR_BUSY [29], RO (R364, Table 12.8): Repair running. -/
def bufStatPprBusy : Fld :=
  ⟨0x02_0060_0000 + 0x0004, 29, 1, .ro, 0⟩
/-- BUF_STAT.READY [28], RO (R364, Table 12.8): Window initialised. -/
def bufStatReady : Fld :=
  ⟨0x02_0060_0000 + 0x0004, 28, 1, .ro, 0⟩
/-- BUF_STAT.M1_FAILED [23], RO (R364, Table 12.8): R357. -/
def bufStatM1Failed : Fld :=
  ⟨0x02_0060_0000 + 0x0004, 23, 1, .ro, 0⟩
/-- BUF_STAT.M0_FAILED [22], RO (R364, Table 12.8): R357. -/
def bufStatM0Failed : Fld :=
  ⟨0x02_0060_0000 + 0x0004, 22, 1, .ro, 0⟩
/-- BUF_STAT.M1_OFFLINE [21], RO (R364, Table 12.8): R358. -/
def bufStatM1Offline : Fld :=
  ⟨0x02_0060_0000 + 0x0004, 21, 1, .ro, 0⟩
/-- BUF_STAT.M0_OFFLINE [20], RO (R364, Table 12.8): R358. -/
def bufStatM0Offline : Fld :=
  ⟨0x02_0060_0000 + 0x0004, 20, 1, .ro, 0⟩
/-- BUF_STAT.RGNERR [3], W1C (R364, Table 12.8): A region register was disabled (R348). -/
def bufStatRgnerr : Fld :=
  ⟨0x02_0060_0000 + 0x0004, 3, 1, .w1c, 0⟩
/-- BUF_STAT.SEALERR [2], W1C (R364, Table 12.8): A seal mismatch occurred. -/
def bufStatSealerr : Fld :=
  ⟨0x02_0060_0000 + 0x0004, 2, 1, .w1c, 0⟩
/-- BUF_STAT.UE [1], W1C (R364, Table 12.8): An uncorrectable read occurred. -/
def bufStatUe : Fld :=
  ⟨0x02_0060_0000 + 0x0004, 1, 1, .w1c, 0⟩
/-- BUF_STAT.CE [0], W1C (R364, Table 12.8): A correctable error occurred. -/
def bufStatCe : Fld :=
  ⟨0x02_0060_0000 + 0x0004, 0, 1, .w1c, 0⟩
/-- BUF_CFG.SPEED [7:4], RO (R364, Table 12.8): Pin rate, 4 Gb/s units: 0x5 to 0x8. Reset: option. -/
def bufCfgSpeed : Fld :=
  ⟨0x02_0060_0000 + 0x0008, 4, 4, .ro, 0x5⟩
/-- BUF_CFG.DENS [1:0], RO (R364, Table 12.8): 1 24 Gb, 2 32 Gb; other values reserved. Reset: option. -/
def bufCfgDens : Fld :=
  ⟨0x02_0060_0000 + 0x0008, 0, 2, .ro, 0x1⟩
/-- BUF_INIT.GO [31], WO (R364, Table 12.8): 1 starts initialisation (R360). -/
def bufInitGo : Fld :=
  ⟨0x02_0060_0000 + 0x000C, 31, 1, .wo, 0⟩
/-- BUF_SEALT.ADDR [39:20], RW (R364, Table 12.8): Seal table base in SRAM, 1 MiB aligned. -/
def bufSealtAddr : Fld :=
  ⟨0x02_0060_0000 + 0x0010, 20, 20, .rw, 0⟩
/-- BUF_MIR.SIZE [47:32], RW (R364, Table 12.8): Size, 64 KiB units; 0 disables. -/
def bufMirSize (n : Nat) : Fld :=
  ⟨0x02_0060_0000 + 0x0020 + 8 * n, 32, 16, .rw, 0⟩
/-- BUF_MIR.BASE [15:0], RW (R364, Table 12.8): Window offset, 64 KiB units. -/
def bufMirBase (n : Nat) : Fld :=
  ⟨0x02_0060_0000 + 0x0020 + 8 * n, 0, 16, .rw, 0⟩
/-- BUF_VRGN.SIZE [47:32], RW (R364, Table 12.8): Size, 64 KiB units; 0 disables. -/
def bufVrgnSize (n : Nat) : Fld :=
  ⟨0x02_0060_0000 + 0x0040 + 8 * n, 32, 16, .rw, 0⟩
/-- BUF_VRGN.BASE [15:0], RW (R364, Table 12.8): Window offset, 64 KiB units. -/
def bufVrgnBase (n : Nat) : Fld :=
  ⟨0x02_0060_0000 + 0x0040 + 8 * n, 0, 16, .rw, 0⟩
/-- BUF_TCMD.GO [31], WO (R364, Table 12.9): 1 runs OP on TILE; ignored while BUF_TSTAT.BUSY is 1. -/
def bufTcmdGo : Fld :=
  ⟨0x02_0060_0000 + 0x0060, 31, 1, .wo, 0⟩
/-- BUF_TCMD.OP [30:28], RW (R364, Table 12.9): Table 12.5. -/
def bufTcmdOp : Fld :=
  ⟨0x02_0060_0000 + 0x0060, 28, 3, .rw, 0⟩
/-- BUF_TCMD.TILE [16:0], RW (R364, Table 12.9): Tile number. -/
def bufTcmdTile : Fld :=
  ⟨0x02_0060_0000 + 0x0060, 0, 17, .rw, 0⟩
/-- BUF_TSTAT.BUSY [31], RO (R364, Table 12.9): Command running. -/
def bufTstatBusy : Fld :=
  ⟨0x02_0060_0000 + 0x0064, 31, 1, .ro, 0⟩
/-- BUF_TSTAT.RESULT [30:28], RO (R364, Table 12.9): 0 none, 1 done, 2 wrong state, 3 in use, 4 seal mismatch, 5 tile out of range. -/
def bufTstatResult : Fld :=
  ⟨0x02_0060_0000 + 0x0064, 28, 3, .ro, 0⟩
/-- BUF_CE.COUNT [63:0], RO (R364, Table 12.9): Correctable errors, saturating. -/
def bufCeCount : Fld :=
  ⟨0x02_0060_0000 + 0x0070, 0, 64, .ro, 0⟩
/-- BUF_CEADDR.REQ [63:56], RO (R364, Table 12.9): Requester, coded as in FLT. -/
def bufCeaddrReq : Fld :=
  ⟨0x02_0060_0000 + 0x0078, 56, 8, .ro, 0⟩
/-- BUF_CEADDR.ADDR [39:3], RO (R364, Table 12.9): Word address of the last correction. -/
def bufCeaddrAddr : Fld :=
  ⟨0x02_0060_0000 + 0x0078, 3, 37, .ro, 0⟩
/-- BUF_UE.COUNT [63:0], RO (R364, Table 12.9): Uncorrectable reads, saturating. -/
def bufUeCount : Fld :=
  ⟨0x02_0060_0000 + 0x0080, 0, 64, .ro, 0⟩
/-- BUF_UEADDR.REQ [63:56], RO (R364, Table 12.9): Requester. -/
def bufUeaddrReq : Fld :=
  ⟨0x02_0060_0000 + 0x0088, 56, 8, .ro, 0⟩
/-- BUF_UEADDR.UNWR [55], RO (R364, Table 12.9): The word held the unwritten pattern (R347). -/
def bufUeaddrUnwr : Fld :=
  ⟨0x02_0060_0000 + 0x0088, 55, 1, .ro, 0⟩
/-- BUF_UEADDR.ADDR [39:3], RO (R364, Table 12.9): Word address of the last uncorrectable read. -/
def bufUeaddrAddr : Fld :=
  ⟨0x02_0060_0000 + 0x0088, 3, 37, .ro, 0⟩
/-- BUF_CRC.M1 [31:16], RC (R364, Table 12.9): Accesses to M1 repeated for CRC, saturating. -/
def bufCrcM1 : Fld :=
  ⟨0x02_0060_0000 + 0x0090, 16, 16, .rc, 0⟩
/-- BUF_CRC.M0 [15:0], RC (R364, Table 12.9): As M1, for M0. -/
def bufCrcM0 : Fld :=
  ⟨0x02_0060_0000 + 0x0090, 0, 16, .rc, 0⟩
/-- BUF_RBASE.ADDR [39:6], RW (R364, Table 12.9): First line of the range. -/
def bufRbaseAddr : Fld :=
  ⟨0x02_0060_0000 + 0x00A0, 6, 34, .rw, 0⟩
/-- BUF_RLEN.LINES [31:0], RW (R364, Table 12.9): Lines in the range; 0 runs nothing. -/
def bufRlenLines : Fld :=
  ⟨0x02_0060_0000 + 0x00A8, 0, 32, .rw, 0⟩
/-- BUF_RCMD.GO [31], WO (R364, Table 12.9): 1 starts the operation (R362). -/
def bufRcmdGo : Fld :=
  ⟨0x02_0060_0000 + 0x00AC, 31, 1, .wo, 0⟩
/-- BUF_RCMD.OP [1:0], RW (R364, Table 12.9): 0 VCLR, 1 POISON, 2 SCRUB; 3 reserved and ignored. -/
def bufRcmdOp : Fld :=
  ⟨0x02_0060_0000 + 0x00AC, 0, 2, .rw, 0⟩
/-- BUF_PPR.GO [31], WO (R364, Table 12.9): 1 starts the repair (R358). -/
def bufPprGo : Fld :=
  ⟨0x02_0060_0000 + 0x00C0, 31, 1, .wo, 0⟩
/-- BUF_PPR.HARD [30], RW (R364, Table 12.9): 1 hard repair, 0 soft. -/
def bufPprHard : Fld :=
  ⟨0x02_0060_0000 + 0x00C0, 30, 1, .rw, 0⟩
/-- BUF_PPR.DEV [29], RW (R364, Table 12.9): 0 M0, 1 M1. -/
def bufPprDev : Fld :=
  ⟨0x02_0060_0000 + 0x00C0, 29, 1, .rw, 0⟩
/-- BUF_PPR.LOC [23:0], RW (R364, Table 12.9): Channel, bank and row of the failing row, packed as the device's repair entry takes them. -/
def bufPprLoc : Fld :=
  ⟨0x02_0060_0000 + 0x00C0, 0, 24, .rw, 0⟩
/-- BUF_PPRSTAT.RESULT [31:30], RO (R364, Table 12.9): 0 none, 1 done, 2 refused, 3 device reported failure. -/
def bufPprstatResult : Fld :=
  ⟨0x02_0060_0000 + 0x00C4, 30, 2, .ro, 0⟩
/-- BUF_REPAIR.SRAM [31:16], RO (R364, Table 12.9): SRAM spares in use. Reset: option. -/
def bufRepairSram : Fld :=
  ⟨0x02_0060_0000 + 0x00D0, 16, 16, .ro, 0x0⟩
/-- BUF_REPAIR.EMBER [15:8], RO (R364, Table 12.9): Ember store spares in use. Reset: option. -/
def bufRepairEmber : Fld :=
  ⟨0x02_0060_0000 + 0x00D0, 8, 8, .ro, 0x0⟩
/-- BUF_REPAIR.VALID [7:0], RO (R364, Table 12.9): Valid-bit array spares in use. Reset: option. -/
def bufRepairValid : Fld :=
  ⟨0x02_0060_0000 + 0x00D0, 0, 8, .ro, 0x0⟩
/-- CCH_CTRL.CCLR [1], WO (R382, Table 13.6): 1 zeroes CCH_HITc, CCH_MISSc and CCH_EVB. -/
def cchCtrlCclr : Fld :=
  ⟨0x02_0070_0000 + 0x0000, 1, 1, .wo, 0⟩
/-- CCH_CTRL.EN [0], RW (R382, Table 13.6): 1 enables allocation. While 0, every class acts as with mask zero; lookups still run (R368). -/
def cchCtrlEn : Fld :=
  ⟨0x02_0070_0000 + 0x0000, 0, 1, .rw, 0⟩
/-- CCH_STAT.UE [2], W1C (R382, Table 13.6): An error of reason 0x0A12 occurred. -/
def cchStatUe : Fld :=
  ⟨0x02_0070_0000 + 0x0004, 2, 1, .w1c, 0⟩
/-- CCH_STAT.UEC [1], W1C (R382, Table 13.6): An error of reason 0x0A11 occurred. -/
def cchStatUec : Fld :=
  ⟨0x02_0070_0000 + 0x0004, 1, 1, .w1c, 0⟩
/-- CCH_STAT.CE [0], W1C (R382, Table 13.6): An error of reason 0x0A10 occurred. -/
def cchStatCe : Fld :=
  ⟨0x02_0070_0000 + 0x0004, 0, 1, .w1c, 0⟩
/-- CCH_WAYMASK.MASK [15:0], RW (R382, Table 13.6): Bit w: class c may allocate into way w (R369). -/
def cchWaymaskMask (c : Nat) : Fld :=
  ⟨0x02_0070_0000 + 0x0010 + 4 * c, 0, 16, .rw, 0xFFFF⟩
/-- CCH_LOCK.LOCK [15:0], RW (R382, Table 13.6): Bit w: way w locked (R372). -/
def cchLockLock : Fld :=
  ⟨0x02_0070_0000 + 0x0030, 0, 16, .rw, 0⟩
/-- CCH_RBASE.ADDR [39:6], RW (R382, Table 13.6): First line of the range. -/
def cchRbaseAddr : Fld :=
  ⟨0x02_0070_0000 + 0x0080, 6, 34, .rw, 0⟩
/-- CCH_RLEN.LINES [31:0], RW (R382, Table 13.6): Lines in the range; 0 runs nothing unless ALL is 1. -/
def cchRlenLines : Fld :=
  ⟨0x02_0070_0000 + 0x0088, 0, 32, .rw, 0⟩
/-- CCH_RCMD.GO [31], WO (R382, Table 13.6): 1 starts the operation (R375). -/
def cchRcmdGo : Fld :=
  ⟨0x02_0070_0000 + 0x008C, 31, 1, .wo, 0⟩
/-- CCH_RCMD.ALL [8], RW (R382, Table 13.6): 1 acts on every line; ignored for LOAD. -/
def cchRcmdAll : Fld :=
  ⟨0x02_0070_0000 + 0x008C, 8, 1, .rw, 0⟩
/-- CCH_RCMD.CLASS [6:4], RW (R382, Table 13.6): Owner class for LOAD. -/
def cchRcmdClass : Fld :=
  ⟨0x02_0070_0000 + 0x008C, 4, 3, .rw, 0⟩
/-- CCH_RCMD.OP [1:0], RW (R382, Table 13.6): 0 CLEAN, 1 INVALIDATE, 2 CLEAN_INV, 3 LOAD. -/
def cchRcmdOp : Fld :=
  ⟨0x02_0070_0000 + 0x008C, 0, 2, .rw, 0⟩
/-- CCH_RANGE_STAT.BUSY [31], RO (R382, Table 13.6): Operation running (R376). -/
def cchRangeStatBusy : Fld :=
  ⟨0x02_0070_0000 + 0x0090, 31, 1, .ro, 0⟩
/-- CCH_RANGE_STAT.SKIP [23:8], RO (R382, Table 13.6): Lines not loaded by the last LOAD, saturating. -/
def cchRangeStatSkip : Fld :=
  ⟨0x02_0070_0000 + 0x0090, 8, 16, .ro, 0⟩
/-- CCH_RANGE_STAT.ERR [1], W1C (R382, Table 13.6): GO written while BUSY. -/
def cchRangeStatErr : Fld :=
  ⟨0x02_0070_0000 + 0x0090, 1, 1, .w1c, 0⟩
/-- CCH_RANGE_STAT.DONE [0], W1C (R382, Table 13.6): An operation ended. -/
def cchRangeStatDone : Fld :=
  ⟨0x02_0070_0000 + 0x0090, 0, 1, .w1c, 0⟩
/-- CCH_RAT.EN [63], RW (R382, Table 13.6): Entry enabled. -/
def cchRatEn (n : Nat) : Fld :=
  ⟨0x02_0070_0000 + 0x0100 + 8 * n, 63, 1, .rw, 0⟩
/-- CCH_RAT.ATTR [61:60], RW (R382, Table 13.6): Table 13.3. -/
def cchRatAttr (n : Nat) : Fld :=
  ⟨0x02_0070_0000 + 0x0100 + 8 * n, 60, 2, .rw, 0⟩
/-- CCH_RAT.SIZE [48:32], RW (R382, Table 13.6): Size, 64 KiB units; 0 disables the entry. -/
def cchRatSize (n : Nat) : Fld :=
  ⟨0x02_0070_0000 + 0x0100 + 8 * n, 32, 17, .rw, 0⟩
/-- CCH_RAT.BASE [16:0], RW (R382, Table 13.6): Window offset, 64 KiB units. -/
def cchRatBase (n : Nat) : Fld :=
  ⟨0x02_0070_0000 + 0x0100 + 8 * n, 0, 17, .rw, 0⟩
/-- CCH_ERR.UE [63:32], RO (R382, Table 13.6): Errors of reasons 0x0A11 and 0x0A12, saturating. -/
def cchErrUe : Fld :=
  ⟨0x02_0070_0000 + 0x0180, 32, 32, .ro, 0⟩
/-- CCH_ERR.CE [31:0], RO (R382, Table 13.6): Corrections, saturating. -/
def cchErrCe : Fld :=
  ⟨0x02_0070_0000 + 0x0180, 0, 32, .ro, 0⟩
/-- CCH_ERRADDR.REQ [63:56], RO (R382, Table 13.6): Requester, coded as in FLT. -/
def cchErraddrReq : Fld :=
  ⟨0x02_0070_0000 + 0x0188, 56, 8, .ro, 0⟩
/-- CCH_ERRADDR.ADDR [39:6], RO (R382, Table 13.6): Line of the last error. -/
def cchErraddrAddr : Fld :=
  ⟨0x02_0070_0000 + 0x0188, 6, 34, .ro, 0⟩
/-- CCH_HIT.COUNT [63:0], RO (R382, Table 13.6): Hits of class c, saturating. -/
def cchHitCount (c : Nat) : Fld :=
  ⟨0x02_0070_0000 + 0x0200 + 16 * c, 0, 64, .ro, 0⟩
/-- CCH_MISS.COUNT [63:0], RO (R382, Table 13.6): Misses of class c, saturating. -/
def cchMissCount (c : Nat) : Fld :=
  ⟨0x02_0070_0000 + 0x0208 + 16 * c, 0, 64, .ro, 0⟩
/-- CCH_EVB.HITS [63:32], RO (R382, Table 13.6): Accesses served from or reclaimed from the eviction buffer. -/
def cchEvbHits : Fld :=
  ⟨0x02_0070_0000 + 0x0300, 32, 32, .ro, 0⟩
/-- CCH_EVB.STALLS [31:0], RO (R382, Table 13.6): Accesses that waited for a free entry (R374). -/
def cchEvbStalls : Fld :=
  ⟨0x02_0070_0000 + 0x0300, 0, 32, .ro, 0⟩
/-- PERF_CTRL.PRIV [3:1], RW (R383, Table 13.7): Bit 0 user, bit 1 supervisor, bit 2 machine: levels counted (R378). -/
def perfCtrlPriv : Fld :=
  ⟨0x02_0080_0000 + 0x0000, 1, 3, .rw, 0b111⟩
/-- PERF_CTRL.CLR [0], WO (R383, Table 13.7): 1 zeroes every live counter (R379). -/
def perfCtrlClr : Fld :=
  ⟨0x02_0080_0000 + 0x0000, 0, 1, .wo, 0⟩
/-- PERF_SNAP.GO [31], WO (R383, Table 13.7): 1 takes a snapshot of every core. -/
def perfSnapGo : Fld :=
  ⟨0x02_0080_0000 + 0x0004, 31, 1, .wo, 0⟩
/-- PERF_SNAP.SEQ [30:0], RO (R383, Table 13.7): Snapshots taken, free-running. -/
def perfSnapSeq : Fld :=
  ⟨0x02_0080_0000 + 0x0004, 0, 31, .ro, 0⟩
/-- PERF_CYC.CYC [63:0], RO (R383, Table 13.7): Snapshot of cycles counted (R378). -/
def perfCycCyc (c : Nat) : Fld :=
  ⟨0x02_0080_0000 + 0x0100 + 0x80 * c, 0, 64, .ro, 0⟩
/-- PERF_DUAL.DUAL [63:0], RO (R383, Table 13.7): Snapshot of DUAL cycles. -/
def perfDualDual (c : Nat) : Fld :=
  ⟨0x02_0080_0000 + 0x0100 + 0x80 * c + 0x08, 0, 64, .ro, 0⟩
/-- PERF_SINGLE.SINGLE [63:0], RO (R383, Table 13.7): Snapshot of SINGLE cycles. -/
def perfSingleSingle (c : Nat) : Fld :=
  ⟨0x02_0080_0000 + 0x0100 + 0x80 * c + 0x10, 0, 64, .ro, 0⟩
/-- PERF_SHORT.SHORT [63:0], RO (R383, Table 13.7): Snapshot of SINGLE cycles with no second instruction at issue. -/
def perfShortShort (c : Nat) : Fld :=
  ⟨0x02_0080_0000 + 0x0100 + 0x80 * c + 0x18, 0, 64, .ro, 0⟩
/-- PERF_EMPTY.EMPTY [63:0], RO (R383, Table 13.7): Snapshot of EMPTY cycles. -/
def perfEmptyEmpty (c : Nat) : Fld :=
  ⟨0x02_0080_0000 + 0x0100 + 0x80 * c + 0x20, 0, 64, .ro, 0⟩
/-- PERF_LWCCH.LWCCH [63:0], RO (R383, Table 13.7): Snapshot of LWCCH cycles. -/
def perfLwcchLwcch (c : Nat) : Fld :=
  ⟨0x02_0080_0000 + 0x0100 + 0x80 * c + 0x28, 0, 64, .ro, 0⟩
/-- PERF_LWFAR.LWFAR [63:0], RO (R383, Table 13.7): Snapshot of LWFAR cycles. -/
def perfLwfarLwfar (c : Nat) : Fld :=
  ⟨0x02_0080_0000 + 0x0100 + 0x80 * c + 0x30, 0, 64, .ro, 0⟩
/-- PERF_DEPWAIT.DEPWAIT [63:0], RO (R383, Table 13.7): Snapshot of DEPWAIT cycles. -/
def perfDepwaitDepwait (c : Nat) : Fld :=
  ⟨0x02_0080_0000 + 0x0100 + 0x80 * c + 0x38, 0, 64, .ro, 0⟩
/-- PERF_BLOCK.BLOCK [63:0], RO (R383, Table 13.7): Snapshot of BLOCK cycles. -/
def perfBlockBlock (c : Nat) : Fld :=
  ⟨0x02_0080_0000 + 0x0100 + 0x80 * c + 0x40, 0, 64, .ro, 0⟩
/-- PERF_RETIRED.RETIRED [63:0], RO (R383, Table 13.7): Snapshot of instructions retired. -/
def perfRetiredRetired (c : Nat) : Fld :=
  ⟨0x02_0080_0000 + 0x0100 + 0x80 * c + 0x48, 0, 64, .ro, 0⟩
/-- PERF_SQUASHED.SQUASHED [63:0], RO (R383, Table 13.7): Snapshot of issued instructions cancelled. -/
def perfSquashedSquashed (c : Nat) : Fld :=
  ⟨0x02_0080_0000 + 0x0100 + 0x80 * c + 0x50, 0, 64, .ro, 0⟩
/-- PERF_REDIRECT.REDIRECT [63:0], RO (R383, Table 13.7): Snapshot of redirects. -/
def perfRedirectRedirect (c : Nat) : Fld :=
  ⟨0x02_0080_0000 + 0x0100 + 0x80 * c + 0x58, 0, 64, .ro, 0⟩
/-- PERF_SMPCTL.EN [31], RW (R383, Table 13.7): Sampling enabled (R381). -/
def perfSmpctlEn (c : Nat) : Fld :=
  ⟨0x02_0080_0000 + 0x1000 + 0x100 * c, 31, 1, .rw, 0⟩
/-- PERF_SMPCTL.TRIG [28:27], RW (R383, Table 13.7): Trigger event: 0 instructions issued, 1 shared-cache misses, 2 redirects, 3 load-wait cycles (R381). -/
def perfSmpctlTrig (c : Nat) : Fld :=
  ⟨0x02_0080_0000 + 0x1000 + 0x100 * c, 27, 2, .rw, 0⟩
/-- PERF_SMPCTL.PRIV [26:24], RW (R383, Table 13.7): Levels sampled, coded as PERF_CTRL.PRIV. -/
def perfSmpctlPriv (c : Nat) : Fld :=
  ⟨0x02_0080_0000 + 0x1000 + 0x100 * c, 24, 3, .rw, 0b110⟩
/-- PERF_SMPCTL.JIT [20:16], RW (R383, Table 13.7): Random part, 2^JIT − 1 at most; above 0x10 acts as 0x10. -/
def perfSmpctlJit (c : Nat) : Fld :=
  ⟨0x02_0080_0000 + 0x1000 + 0x100 * c, 16, 5, .rw, 0x08⟩
/-- PERF_SMPCTL.BASE [15:0], RW (R383, Table 13.7): Fixed part of the interval, in trigger events. -/
def perfSmpctlBase (c : Nat) : Fld :=
  ⟨0x02_0080_0000 + 0x1000 + 0x100 * c, 0, 16, .rw, 0x03E8⟩
/-- PERF_SMPSEED.SEED [63:0], RW (R383, Table 13.7): Generator seed, loaded when EN is set; 0 acts as 1. -/
def perfSmpseedSeed (c : Nat) : Fld :=
  ⟨0x02_0080_0000 + 0x1000 + 0x100 * c + 0x08, 0, 64, .rw, 0x0000_0000_0000_0001⟩
/-- PERF_SBUF.ADDR [39:12], RW (R383, Table 13.7): Record ring base in SRAM, 4 KiB aligned; writes ignored while EN is 1. -/
def perfSbufAddr (c : Nat) : Fld :=
  ⟨0x02_0080_0000 + 0x1000 + 0x100 * c + 0x10, 12, 28, .rw, 0⟩
/-- PERF_SBUF.LOG2 [3:0], RW (R383, Table 13.7): Records in the ring, log2, 7 to 15; other values act as 7. -/
def perfSbufLog2 (c : Nat) : Fld :=
  ⟨0x02_0080_0000 + 0x1000 + 0x100 * c + 0x10, 0, 4, .rw, 0x7⟩
/-- PERF_SWP.COUNT [31:0], RO (R383, Table 13.7): Records written, free-running. -/
def perfSwpCount (c : Nat) : Fld :=
  ⟨0x02_0080_0000 + 0x1000 + 0x100 * c + 0x18, 0, 32, .ro, 0⟩
/-- PERF_SRP.COUNT [31:0], RW (R383, Table 13.7): Records consumed by firmware, free-running. -/
def perfSrpCount (c : Nat) : Fld :=
  ⟨0x02_0080_0000 + 0x1000 + 0x100 * c + 0x1C, 0, 32, .rw, 0⟩
/-- PERF_SSTAT.BUSY [31:16], RC (R383, Table 13.7): Triggers that found a marked instruction still in flight, saturating. -/
def perfSstatBusy (c : Nat) : Fld :=
  ⟨0x02_0080_0000 + 0x1000 + 0x100 * c + 0x20, 16, 16, .rc, 0⟩
/-- PERF_SSTAT.DROP [15:0], RC (R383, Table 13.7): Records dropped to a full ring, saturating. -/
def perfSstatDrop (c : Nat) : Fld :=
  ⟨0x02_0080_0000 + 0x1000 + 0x100 * c + 0x20, 0, 16, .rc, 0⟩
/-- CMP_CTRL.EN [0], RW (R405, Table 14.6): 1 lets engines take jobs. -/
def cmpCtrlEn : Fld :=
  ⟨0x02_0090_0000 + 0x0000, 0, 1, .rw, 0⟩
/-- CMP_CFG.LAZY [16], RW (R405, Table 14.6): R395. -/
def cmpCfgLazy : Fld :=
  ⟨0x02_0090_0000 + 0x0004, 16, 1, .rw, 1⟩
/-- CMP_CFG.DEPTH [8:0], RW (R405, Table 14.6): Chain depth; 0 acts as 1, above 0x100 acts as 0x100; read at job start. -/
def cmpCfgDepth : Fld :=
  ⟨0x02_0090_0000 + 0x0004, 0, 9, .rw, 0x010⟩
/-- CMP_STAT.FAILED [27:24], RO (R405, Table 14.6): Bit n: engine Zn out of service (R398). -/
def cmpStatFailed : Fld :=
  ⟨0x02_0090_0000 + 0x0008, 24, 4, .ro, 0⟩
/-- CMP_STAT.BUSY [19:16], RO (R405, Table 14.6): Bit n: engine Zn running a job. -/
def cmpStatBusy : Fld :=
  ⟨0x02_0090_0000 + 0x0008, 16, 4, .ro, 0⟩
/-- CMP_STAT.CTXFREE [6:0], RO (R405, Table 14.6): Contexts free, 0 to 64. -/
def cmpStatCtxfree : Fld :=
  ⟨0x02_0090_0000 + 0x0008, 0, 7, .ro, 0x40⟩
/-- CMP_JRING.ADDR [39:6], RW (R405, Table 14.6): Descriptor ring base in SRAM, 64-byte aligned; writes ignored while EN is 1. -/
def cmpJringAddr : Fld :=
  ⟨0x02_0090_0000 + 0x0010, 6, 34, .rw, 0⟩
/-- CMP_JRING.LOG2 [3:0], RW (R405, Table 14.6): Descriptors in the ring, log2, 4 to 12; other values act as 8. -/
def cmpJringLog2 : Fld :=
  ⟨0x02_0090_0000 + 0x0010, 0, 4, .rw, 0x8⟩
/-- CMP_JPI.COUNT [31:0], RW (R405, Table 14.6): Descriptors written by firmware, free-running. -/
def cmpJpiCount : Fld :=
  ⟨0x02_0090_0000 + 0x0018, 0, 32, .rw, 0⟩
/-- CMP_JDONE.COUNT [31:0], RO (R405, Table 14.6): Jobs ended with results written, free-running. -/
def cmpJdoneCount : Fld :=
  ⟨0x02_0090_0000 + 0x001C, 0, 32, .ro, 0⟩
/-- CMP_CTXBASE.ADDR [39:21], RW (R405, Table 14.6): Base of the 64 contexts of 2 MiB in a class W region, 2 MiB aligned; writes ignored while EN is 1. -/
def cmpCtxbaseAddr : Fld :=
  ⟨0x02_0090_0000 + 0x0020, 21, 19, .rw, 0⟩
/-- CMP_REASON.CODE [15:0], RO (R405, Table 14.6): Last reason (Table 14.5). -/
def cmpReasonCode : Fld :=
  ⟨0x02_0090_0000 + 0x0028, 0, 16, .ro, 0⟩
/-- CMP_IN.BYTES [63:0], RO (R405, Table 14.6): Input bytes consumed by engine Zn, saturating. -/
def cmpInBytes (n : Nat) : Fld :=
  ⟨0x02_0090_0000 + 0x0100 + 16 * n, 0, 64, .ro, 0⟩
/-- CMP_OUT.BYTES [63:0], RO (R405, Table 14.6): Output bytes produced by engine Zn, saturating. -/
def cmpOutBytes (n : Nat) : Fld :=
  ⟨0x02_0090_0000 + 0x0108 + 16 * n, 0, 64, .ro, 0⟩

/-- Every register of the block, by address (R18): what is not listed reads zero and ignores writes. -/
def bufRegs : List Reg :=
  [⟨0x02_0060_0000 + 0x0000, 32, [bufCtrlM1Off, bufCtrlM0Off, bufCtrlEn]⟩,
   ⟨0x02_0060_0000 + 0x0004, 32, [bufStatInitBusy, bufStatRangeBusy, bufStatPprBusy, bufStatReady, bufStatM1Failed, bufStatM0Failed, bufStatM1Offline, bufStatM0Offline, bufStatRgnerr, bufStatSealerr, bufStatUe, bufStatCe]⟩,
   ⟨0x02_0060_0000 + 0x0008, 32, [bufCfgSpeed, bufCfgDens]⟩,
   ⟨0x02_0060_0000 + 0x000C, 32, [bufInitGo]⟩,
   ⟨0x02_0060_0000 + 0x0010, 64, [bufSealtAddr]⟩,
   ⟨0x02_0060_0000 + 0x0060, 32, [bufTcmdGo, bufTcmdOp, bufTcmdTile]⟩,
   ⟨0x02_0060_0000 + 0x0064, 32, [bufTstatBusy, bufTstatResult]⟩,
   ⟨0x02_0060_0000 + 0x0070, 64, [bufCeCount]⟩,
   ⟨0x02_0060_0000 + 0x0078, 64, [bufCeaddrReq, bufCeaddrAddr]⟩,
   ⟨0x02_0060_0000 + 0x0080, 64, [bufUeCount]⟩,
   ⟨0x02_0060_0000 + 0x0088, 64, [bufUeaddrReq, bufUeaddrUnwr, bufUeaddrAddr]⟩,
   ⟨0x02_0060_0000 + 0x0090, 32, [bufCrcM1, bufCrcM0]⟩,
   ⟨0x02_0060_0000 + 0x00A0, 64, [bufRbaseAddr]⟩,
   ⟨0x02_0060_0000 + 0x00A8, 32, [bufRlenLines]⟩,
   ⟨0x02_0060_0000 + 0x00AC, 32, [bufRcmdGo, bufRcmdOp]⟩,
   ⟨0x02_0060_0000 + 0x00C0, 32, [bufPprGo, bufPprHard, bufPprDev, bufPprLoc]⟩,
   ⟨0x02_0060_0000 + 0x00C4, 32, [bufPprstatResult]⟩,
   ⟨0x02_0060_0000 + 0x00D0, 32, [bufRepairSram, bufRepairEmber, bufRepairValid]⟩] ++
  (List.range 4).map (fun n => ⟨0x02_0060_0000 + 0x0020 + 8 * n, 64, [bufMirSize n, bufMirBase n]⟩) ++
  (List.range 4).map (fun n => ⟨0x02_0060_0000 + 0x0040 + 8 * n, 64, [bufVrgnSize n, bufVrgnBase n]⟩)

/-- Every register of the block, by address (R18): what is not listed reads zero and ignores writes. -/
def cchRegs : List Reg :=
  [⟨0x02_0070_0000 + 0x0000, 32, [cchCtrlCclr, cchCtrlEn]⟩,
   ⟨0x02_0070_0000 + 0x0004, 32, [cchStatUe, cchStatUec, cchStatCe]⟩,
   ⟨0x02_0070_0000 + 0x0030, 32, [cchLockLock]⟩,
   ⟨0x02_0070_0000 + 0x0080, 64, [cchRbaseAddr]⟩,
   ⟨0x02_0070_0000 + 0x0088, 32, [cchRlenLines]⟩,
   ⟨0x02_0070_0000 + 0x008C, 32, [cchRcmdGo, cchRcmdAll, cchRcmdClass, cchRcmdOp]⟩,
   ⟨0x02_0070_0000 + 0x0090, 32, [cchRangeStatBusy, cchRangeStatSkip, cchRangeStatErr, cchRangeStatDone]⟩,
   ⟨0x02_0070_0000 + 0x0180, 64, [cchErrUe, cchErrCe]⟩,
   ⟨0x02_0070_0000 + 0x0188, 64, [cchErraddrReq, cchErraddrAddr]⟩,
   ⟨0x02_0070_0000 + 0x0300, 64, [cchEvbHits, cchEvbStalls]⟩] ++
  (List.range 8).map (fun c => ⟨0x02_0070_0000 + 0x0010 + 4 * c, 32, [cchWaymaskMask c]⟩) ++
  (List.range 16).map (fun n => ⟨0x02_0070_0000 + 0x0100 + 8 * n, 64, [cchRatEn n, cchRatAttr n, cchRatSize n, cchRatBase n]⟩) ++
  (List.range 8).map (fun c => ⟨0x02_0070_0000 + 0x0200 + 16 * c, 64, [cchHitCount c]⟩) ++
  (List.range 8).map (fun c => ⟨0x02_0070_0000 + 0x0208 + 16 * c, 64, [cchMissCount c]⟩)

/-- Every register of the block, by address (R18): what is not listed reads zero and ignores writes. -/
def perfRegs : List Reg :=
  [⟨0x02_0080_0000 + 0x0000, 32, [perfCtrlPriv, perfCtrlClr]⟩,
   ⟨0x02_0080_0000 + 0x0004, 32, [perfSnapGo, perfSnapSeq]⟩] ++
  (List.range 6).map (fun c => ⟨0x02_0080_0000 + 0x0100 + 0x80 * c, 64, [perfCycCyc c]⟩) ++
  (List.range 6).map (fun c => ⟨0x02_0080_0000 + 0x0100 + 0x80 * c + 0x08, 64, [perfDualDual c]⟩) ++
  (List.range 6).map (fun c => ⟨0x02_0080_0000 + 0x0100 + 0x80 * c + 0x10, 64, [perfSingleSingle c]⟩) ++
  (List.range 6).map (fun c => ⟨0x02_0080_0000 + 0x0100 + 0x80 * c + 0x18, 64, [perfShortShort c]⟩) ++
  (List.range 6).map (fun c => ⟨0x02_0080_0000 + 0x0100 + 0x80 * c + 0x20, 64, [perfEmptyEmpty c]⟩) ++
  (List.range 6).map (fun c => ⟨0x02_0080_0000 + 0x0100 + 0x80 * c + 0x28, 64, [perfLwcchLwcch c]⟩) ++
  (List.range 6).map (fun c => ⟨0x02_0080_0000 + 0x0100 + 0x80 * c + 0x30, 64, [perfLwfarLwfar c]⟩) ++
  (List.range 6).map (fun c => ⟨0x02_0080_0000 + 0x0100 + 0x80 * c + 0x38, 64, [perfDepwaitDepwait c]⟩) ++
  (List.range 6).map (fun c => ⟨0x02_0080_0000 + 0x0100 + 0x80 * c + 0x40, 64, [perfBlockBlock c]⟩) ++
  (List.range 6).map (fun c => ⟨0x02_0080_0000 + 0x0100 + 0x80 * c + 0x48, 64, [perfRetiredRetired c]⟩) ++
  (List.range 6).map (fun c => ⟨0x02_0080_0000 + 0x0100 + 0x80 * c + 0x50, 64, [perfSquashedSquashed c]⟩) ++
  (List.range 6).map (fun c => ⟨0x02_0080_0000 + 0x0100 + 0x80 * c + 0x58, 64, [perfRedirectRedirect c]⟩) ++
  (List.range 6).map (fun c => ⟨0x02_0080_0000 + 0x1000 + 0x100 * c, 32, [perfSmpctlEn c, perfSmpctlTrig c, perfSmpctlPriv c, perfSmpctlJit c, perfSmpctlBase c]⟩) ++
  (List.range 6).map (fun c => ⟨0x02_0080_0000 + 0x1000 + 0x100 * c + 0x08, 64, [perfSmpseedSeed c]⟩) ++
  (List.range 6).map (fun c => ⟨0x02_0080_0000 + 0x1000 + 0x100 * c + 0x10, 64, [perfSbufAddr c, perfSbufLog2 c]⟩) ++
  (List.range 6).map (fun c => ⟨0x02_0080_0000 + 0x1000 + 0x100 * c + 0x18, 32, [perfSwpCount c]⟩) ++
  (List.range 6).map (fun c => ⟨0x02_0080_0000 + 0x1000 + 0x100 * c + 0x1C, 32, [perfSrpCount c]⟩) ++
  (List.range 6).map (fun c => ⟨0x02_0080_0000 + 0x1000 + 0x100 * c + 0x20, 32, [perfSstatBusy c, perfSstatDrop c]⟩)

/-- Every register of the block, by address (R18): what is not listed reads zero and ignores writes. -/
def cmpRegs : List Reg :=
  [⟨0x02_0090_0000 + 0x0000, 32, [cmpCtrlEn]⟩,
   ⟨0x02_0090_0000 + 0x0004, 32, [cmpCfgLazy, cmpCfgDepth]⟩,
   ⟨0x02_0090_0000 + 0x0008, 32, [cmpStatFailed, cmpStatBusy, cmpStatCtxfree]⟩,
   ⟨0x02_0090_0000 + 0x0010, 64, [cmpJringAddr, cmpJringLog2]⟩,
   ⟨0x02_0090_0000 + 0x0018, 32, [cmpJpiCount]⟩,
   ⟨0x02_0090_0000 + 0x001C, 32, [cmpJdoneCount]⟩,
   ⟨0x02_0090_0000 + 0x0020, 64, [cmpCtxbaseAddr]⟩,
   ⟨0x02_0090_0000 + 0x0028, 32, [cmpReasonCode]⟩] ++
  (List.range 4).map (fun n => ⟨0x02_0090_0000 + 0x0100 + 16 * n, 64, [cmpInBytes n]⟩) ++
  (List.range 4).map (fun n => ⟨0x02_0090_0000 + 0x0108 + 16 * n, 64, [cmpOutBytes n]⟩)

end Sys2Proof.Machine.R
end

