-- ==== Sys2Proof/Machine/RegsPosition.lean ====
section
/-! DEFINITION. The registers of position p: SRV, SPN, CAR and IGL (chapters 5, 6, 7, 9 and 11).
One definition per field of the register tables of the spec, with its offset, low bit, width, access code and
reset value as the table gives them, and the register map of each block for reads and writes by address. -/

namespace Sys2Proof.Machine.R

/-- SRV_CTRL.EN [0], RW (R168, Table 5.6): 1 runs the loops; 0 sends zero drive codes and holds every loop in OFF. -/
def srvCtrlEn (p : Nat) : Fld :=
  ⟨posBase p + 0x0000, 0, 1, .rw, 0⟩
/-- SRV_STAT.SPARE [24], RO (R168, Table 5.6): A spare lane has joined the position. -/
def srvStatSpare (p : Nat) : Fld :=
  ⟨posBase p + 0x0004, 24, 1, .ro, 0⟩
/-- SRV_STAT.FOCLOST [23:16], W1C (R168, Table 5.6): Bit s: focus lost on surface s (R156). -/
def srvStatFoclost (p : Nat) : Fld :=
  ⟨posBase p + 0x0004, 16, 8, .w1c, 0⟩
/-- SRV_STAT.HELD [15:8], RO (R168, Table 5.6): Bit s: surface s used a held sample at the last tick. -/
def srvStatHeld (p : Nat) : Fld :=
  ⟨posBase p + 0x0004, 8, 8, .ro, 0⟩
/-- SRV_STAT.RUN [0], RO (R168, Table 5.6): The tick is running. -/
def srvStatRun (p : Nat) : Fld :=
  ⟨posBase p + 0x0004, 0, 1, .ro, 0⟩
/-- SRV_TICK.TICK [63:0], RO (R168, Table 5.6): Tick count (R142). -/
def srvTickTick (p : Nat) : Fld :=
  ⟨posBase p + 0x0008, 0, 64, .ro, 0⟩
/-- SRV_SNUFF.LATCH [31], RO (R168, Table 5.7): Snuff latch; set from reset until the first successful clear. -/
def srvSnuffLatch (p : Nat) : Fld :=
  ⟨posBase p + 0x0010, 31, 1, .ro, 1⟩
/-- SRV_SNUFF.CLR [30], WO (R168, Table 5.7): 1 clears LATCH and SEEN when LIVE is zero (R167). -/
def srvSnuffClr (p : Nat) : Fld :=
  ⟨posBase p + 0x0010, 30, 1, .wo, 0⟩
/-- SRV_SNUFF.LIVE [25:16], RO (R168, Table 5.7): Sources asserted now, in the order of Table 3.5; bit 25 is the abort source. -/
def srvSnuffLive (p : Nat) : Fld :=
  ⟨posBase p + 0x0010, 16, 10, .ro, 0⟩
/-- SRV_SNUFF.SEEN [9:0], RO (R168, Table 5.7): Sources asserted since the last successful clear; bit 9 is the abort source. -/
def srvSnuffSeen (p : Nat) : Fld :=
  ⟨posBase p + 0x0010, 0, 10, .ro, 0⟩
/-- SRV_LIM.OFFTRK [31:16], RW (R168, Table 5.7): Off-track limit, TE codes; 19.2 nm at nominal slope; values above 0x4000 act as 0x4000. -/
def srvLimOfftrk (p : Nat) : Fld :=
  ⟨posBase p + 0x0014, 16, 16, .rw, 0x4000⟩
/-- SRV_LIM.FOCLIM [15:0], RW (R168, Table 5.7): Focus limit, FE codes; 40 nm at nominal slope; values above 0x2000 act as 0x2000. -/
def srvLimFoclim (p : Nat) : Fld :=
  ⟨posBase p + 0x0014, 0, 16, .rw, 0x2000⟩
/-- SRV_LANE.FAILED [19], RO (R168, Table 5.8): Position servo failed (R165). -/
def srvLaneFailed (p : Nat) : Fld :=
  ⟨posBase p + 0x0018, 19, 1, .ro, 0⟩
/-- SRV_LANE.FENCE_B [18], RO (R168, Table 5.8): Lane B fenced and replaced by a spare. -/
def srvLaneFenceB (p : Nat) : Fld :=
  ⟨posBase p + 0x0018, 18, 1, .ro, 0⟩
/-- SRV_LANE.FENCE_A [17], RO (R168, Table 5.8): Lane A fenced and replaced by a spare. -/
def srvLaneFenceA (p : Nat) : Fld :=
  ⟨posBase p + 0x0018, 17, 1, .ro, 0⟩
/-- SRV_LANE.SPARE [16], RO (R168, Table 5.8): As SRV_STAT.SPARE. -/
def srvLaneSpare (p : Nat) : Fld :=
  ⟨posBase p + 0x0018, 16, 1, .ro, 0⟩
/-- SRV_LANE.STRIKE_S [11:8], RO (R168, Table 5.8): Strikes of the joined spare. -/
def srvLaneStrikeS (p : Nat) : Fld :=
  ⟨posBase p + 0x0018, 8, 4, .ro, 0⟩
/-- SRV_LANE.STRIKE_B [7:4], RO (R168, Table 5.8): Strikes of the lane in the B place. -/
def srvLaneStrikeB (p : Nat) : Fld :=
  ⟨posBase p + 0x0018, 4, 4, .ro, 0⟩
/-- SRV_LANE.STRIKE_A [3:0], RO (R168, Table 5.8): Strikes of the lane in the A place. -/
def srvLaneStrikeA (p : Nat) : Fld :=
  ⟨posBase p + 0x0018, 0, 4, .ro, 0⟩
/-- SRV_MISM.COUNT [31:16], RO (R168, Table 5.8): Disagreements since reset, saturating. -/
def srvMismCount (p : Nat) : Fld :=
  ⟨posBase p + 0x001C, 16, 16, .ro, 0⟩
/-- SRV_MISM.LOOP [4:0], RO (R168, Table 5.8): Index l of the last loop that disagreed. -/
def srvMismLoop (p : Nat) : Fld :=
  ⟨posBase p + 0x001C, 0, 5, .ro, 0⟩
/-- SRV_CENTRE.CENTRE [15:0], RO (R168, Table 5.8): Centring term, signed drive code (R160). -/
def srvCentreCentre (p : Nat) : Fld :=
  ⟨posBase p + 0x0020, 0, 16, .ro, 0⟩
/-- SRV_JMPGO.MASK [7:0], WO (R168, Table 5.8): Bit s: start surface s's sequence on one common tick. -/
def srvJmpgoMask (p : Nat) : Fld :=
  ⟨posBase p + 0x0028, 0, 8, .wo, 0⟩
/-- SRV_SP.TILT [47:32], RW (R168, Table 5.9): Tilt target, signed TLT code. -/
def srvSpTilt (p : Nat) (s : Nat) : Fld :=
  ⟨posBase p + 0x0100 + 8 * s, 32, 16, .rw, 0⟩
/-- SRV_SP.TRACK [31:16], RW (R168, Table 5.9): Track offset, signed TE code. -/
def srvSpTrack (p : Nat) (s : Nat) : Fld :=
  ⟨posBase p + 0x0100 + 8 * s, 16, 16, .rw, 0⟩
/-- SRV_SP.FOCUS [15:0], RW (R168, Table 5.9): Focus offset, signed FE code. -/
def srvSpFocus (p : Nat) (s : Nat) : Fld :=
  ⟨posBase p + 0x0100 + 8 * s, 0, 16, .rw, 0⟩
/-- LOOP_CTRL.GAIN_NOW [23], WO (R168, Table 5.10): 1 copies the target to the applied gain (R150). -/
def loopCtrlGainNow (p : Nat) (l : Nat) : Fld :=
  ⟨posBase p + 0x1000 + 0x200 * l + 0x00, 23, 1, .wo, 0⟩
/-- LOOP_CTRL.SHIFT [22:20], RW (R168, Table 5.10): Output shift, × 2^SHIFT. -/
def loopCtrlShift (p : Nat) (l : Nat) : Fld :=
  ⟨posBase p + 0x1000 + 0x200 * l + 0x00, 20, 3, .rw, 0⟩
/-- LOOP_CTRL.NBQ [18:16], RW (R168, Table 5.10): Sections in use, 0 to 6; above 6 acts as 6. -/
def loopCtrlNbq (p : Nat) (l : Nat) : Fld :=
  ⟨posBase p + 0x1000 + 0x200 * l + 0x00, 16, 3, .rw, 0⟩
/-- LOOP_CTRL.BANK [8], RW (R168, Table 5.10): Active coefficient bank. -/
def loopCtrlBank (p : Nat) (l : Nat) : Fld :=
  ⟨posBase p + 0x1000 + 0x200 * l + 0x00, 8, 1, .rw, 0⟩
/-- LOOP_CTRL.MODE [2:0], RW (R168, Table 5.10): Table 5.3; reads 4 in FAIL. -/
def loopCtrlMode (p : Nat) (l : Nat) : Fld :=
  ⟨posBase p + 0x1000 + 0x200 * l + 0x00, 0, 3, .rw, 0⟩
/-- LOOP_FLAGS.BANKERR [6], W1C (R168, Table 5.10): Write to the active bank ignored. -/
def loopFlagsBankerr (p : Nat) (l : Nat) : Fld :=
  ⟨posBase p + 0x1000 + 0x200 * l + 0x04, 6, 1, .w1c, 0⟩
/-- LOOP_FLAGS.MODEERR [5], W1C (R168, Table 5.10): MODE or GAIN_NOW write ignored. -/
def loopFlagsModeerr (p : Nat) (l : Nat) : Fld :=
  ⟨posBase p + 0x1000 + 0x200 * l + 0x04, 5, 1, .w1c, 0⟩
/-- LOOP_FLAGS.HELD [4], W1C (R168, Table 5.10): A held sample was used (R154). -/
def loopFlagsHeld (p : Nat) (l : Nat) : Fld :=
  ⟨posBase p + 0x1000 + 0x200 * l + 0x04, 4, 1, .w1c, 0⟩
/-- LOOP_FLAGS.MISM [3], W1C (R168, Table 5.10): Lanes disagreed on this loop. -/
def loopFlagsMism (p : Nat) (l : Nat) : Fld :=
  ⟨posBase p + 0x1000 + 0x200 * l + 0x04, 3, 1, .w1c, 0⟩
/-- LOOP_FLAGS.SAT_OUT [2], W1C (R168, Table 5.10): R147. -/
def loopFlagsSatOut (p : Nat) (l : Nat) : Fld :=
  ⟨posBase p + 0x1000 + 0x200 * l + 0x04, 2, 1, .w1c, 0⟩
/-- LOOP_FLAGS.SAT_INT [1], W1C (R168, Table 5.10): R147. -/
def loopFlagsSatInt (p : Nat) (l : Nat) : Fld :=
  ⟨posBase p + 0x1000 + 0x200 * l + 0x04, 1, 1, .w1c, 0⟩
/-- LOOP_FLAGS.SAT_ACC [0], W1C (R168, Table 5.10): R147. -/
def loopFlagsSatAcc (p : Nat) (l : Nat) : Fld :=
  ⟨posBase p + 0x1000 + 0x200 * l + 0x04, 0, 1, .w1c, 0⟩
/-- LOOP_GAIN.GAIN [31:0], RW (R168, Table 5.10): Gain target, Q2.30. -/
def loopGainGain (p : Nat) (l : Nat) : Fld :=
  ⟨posBase p + 0x1000 + 0x200 * l + 0x08, 0, 32, .rw, 0x4000_0000⟩
/-- LOOP_GAINA.APPLIED [31:0], RO (R168, Table 5.10): Applied gain, Q2.30. -/
def loopGainaApplied (p : Nat) (l : Nat) : Fld :=
  ⟨posBase p + 0x1000 + 0x200 * l + 0x0C, 0, 32, .ro, 0x4000_0000⟩
/-- LOOP_KI.KI [31:0], RW (R168, Table 5.10): Integrator gain, Q2.30. -/
def loopKiKi (p : Nat) (l : Nat) : Fld :=
  ⟨posBase p + 0x1000 + 0x200 * l + 0x10, 0, 32, .rw, 0⟩
/-- LOOP_ILIM.ILIM [30:0], RW (R168, Table 5.10): Integrator limit, data units. -/
def loopIlimIlim (p : Nat) (l : Nat) : Fld :=
  ⟨posBase p + 0x1000 + 0x200 * l + 0x14, 0, 31, .rw, 0x1000_0000⟩
/-- LOOP_OUTLIM.OUT_MAX [31:16], RW (R168, Table 5.10): Highest drive code, signed. -/
def loopOutlimOutMax (p : Nat) (l : Nat) : Fld :=
  ⟨posBase p + 0x1000 + 0x200 * l + 0x18, 16, 16, .rw, 0x7FFF⟩
/-- LOOP_OUTLIM.OUT_MIN [15:0], RW (R168, Table 5.10): Lowest drive code, signed. -/
def loopOutlimOutMin (p : Nat) (l : Nat) : Fld :=
  ⟨posBase p + 0x1000 + 0x200 * l + 0x18, 0, 16, .rw, 0x8000⟩
/-- LOOP_OPEN.PARK [31:16], RW (R168, Table 5.10): Retracted focus drive; unused by tracking and tilt. -/
def loopOpenPark (p : Nat) (l : Nat) : Fld :=
  ⟨posBase p + 0x1000 + 0x200 * l + 0x1C, 16, 16, .rw, 0xE000⟩
/-- LOOP_OPEN.DRIVE [15:0], RW (R168, Table 5.10): Drive code in OPEN. -/
def loopOpenDrive (p : Nat) (l : Nat) : Fld :=
  ⟨posBase p + 0x1000 + 0x200 * l + 0x1C, 0, 16, .rw, 0⟩
/-- LOOP_LAST.CODE [63:48], RO (R168, Table 5.10): Last applied drive code. -/
def loopLastCode (p : Nat) (l : Nat) : Fld :=
  ⟨posBase p + 0x1000 + 0x200 * l + 0x20, 48, 16, .ro, 0⟩
/-- LOOP_LAST.ERR [31:0], RO (R168, Table 5.10): Last error e. -/
def loopLastErr (p : Nat) (l : Nat) : Fld :=
  ⟨posBase p + 0x1000 + 0x200 * l + 0x20, 0, 32, .ro, 0⟩
/-- LOOP_INT.INTEG [31:0], RO (R168, Table 5.10): Integrator. -/
def loopIntInteg (p : Nat) (l : Nat) : Fld :=
  ⟨posBase p + 0x1000 + 0x200 * l + 0x28, 0, 32, .ro, 0⟩
/-- LOOP_COEF.COEF [31:0], RW (R168, Table 5.10): Section n = 0 to 5, coefficient j = 0 to 4: b0, b1, b2, a1, a2; Q2.30. -/
def loopCoefCoef (p : Nat) (l bank n j : Nat) : Fld :=
  ⟨posBase p + 0x1000 + 0x200 * l + 0x100 + 0x80 * bank + 0x14 * n + 4 * j, 0, 32, .rw, (if j = 0 then 0x4000_0000 else 0)⟩
/-- JMP_CTRL.GO [31], WO (R168, Table 5.11): 1 starts the sequence (R157). -/
def jmpCtrlGo (p : Nat) (s : Nat) : Fld :=
  ⟨posBase p + 0x4000 + 0x40 * s + 0x00, 31, 1, .wo, 0⟩
/-- JMP_CTRL.ABORT [30], WO (R168, Table 5.11): 1 ends the sequence with result 5. -/
def jmpCtrlAbort (p : Nat) (s : Nat) : Fld :=
  ⟨posBase p + 0x4000 + 0x40 * s + 0x00, 30, 1, .wo, 0⟩
/-- JMP_CTRL.COUNT [23:16], RW (R168, Table 5.11): Layers or tracks (Table 5.4). -/
def jmpCtrlCount (p : Nat) (s : Nat) : Fld :=
  ⟨posBase p + 0x4000 + 0x40 * s + 0x00, 16, 8, .rw, 1⟩
/-- JMP_CTRL.DIR [15], RW (R168, Table 5.11): 0 deeper or outward; 1 shallower or inward. -/
def jmpCtrlDir (p : Nat) (s : Nat) : Fld :=
  ⟨posBase p + 0x4000 + 0x40 * s + 0x00, 15, 1, .rw, 0⟩
/-- JMP_CTRL.KIND [10:8], RW (R168, Table 5.11): Table 5.4; values 4 to 7 refused with result 4. -/
def jmpCtrlKind (p : Nat) (s : Nat) : Fld :=
  ⟨posBase p + 0x4000 + 0x40 * s + 0x00, 8, 3, .rw, 0⟩
/-- JMP_CFG.KICK [31:16], RW (R168, Table 5.11): Kick amplitude, unsigned drive code. -/
def jmpCfgKick (p : Nat) (s : Nat) : Fld :=
  ⟨posBase p + 0x4000 + 0x40 * s + 0x04, 16, 16, .rw, 0x1800⟩
/-- JMP_CFG.KICK_T [15:8], RW (R168, Table 5.11): Kick length, ticks. -/
def jmpCfgKickT (p : Nat) (s : Nat) : Fld :=
  ⟨posBase p + 0x4000 + 0x40 * s + 0x04, 8, 8, .rw, 0x10⟩
/-- JMP_CFG.BRAKE_T [7:0], RW (R168, Table 5.11): Brake length, ticks. -/
def jmpCfgBrakeT (p : Nat) (s : Nat) : Fld :=
  ⟨posBase p + 0x4000 + 0x40 * s + 0x04, 0, 8, .rw, 0x10⟩
/-- JMP_SWEEP.END [31:16], RW (R168, Table 5.11): Sweep end, signed drive code. -/
def jmpSweepEnd (p : Nat) (s : Nat) : Fld :=
  ⟨posBase p + 0x4000 + 0x40 * s + 0x08, 16, 16, .rw, 0x2000⟩
/-- JMP_SWEEP.RATE [15:0], RW (R168, Table 5.11): Sweep step per tick (KIND 0); least land-crossing interval in ticks (KIND 3). -/
def jmpSweepRate (p : Nat) (s : Nat) : Fld :=
  ⟨posBase p + 0x4000 + 0x40 * s + 0x08, 0, 16, .rw, 0x0002⟩
/-- JMP_TMO.SUM_MIN [31:16], RW (R168, Table 5.11): SUM for a counted S-curve, and the focus-lost threshold. -/
def jmpTmoSumMin (p : Nat) (s : Nat) : Fld :=
  ⟨posBase p + 0x4000 + 0x40 * s + 0x0C, 16, 16, .rw, 0x2000⟩
/-- JMP_TMO.TMO [15:0], RW (R168, Table 5.11): Time limit, ticks; 625 ticks is 500 µs. -/
def jmpTmoTmo (p : Nat) (s : Nat) : Fld :=
  ⟨posBase p + 0x4000 + 0x40 * s + 0x0C, 0, 16, .rw, 0x0271⟩
/-- JMP_STAT.BUSY [31], RO (R168, Table 5.11): Sequence running. -/
def jmpStatBusy (p : Nat) (s : Nat) : Fld :=
  ⟨posBase p + 0x4000 + 0x40 * s + 0x10, 31, 1, .ro, 0⟩
/-- JMP_STAT.RESULT [30:28], RO (R168, Table 5.11): 0 none, 1 done, 2 no S-curve, 3 lost during jump, 4 refused, 5 aborted, 6 timed out. -/
def jmpStatResult (p : Nat) (s : Nat) : Fld :=
  ⟨posBase p + 0x4000 + 0x40 * s + 0x10, 28, 3, .ro, 0⟩
/-- JMP_STAT.CROSS [23:16], RO (R168, Table 5.11): Crossings or S-curves counted. -/
def jmpStatCross (p : Nat) (s : Nat) : Fld :=
  ⟨posBase p + 0x4000 + 0x40 * s + 0x10, 16, 8, .ro, 0⟩
/-- JMP_STAT.ELAPSED [15:0], RO (R168, Table 5.11): Ticks since the sequence or the current layer began, saturating. -/
def jmpStatElapsed (p : Nat) (s : Nat) : Fld :=
  ⟨posBase p + 0x4000 + 0x40 * s + 0x10, 0, 16, .ro, 0⟩
/-- POS_CFG.PACK [1], RO (R335, Table 11.9): PACK_SENSE_Np asserted, after its glitch filter. -/
def posCfgPack (p : Nat) : Fld :=
  ⟨posBase p + 0x3FF00, 1, 1, .ro, 0⟩
/-- POS_CFG.EN [0], RW (R335, Table 11.9): A write of 1 runs the check. A write of 0 is ignored, with REASON 0x030B, unless the spindle is OFF, COAST or FAULT, the carriage is OFF or FAULT and no pack is mounted. -/
def posCfgEn (p : Nat) : Fld :=
  ⟨posBase p + 0x3FF00, 0, 1, .rw, 0⟩
/-- POS_CHK.REASON [15:0], RO (R335, Table 11.9): Reason of the last refused write to EN; 0 after a check passes. -/
def posChkReason (p : Nat) : Fld :=
  ⟨posBase p + 0x3FF04, 0, 16, .ro, 0⟩
/-- SPN_CMD.OP [3:0], WO (R192, Table 6.7): Table 6.3; other values refused. -/
def spnCmdOp (p : Nat) : Fld :=
  ⟨posBase p + 0x40000 + 0x0000, 0, 4, .wo, 0⟩
/-- SPN_STAT.STATE [31:28], RO (R192, Table 6.7): Table 6.2. -/
def spnStatState (p : Nat) : Fld :=
  ⟨posBase p + 0x40000 + 0x0004, 28, 4, .ro, 0⟩
/-- SPN_STAT.RETRY [27:26], RO (R192, Table 6.7): Retries used (R182). -/
def spnStatRetry (p : Nat) : Fld :=
  ⟨posBase p + 0x40000 + 0x0004, 26, 2, .ro, 0⟩
/-- SPN_STAT.LOCK [25], RO (R192, Table 6.7): Speed locked (R177). -/
def spnStatLock (p : Nat) : Fld :=
  ⟨posBase p + 0x40000 + 0x0004, 25, 1, .ro, 0⟩
/-- SPN_STAT.AVALID [24], RO (R192, Table 6.7): Angle counter valid (R187). -/
def spnStatAvalid (p : Nat) : Fld :=
  ⟨posBase p + 0x40000 + 0x0004, 24, 1, .ro, 0⟩
/-- SPN_STAT.CHOPFLT [15], RO (R192, Table 6.7): Chopper declared faulty (R185). -/
def spnStatChopflt (p : Nat) : Fld :=
  ⟨posBase p + 0x40000 + 0x0004, 15, 1, .ro, 0⟩
/-- SPN_STAT.IPEAK [7], W1C (R192, Table 6.7): Peak current reached. -/
def spnStatIpeak (p : Nat) : Fld :=
  ⟨posBase p + 0x40000 + 0x0004, 7, 1, .w1c, 0⟩
/-- SPN_STAT.ISKIP [6], W1C (R192, Table 6.7): Current samples discarded. -/
def spnStatIskip (p : Nat) : Fld :=
  ⟨posBase p + 0x40000 + 0x0004, 6, 1, .w1c, 0⟩
/-- SPN_STAT.OV3 [5], W1C (R192, Table 6.7): Bus reached OV3. -/
def spnStatOv3 (p : Nat) : Fld :=
  ⟨posBase p + 0x40000 + 0x0004, 5, 1, .w1c, 0⟩
/-- SPN_STAT.OV2 [4], W1C (R192, Table 6.7): Bus reached OV2. -/
def spnStatOv2 (p : Nat) : Fld :=
  ⟨posBase p + 0x40000 + 0x0004, 4, 1, .w1c, 0⟩
/-- SPN_STAT.OV1 [3], W1C (R192, Table 6.7): Chopper engaged. -/
def spnStatOv1 (p : Nat) : Fld :=
  ⟨posBase p + 0x40000 + 0x0004, 3, 1, .w1c, 0⟩
/-- SPN_STAT.LOCKED [2], W1C (R192, Table 6.7): Locked-rotor timer expired. -/
def spnStatLocked (p : Nat) : Fld :=
  ⟨posBase p + 0x40000 + 0x0004, 2, 1, .w1c, 0⟩
/-- SPN_STAT.REVERSE [1], W1C (R192, Table 6.7): Reverse rotation observed. -/
def spnStatReverse (p : Nat) : Fld :=
  ⟨posBase p + 0x40000 + 0x0004, 1, 1, .w1c, 0⟩
/-- SPN_STAT.CMDERR [0], W1C (R192, Table 6.7): Command refused. -/
def spnStatCmderr (p : Nat) : Fld :=
  ⟨posBase p + 0x40000 + 0x0004, 0, 1, .w1c, 0⟩
/-- SPN_REASON.CODE [15:0], RO (R192, Table 6.7): Last reason code (Table 6.6). -/
def spnReasonCode (p : Nat) : Fld :=
  ⟨posBase p + 0x40000 + 0x0008, 0, 16, .ro, 0⟩
/-- SPN_CFG.POLES [23:20], RW (R192, Table 6.8): Pole pairs. -/
def spnCfgPoles (p : Nat) : Fld :=
  ⟨posBase p + 0x40000 + 0x000C, 20, 4, .rw, 0x4⟩
/-- SPN_CFG.NEUTRAL [16], RW (R192, Table 6.8): 0 SPNp_BN, 1 virtual neutral. -/
def spnCfgNeutral (p : Nat) : Fld :=
  ⟨posBase p + 0x40000 + 0x000C, 16, 1, .rw, 0⟩
/-- SPN_CFG.BLANK [15:8], RW (R192, Table 6.8): Blanking after commutation, units of 1/256 of T60. -/
def spnCfgBlank (p : Nat) : Fld :=
  ⟨posBase p + 0x40000 + 0x000C, 8, 8, .rw, 0x40⟩
/-- SPN_SPD.DEGRADED [31:16], RW (R192, Table 6.8): Degraded-link target, rpm. -/
def spnSpdDegraded (p : Nat) : Fld :=
  ⟨posBase p + 0x40000 + 0x0010, 16, 16, .rw, 0x0FA0⟩
/-- SPN_SPD.TARGET [15:0], RW (R192, Table 6.8): Target, rpm; above 0x1518 acts as 0x1518, below 0x03E8 as 0x03E8. -/
def spnSpdTarget (p : Nat) : Fld :=
  ⟨posBase p + 0x40000 + 0x0010, 0, 16, .rw, 0x1518⟩
/-- SPN_RAMP.OL_RATE [31:16], RW (R192, Table 6.8): Open-loop ramp, rpm/s. -/
def spnRampOlRate (p : Nat) : Fld :=
  ⟨posBase p + 0x40000 + 0x0014, 16, 16, .rw, 0x03E8⟩
/-- SPN_RAMP.ACCEL [15:0], RW (R192, Table 6.8): Target slew, rpm/s. -/
def spnRampAccel (p : Nat) : Fld :=
  ⟨posBase p + 0x40000 + 0x0014, 0, 16, .rw, 0x03E8⟩
/-- SPN_START.HANDOVER [31:24], RW (R192, Table 6.8): Events for handover; 0 acts as 1. -/
def spnStartHandover (p : Nat) : Fld :=
  ⟨posBase p + 0x40000 + 0x0018, 24, 8, .rw, 0x06⟩
/-- SPN_START.ALIGN_T [15:0], RW (R192, Table 6.8): Align time, ms. -/
def spnStartAlignT (p : Nat) : Fld :=
  ⟨posBase p + 0x40000 + 0x0018, 0, 16, .rw, 0x012C⟩
/-- SPN_ILIM.ALIGN_I [31:16], RW (R192, Table 6.8): Align and ramp current, mA. -/
def spnIlimAlignI (p : Nat) : Fld :=
  ⟨posBase p + 0x40000 + 0x001C, 16, 16, .rw, 0x04B0⟩
/-- SPN_ILIM.ILIM [15:0], RW (R192, Table 6.8): Current limit, mA; above 0x0E10 acts as 0x0E10. -/
def spnIlimIlim (p : Nat) : Fld :=
  ⟨posBase p + 0x40000 + 0x001C, 0, 16, .rw, 0x0708⟩
/-- SPN_PROT.IPEAK [31:16], RW (R192, Table 6.8): Peak current, mA. -/
def spnProtIpeak (p : Nat) : Fld :=
  ⟨posBase p + 0x40000 + 0x0020, 16, 16, .rw, 0x0C80⟩
/-- SPN_PROT.MINON [15:0], RW (R192, Table 6.8): Least on-time for current samples, 10 ns units. -/
def spnProtMinon (p : Nat) : Fld :=
  ⟨posBase p + 0x40000 + 0x0020, 0, 16, .rw, 0x0064⟩
/-- SPN_SLOOP.KP [31:16], RW (R192, Table 6.8): Speed proportional gain, 1/256 mA per rpm. -/
def spnSloopKp (p : Nat) : Fld :=
  ⟨posBase p + 0x40000 + 0x0024, 16, 16, .rw, 0x0200⟩
/-- SPN_SLOOP.KI [15:0], RW (R192, Table 6.8): Speed integral gain, 1/65,536 mA per rpm per loop period. -/
def spnSloopKi (p : Nat) : Fld :=
  ⟨posBase p + 0x40000 + 0x0024, 0, 16, .rw, 0x0010⟩
/-- SPN_ILOOP.KP [31:16], RW (R192, Table 6.8): Current proportional gain, 1/65,536 duty per mA. -/
def spnIloopKp (p : Nat) : Fld :=
  ⟨posBase p + 0x40000 + 0x0028, 16, 16, .rw, 0x0100⟩
/-- SPN_ILOOP.KI [15:0], RW (R192, Table 6.8): Current integral gain, 1/65,536 duty per mA per PWM period. -/
def spnIloopKi (p : Nat) : Fld :=
  ⟨posBase p + 0x40000 + 0x0028, 0, 16, .rw, 0x0010⟩
/-- SPN_SMP.T1 [27:16], RW (R192, Table 6.8): First sampling instant, 10 ns from period start. -/
def spnSmpT1 (p : Nat) : Fld :=
  ⟨posBase p + 0x40000 + 0x002C, 16, 12, .rw, 0x4E2⟩
/-- SPN_SMP.T2 [11:0], RW (R192, Table 6.8): Second sampling instant. -/
def spnSmpT2 (p : Nat) : Fld :=
  ⟨posBase p + 0x40000 + 0x002C, 0, 12, .rw, 0x00A⟩
/-- SPN_OVA.OV1 [27:16], RW (R192, Table 6.9): Table 6.5. -/
def spnOvaOv1 (p : Nat) : Fld :=
  ⟨posBase p + 0x40000 + 0x0030, 16, 12, .rw, 0xC72⟩
/-- SPN_OVA.OV1_OFF [11:0], RW (R192, Table 6.9): Table 6.5. -/
def spnOvaOv1Off (p : Nat) : Fld :=
  ⟨posBase p + 0x40000 + 0x0030, 0, 12, .rw, 0xC00⟩
/-- SPN_OVB.OV2 [27:16], RW (R192, Table 6.9): Table 6.5. -/
def spnOvbOv2 (p : Nat) : Fld :=
  ⟨posBase p + 0x40000 + 0x0034, 16, 12, .rw, 0xDC7⟩
/-- SPN_OVB.OV3 [11:0], RW (R192, Table 6.9): Table 6.5. -/
def spnOvbOv3 (p : Nat) : Fld :=
  ⟨posBase p + 0x40000 + 0x0034, 0, 12, .rw, 0xEAB⟩
/-- SPN_MEAS.VBUS [31:20], RO (R192, Table 6.9): Last bus code. -/
def spnMeasVbus (p : Nat) : Fld :=
  ⟨posBase p + 0x40000 + 0x0038, 20, 12, .ro, 0⟩
/-- SPN_MEAS.SPEED [19:0], RO (R192, Table 6.9): Measured speed, 1/16 rpm. -/
def spnMeasSpeed (p : Nat) : Fld :=
  ⟨posBase p + 0x40000 + 0x0038, 0, 20, .ro, 0⟩
/-- SPN_IPH.STEP [18:16], RO (R192, Table 6.9): Present step. -/
def spnIphStep (p : Nat) : Fld :=
  ⟨posBase p + 0x40000 + 0x003C, 16, 3, .ro, 0⟩
/-- SPN_IPH.CURRENT [15:0], RO (R192, Table 6.9): Reconstructed I, signed mA. -/
def spnIphCurrent (p : Nat) : Fld :=
  ⟨posBase p + 0x40000 + 0x003C, 0, 16, .ro, 0⟩
/-- SPN_ANGLE.REV [63:20], RO (R192, Table 6.9): Revolutions. -/
def spnAngleRev (p : Nat) : Fld :=
  ⟨posBase p + 0x40000 + 0x0040, 20, 44, .ro, 0⟩
/-- SPN_ANGLE.FRAC [19:0], RO (R192, Table 6.9): Angle, 2⁻²⁰ rev. -/
def spnAngleFrac (p : Nat) : Fld :=
  ⟨posBase p + 0x40000 + 0x0040, 0, 20, .ro, 0⟩
/-- SPN_ADV.ADV3 [31:24], RW (R192, Table 6.10): Entry 4j + 3, 1/8 electrical degree; above 0xF0 acts as 0xF0. -/
def spnAdvAdv3 (p : Nat) (j : Nat) : Fld :=
  ⟨posBase p + 0x40000 + 0x0050 + 4 * j, 24, 8, .rw, 0⟩
/-- SPN_ADV.ADV2 [23:16], RW (R192, Table 6.10): Entry 4j + 2. -/
def spnAdvAdv2 (p : Nat) (j : Nat) : Fld :=
  ⟨posBase p + 0x40000 + 0x0050 + 4 * j, 16, 8, .rw, 0⟩
/-- SPN_ADV.ADV1 [15:8], RW (R192, Table 6.10): Entry 4j + 1. -/
def spnAdvAdv1 (p : Nat) (j : Nat) : Fld :=
  ⟨posBase p + 0x40000 + 0x0050 + 4 * j, 8, 8, .rw, 0⟩
/-- SPN_ADV.ADV0 [7:0], RW (R192, Table 6.10): Entry 4j. -/
def spnAdvAdv0 (p : Nat) (j : Nat) : Fld :=
  ⟨posBase p + 0x40000 + 0x0050 + 4 * j, 0, 8, .rw, 0⟩
/-- SPN_GATE.DEADT [31:24], RW (R192, Table 6.10): Dead time, 10 ns units; below 0x0A acts as 0x0A. -/
def spnGateDeadt (p : Nat) : Fld :=
  ⟨posBase p + 0x40000 + 0x0060, 24, 8, .rw, 0x32⟩
/-- SPN_GATE.SLEW_CH [20:18], RW (R192, Table 6.10): SPNp_CHOP slew code (R188). -/
def spnGateSlewCh (p : Nat) : Fld :=
  ⟨posBase p + 0x40000 + 0x0060, 18, 3, .rw, 0x4⟩
/-- SPN_GATE.SLEW_WL [17:15], RW (R192, Table 6.10): SPNp_WL. -/
def spnGateSlewWl (p : Nat) : Fld :=
  ⟨posBase p + 0x40000 + 0x0060, 15, 3, .rw, 0x4⟩
/-- SPN_GATE.SLEW_WH [14:12], RW (R192, Table 6.10): SPNp_WH. -/
def spnGateSlewWh (p : Nat) : Fld :=
  ⟨posBase p + 0x40000 + 0x0060, 12, 3, .rw, 0x4⟩
/-- SPN_GATE.SLEW_VL [11:9], RW (R192, Table 6.10): SPNp_VL. -/
def spnGateSlewVl (p : Nat) : Fld :=
  ⟨posBase p + 0x40000 + 0x0060, 9, 3, .rw, 0x4⟩
/-- SPN_GATE.SLEW_VH [8:6], RW (R192, Table 6.10): SPNp_VH. -/
def spnGateSlewVh (p : Nat) : Fld :=
  ⟨posBase p + 0x40000 + 0x0060, 6, 3, .rw, 0x4⟩
/-- SPN_GATE.SLEW_UL [5:3], RW (R192, Table 6.10): SPNp_UL. -/
def spnGateSlewUl (p : Nat) : Fld :=
  ⟨posBase p + 0x40000 + 0x0060, 3, 3, .rw, 0x4⟩
/-- SPN_GATE.SLEW_UH [2:0], RW (R192, Table 6.10): SPNp_UH. -/
def spnGateSlewUh (p : Nat) : Fld :=
  ⟨posBase p + 0x40000 + 0x0060, 0, 3, .rw, 0x4⟩
/-- CAR_CMD.OP [3:0], WO (R213, Table 7.5): Table 7.2; other values refused with 0x0708. -/
def carCmdOp (p : Nat) : Fld :=
  ⟨posBase p + 0x60000 + 0x0000, 0, 4, .wo, 0⟩
/-- CAR_STAT.STATE [31:28], RO (R213, Table 7.5): Table 7.1. -/
def carStatState (p : Nat) : Fld :=
  ⟨posBase p + 0x60000 + 0x0004, 28, 4, .ro, 0⟩
/-- CAR_STAT.PVALID [27], RO (R213, Table 7.5): Position established (R194). -/
def carStatPvalid (p : Nat) : Fld :=
  ⟨posBase p + 0x60000 + 0x0004, 27, 1, .ro, 0⟩
/-- CAR_STAT.SETTLED [26], RO (R213, Table 7.5): R202. -/
def carStatSettled (p : Nat) : Fld :=
  ⟨posBase p + 0x60000 + 0x0004, 26, 1, .ro, 0⟩
/-- CAR_STAT.BUSY [25], RO (R213, Table 7.5): Reference in motion. -/
def carStatBusy (p : Nat) : Fld :=
  ⟨posBase p + 0x60000 + 0x0004, 25, 1, .ro, 0⟩
/-- CAR_STAT.LIMCLIP [7], W1C (R213, Table 7.5): Level-0 target clamped. -/
def carStatLimclip (p : Nat) : Fld :=
  ⟨posBase p + 0x60000 + 0x0004, 7, 1, .w1c, 0⟩
/-- CAR_STAT.LIMSTOP [6], W1C (R213, Table 7.5): Virtual limit reached while geared. -/
def carStatLimstop (p : Nat) : Fld :=
  ⟨posBase p + 0x60000 + 0x0004, 6, 1, .w1c, 0⟩
/-- CAR_STAT.FERR [5], W1C (R213, Table 7.5): Following error beyond limit. -/
def carStatFerr (p : Nat) : Fld :=
  ⟨posBase p + 0x60000 + 0x0004, 5, 1, .w1c, 0⟩
/-- CAR_STAT.ENCERR [4], W1C (R213, Table 7.5): Encoder error. -/
def carStatEncerr (p : Nat) : Fld :=
  ⟨posBase p + 0x60000 + 0x0004, 4, 1, .w1c, 0⟩
/-- CAR_STAT.OVC [3], W1C (R213, Table 7.5): Phase overcurrent. -/
def carStatOvc (p : Nat) : Fld :=
  ⟨posBase p + 0x60000 + 0x0004, 3, 1, .w1c, 0⟩
/-- CAR_STAT.MLOST [2], W1C (R213, Table 7.5): Spindle angle lost while geared. -/
def carStatMlost (p : Nat) : Fld :=
  ⟨posBase p + 0x60000 + 0x0004, 2, 1, .w1c, 0⟩
/-- CAR_STAT.GEARFIRE [1], W1C (R213, Table 7.5): A ratio-change entry fired. -/
def carStatGearfire (p : Nat) : Fld :=
  ⟨posBase p + 0x60000 + 0x0004, 1, 1, .w1c, 0⟩
/-- CAR_STAT.CMDERR [0], W1C (R213, Table 7.5): Command refused. -/
def carStatCmderr (p : Nat) : Fld :=
  ⟨posBase p + 0x60000 + 0x0004, 0, 1, .w1c, 0⟩
/-- CAR_REASON.CODE [15:0], RO (R213, Table 7.5): Last reason (Table 7.3). -/
def carReasonCode (p : Nat) : Fld :=
  ⟨posBase p + 0x60000 + 0x0008, 0, 16, .ro, 0⟩
/-- CAR_CFG.STEP_CNT [31:16], RW (R213, Table 7.5): Encoder counts per full step. -/
def carCfgStepCnt (p : Nat) : Fld :=
  ⟨posBase p + 0x60000 + 0x000C, 16, 16, .rw, 0x0320⟩
/-- CAR_CFG.ENC_INV [1], RW (R213, Table 7.5): 1 inverts the count direction. -/
def carCfgEncInv (p : Nat) : Fld :=
  ⟨posBase p + 0x60000 + 0x000C, 1, 1, .rw, 0⟩
/-- CAR_CFG.RAMP [0], RW (R213, Table 7.5): 0 trapezoidal, 1 segment table. -/
def carCfgRamp (p : Nat) : Fld :=
  ⟨posBase p + 0x60000 + 0x000C, 0, 1, .rw, 0⟩
/-- CAR_POS.POS [31:0], RO (R213, Table 7.5): Measured position, signed counts. -/
def carPosPos (p : Nat) : Fld :=
  ⟨posBase p + 0x60000 + 0x0010, 0, 32, .ro, 0⟩
/-- CAR_REF.INT [63:40], RO (R213, Table 7.5): Reference, signed whole counts. -/
def carRefInt (p : Nat) : Fld :=
  ⟨posBase p + 0x60000 + 0x0018, 40, 24, .ro, 0⟩
/-- CAR_REF.FRAC [39:0], RO (R213, Table 7.5): Reference fraction, 2⁻⁴⁰ count. -/
def carRefFrac (p : Nat) : Fld :=
  ⟨posBase p + 0x60000 + 0x0018, 0, 40, .ro, 0⟩
/-- CAR_TGT.TGT [31:0], RW (R213, Table 7.5): Level-0 target, counts (R200). -/
def carTgtTgt (p : Nat) : Fld :=
  ⟨posBase p + 0x60000 + 0x0020, 0, 32, .rw, 0⟩
/-- CAR_SEEK.TGT [31:0], RW (R213, Table 7.5): Level-1 target, counts (R201). -/
def carSeekTgt (p : Nat) : Fld :=
  ⟨posBase p + 0x60000 + 0x0024, 0, 32, .rw, 0⟩
/-- CAR_VMAX.VMAX [15:0], RW (R213, Table 7.5): Counts/ms; above 0x36B0 acts as 0x36B0. -/
def carVmaxVmax (p : Nat) : Fld :=
  ⟨posBase p + 0x60000 + 0x0028, 0, 16, .rw, 0x2904⟩
/-- CAR_ACC.JMAX [31:16], RW (R213, Table 7.6): Counts/ms³. -/
def carAccJmax (p : Nat) : Fld :=
  ⟨posBase p + 0x60000 + 0x002C, 16, 16, .rw, 0x01F4⟩
/-- CAR_ACC.AMAX [15:0], RW (R213, Table 7.6): Counts/ms². -/
def carAccAmax (p : Nat) : Fld :=
  ⟨posBase p + 0x60000 + 0x002C, 0, 16, .rw, 0x03E8⟩
/-- CAR_VLIM_IN.POS [31:0], RW (R213, Table 7.6): Inner virtual limit, 22.5 mm. -/
def carVlimInPos (p : Nat) : Fld :=
  ⟨posBase p + 0x60000 + 0x0030, 0, 32, .rw, 0x0006_DDD0⟩
/-- CAR_VLIM_OUT.POS [31:0], RW (R213, Table 7.6): Outer virtual limit, 58.75 mm. -/
def carVlimOutPos (p : Nat) : Fld :=
  ⟨posBase p + 0x60000 + 0x0034, 0, 32, .rw, 0x0011_EDD8⟩
/-- CAR_PARK.POS [31:0], RW (R213, Table 7.6): Park position. -/
def carParkPos (p : Nat) : Fld :=
  ⟨posBase p + 0x60000 + 0x0038, 0, 32, .rw, 0x0006_DDD0⟩
/-- CAR_SETTLE.WIN [31:16], RW (R213, Table 7.6): Settle window, counts. -/
def carSettleWin (p : Nat) : Fld :=
  ⟨posBase p + 0x60000 + 0x003C, 16, 16, .rw, 0x0064⟩
/-- CAR_SETTLE.N [15:8], RW (R213, Table 7.6): Periods within the window; 0 acts as 1. -/
def carSettleN (p : Nat) : Fld :=
  ⟨posBase p + 0x60000 + 0x003C, 8, 8, .rw, 0x14⟩
/-- CAR_FERR.MAX [15:0], RW (R213, Table 7.6): Following-error limit, counts. -/
def carFerrMax (p : Nat) : Fld :=
  ⟨posBase p + 0x60000 + 0x0040, 0, 16, .rw, 0x07D0⟩
/-- CAR_ILIM.HOLD [31:16], RW (R213, Table 7.6): Hold current, mA. -/
def carIlimHold (p : Nat) : Fld :=
  ⟨posBase p + 0x60000 + 0x0044, 16, 16, .rw, 0x012C⟩
/-- CAR_ILIM.IMAX [15:0], RW (R213, Table 7.6): Current limit, mA; above 0x0BB8 acts as 0x0BB8. -/
def carIlimImax (p : Nat) : Fld :=
  ⟨posBase p + 0x60000 + 0x0044, 0, 16, .rw, 0x05DC⟩
/-- CAR_PLOOP0.KP [31:16], RW (R213, Table 7.6): 1/256 mA per count. -/
def carPloop0Kp (p : Nat) : Fld :=
  ⟨posBase p + 0x60000 + 0x0048, 16, 16, .rw, 0x0400⟩
/-- CAR_PLOOP0.KI [15:0], RW (R213, Table 7.6): 1/65,536 mA per count per period. -/
def carPloop0Ki (p : Nat) : Fld :=
  ⟨posBase p + 0x60000 + 0x0048, 0, 16, .rw, 0x0020⟩
/-- CAR_PLOOP1.KD [31:16], RW (R213, Table 7.6): 1/256 mA per count per period of velocity. -/
def carPloop1Kd (p : Nat) : Fld :=
  ⟨posBase p + 0x60000 + 0x004C, 16, 16, .rw, 0x2000⟩
/-- CAR_PLOOP1.KA [15:0], RW (R213, Table 7.6): 1/256 mA per count/ms². -/
def carPloop1Ka (p : Nat) : Fld :=
  ⟨posBase p + 0x60000 + 0x004C, 0, 16, .rw, 0x0118⟩
/-- CAR_CTR.KC [31:16], RW (R213, Table 7.6): 1/65,536 count per drive code. -/
def carCtrKc (p : Nat) : Fld :=
  ⟨posBase p + 0x60000 + 0x0050, 16, 16, .rw, 0x0010⟩
/-- CAR_CTR.LIM [15:0], RW (R213, Table 7.6): Offset limit, counts. -/
def carCtrLim (p : Nat) : Fld :=
  ⟨posBase p + 0x60000 + 0x0050, 0, 16, .rw, 0x0020⟩
/-- CAR_ALIGN.OFS [15:0], RW (R213, Table 7.6): Encoder-to-step offset, counts, below 4 × STEP_CNT. -/
def carAlignOfs (p : Nat) : Fld :=
  ⟨posBase p + 0x60000 + 0x0054, 0, 16, .rw, 0⟩
/-- CAR_IDX.POS [31:0], RW (R213, Table 7.6): Position loaded at the index, 22.8 mm. -/
def carIdxPos (p : Nat) : Fld :=
  ⟨posBase p + 0x60000 + 0x0058, 0, 32, .rw, 0x0006_F540⟩
/-- CAR_HOME.V [31:16], RW (R213, Table 7.6): Homing speed, counts/ms. -/
def carHomeV (p : Nat) : Fld :=
  ⟨posBase p + 0x60000 + 0x005C, 16, 16, .rw, 0x0064⟩
/-- CAR_HOME.TMO [15:0], RW (R213, Table 7.6): Homing time limit, ms. -/
def carHomeTmo (p : Nat) : Fld :=
  ⟨posBase p + 0x60000 + 0x005C, 0, 16, .rw, 0x2710⟩
/-- CAR_PWM.SLEW_BN [11:9], RW (R213, Table 7.6): CARp_BN slew code. -/
def carPwmSlewBn (p : Nat) : Fld :=
  ⟨posBase p + 0x60000 + 0x0060, 9, 3, .rw, 0x4⟩
/-- CAR_PWM.SLEW_BP [8:6], RW (R213, Table 7.6): CARp_BP. -/
def carPwmSlewBp (p : Nat) : Fld :=
  ⟨posBase p + 0x60000 + 0x0060, 6, 3, .rw, 0x4⟩
/-- CAR_PWM.SLEW_AN [5:3], RW (R213, Table 7.6): CARp_AN. -/
def carPwmSlewAn (p : Nat) : Fld :=
  ⟨posBase p + 0x60000 + 0x0060, 3, 3, .rw, 0x4⟩
/-- CAR_PWM.SLEW_AP [2:0], RW (R213, Table 7.6): CARp_AP. -/
def carPwmSlewAp (p : Nat) : Fld :=
  ⟨posBase p + 0x60000 + 0x0060, 0, 3, .rw, 0x4⟩
/-- CAR_GEAR0.RATIO [47:0], RW (R213, Table 7.7): Ratio at engagement, signed Q8.40. -/
def carGear0Ratio (p : Nat) : Fld :=
  ⟨posBase p + 0x60000 + 0x0080, 0, 48, .rw, 0⟩
/-- CAR_GTCTL.NEXT [6:4], RO (R213, Table 7.7): Index of the armed entry; N when none. -/
def carGtctlNext (p : Nat) : Fld :=
  ⟨posBase p + 0x60000 + 0x0088, 4, 3, .ro, 0⟩
/-- CAR_GTCTL.N [2:0], RW (R213, Table 7.7): Entries in use, 0 to 4; above 4 acts as 4. -/
def carGtctlN (p : Nat) : Fld :=
  ⟨posBase p + 0x60000 + 0x0088, 0, 3, .rw, 0⟩
/-- CAR_GTPOS.POS [31:0], RW (R213, Table 7.7): Firing position, counts. -/
def carGtposPos (p : Nat) (i : Nat) : Fld :=
  ⟨posBase p + 0x60000 + 0x0090 + 0x10 * i, 0, 32, .rw, 0⟩
/-- CAR_GTRAT.RATIO [47:0], RW (R213, Table 7.7): Ratio from firing, signed Q8.40. -/
def carGtratRatio (p : Nat) (i : Nat) : Fld :=
  ⟨posBase p + 0x60000 + 0x0098 + 0x10 * i, 0, 48, .rw, 0⟩
/-- CAR_GRATIO.RATIO [47:0], RO (R213, Table 7.7): Ratio in force. -/
def carGratioRatio (p : Nat) : Fld :=
  ⟨posBase p + 0x60000 + 0x00D8, 0, 48, .ro, 0⟩
/-- CAR_TBLREF.DREF [31:0], RW (R213, Table 7.8): Reference distance, counts; 725,000, the span of the reset virtual limits, so that a table that uses it passes R204 with those limits. -/
def carTblrefDref (p : Nat) : Fld :=
  ⟨posBase p + 0x60000 + 0x00D0, 0, 32, .rw, 0x000B_1008⟩
/-- CAR_TBLN.N [6:0], RW (R213, Table 7.8): Entries in use, 2 to 64. -/
def carTblnN (p : Nat) : Fld :=
  ⟨posBase p + 0x60000 + 0x00D4, 0, 7, .rw, 0⟩
/-- CAR_TBL.T [31:0], RW (R213, Table 7.8): Time, µs. -/
def carTblT (p : Nat) (i : Nat) : Fld :=
  ⟨posBase p + 0x60000 + 0x0100 + 0x10 * i + 0x0, 0, 32, .rw, 0⟩
/-- CAR_TBL.X [31:0], RW (R213, Table 7.8): Displacement, counts. -/
def carTblX (p : Nat) (i : Nat) : Fld :=
  ⟨posBase p + 0x60000 + 0x0100 + 0x10 * i + 0x4, 0, 32, .rw, 0⟩
/-- CAR_TBL.V [31:0], RW (R213, Table 7.8): Velocity, 1/256 count/ms. -/
def carTblV (p : Nat) (i : Nat) : Fld :=
  ⟨posBase p + 0x60000 + 0x0100 + 0x10 * i + 0x8, 0, 32, .rw, 0⟩
/-- IGL_CTRL.LANE_DIS [7:4], RW (R267, Table 9.10): Bit l: lane l excluded from training. -/
def iglCtrlLaneDis (p : Nat) : Fld :=
  ⟨posBase p + 0x80000 + 0x0000, 4, 4, .rw, 0⟩
/-- IGL_CTRL.TRAIN [1], WO (R267, Table 9.10): 1 starts training (R261); ignored while EN is 0. -/
def iglCtrlTrain (p : Nat) : Fld :=
  ⟨posBase p + 0x80000 + 0x0000, 1, 1, .wo, 0⟩
/-- IGL_CTRL.EN [0], RW (R267, Table 9.10): 0 stops the transmitters. -/
def iglCtrlEn (p : Nat) : Fld :=
  ⟨posBase p + 0x80000 + 0x0000, 0, 1, .rw, 0⟩
/-- IGL_STAT.STATE [31:28], RO (R267, Table 9.10): 0 OFF, 1 training, 2 ACTIVE, 3 DOWN. -/
def iglStatState (p : Nat) : Fld :=
  ⟨posBase p + 0x80000 + 0x0004, 28, 4, .ro, 0⟩
/-- IGL_STAT.LANES [27:24], RO (R267, Table 9.10): Bit l: lane l active. -/
def iglStatLanes (p : Nat) : Fld :=
  ⟨posBase p + 0x80000 + 0x0004, 24, 4, .ro, 0⟩
/-- IGL_STAT.DEGRADED [23], RO (R267, Table 9.10): Three-lane operation. -/
def iglStatDegraded (p : Nat) : Fld :=
  ⟨posBase p + 0x80000 + 0x0004, 23, 1, .ro, 0⟩
/-- IGL_STAT.SUSPEND [22], RO (R267, Table 9.10): Sample and wick channels suspended (R264). -/
def iglStatSuspend (p : Nat) : Fld :=
  ⟨posBase p + 0x80000 + 0x0004, 22, 1, .ro, 0⟩
/-- IGL_STAT.PF8FLT [5], W1C (R267, Table 9.10): PF8 reported a laser or actuator fault. -/
def iglStatPf8flt (p : Nat) : Fld :=
  ⟨posBase p + 0x80000 + 0x0004, 5, 1, .w1c, 0⟩
/-- IGL_STAT.CTRLFLT [4], W1C (R267, Table 9.10): R257. -/
def iglStatCtrlflt (p : Nat) : Fld :=
  ⟨posBase p + 0x80000 + 0x0004, 4, 1, .w1c, 0⟩
/-- IGL_STAT.SERVOFLT [3], W1C (R267, Table 9.10): R254. -/
def iglStatServoflt (p : Nat) : Fld :=
  ⟨posBase p + 0x80000 + 0x0004, 3, 1, .w1c, 0⟩
/-- IGL_STAT.LANEFAIL [2], W1C (R267, Table 9.10): R263. -/
def iglStatLanefail (p : Nat) : Fld :=
  ⟨posBase p + 0x80000 + 0x0004, 2, 1, .w1c, 0⟩
/-- IGL_STAT.TRAINFAIL [1], W1C (R267, Table 9.10): A lane failed training. -/
def iglStatTrainfail (p : Nat) : Fld :=
  ⟨posBase p + 0x80000 + 0x0004, 1, 1, .w1c, 0⟩
/-- IGL_REASON.CODE [15:0], RO (R267, Table 9.10): Last reason (Table 9.9). -/
def iglReasonCode (p : Nat) : Fld :=
  ⟨posBase p + 0x80000 + 0x0008, 0, 16, .ro, 0⟩
/-- IGL_DELAY.RTT [31:16], RO (R267, Table 9.10): Round-trip delay, 0.25 ns units. -/
def iglDelayRtt (p : Nat) : Fld :=
  ⟨posBase p + 0x80000 + 0x000C, 16, 16, .ro, 0⟩
/-- IGL_DELAY.DDOWN [15:0], RO (R267, Table 9.10): Value written to PF8_DDOWN. -/
def iglDelayDdown (p : Nat) : Fld :=
  ⟨posBase p + 0x80000 + 0x000C, 0, 16, .ro, 0⟩
/-- IGL_LANE.TXPRE [31:24], RO (R267, Table 9.10): Controller transmit preset chosen. -/
def iglLaneTxpre (p : Nat) (l : Nat) : Fld :=
  ⟨posBase p + 0x80000 + 0x0020 + 4 * l, 24, 8, .ro, 0⟩
/-- IGL_LANE.RXPRE [23:16], RO (R267, Table 9.10): PF8 transmit preset chosen. -/
def iglLaneRxpre (p : Nat) (l : Nat) : Fld :=
  ⟨posBase p + 0x80000 + 0x0020 + 4 * l, 16, 8, .ro, 0⟩
/-- IGL_LANE.BADHDR [15:0], RC (R267, Table 9.10): Invalid headers received, saturating. -/
def iglLaneBadhdr (p : Nat) (l : Nat) : Fld :=
  ⟨posBase p + 0x80000 + 0x0020 + 4 * l, 0, 16, .rc, 0⟩
/-- IGL_SCRC.COUNT [31:0], RC (R267, Table 9.10): Sample packets lost or failing CRC. -/
def iglScrcCount (p : Nat) : Fld :=
  ⟨posBase p + 0x80000 + 0x0040, 0, 32, .rc, 0⟩
/-- IGL_SVUP.RECON [31:16], RC (R267, Table 9.10): Upstream data slots reconstructed from parity. -/
def iglSvupRecon (p : Nat) : Fld :=
  ⟨posBase p + 0x80000 + 0x0044, 16, 16, .rc, 0⟩
/-- IGL_SVUP.ERR [15:0], RC (R267, Table 9.10): Upstream data slots in error. -/
def iglSvupErr (p : Nat) : Fld :=
  ⟨posBase p + 0x80000 + 0x0044, 0, 16, .rc, 0⟩
/-- IGL_SVDN.ERR [31:0], RC (R267, Table 9.10): Downstream data slots in error, as reported by the PF8. -/
def iglSvdnErr (p : Nat) : Fld :=
  ⟨posBase p + 0x80000 + 0x0048, 0, 32, .rc, 0⟩
/-- IGL_CRETRY.COUNT [31:0], RC (R267, Table 9.10): Control requests sent again. -/
def iglCretryCount (p : Nat) : Fld :=
  ⟨posBase p + 0x80000 + 0x004C, 0, 32, .rc, 0⟩
/-- IGL_CCMD.GO [31], WO (R267, Table 9.11): 1 sends the request; refused with 0x0907 while BUSY. -/
def iglCcmdGo (p : Nat) : Fld :=
  ⟨posBase p + 0x80000 + 0x0080, 31, 1, .wo, 0⟩
/-- IGL_CCMD.OP [27:24], RW (R267, Table 9.11): 1 read, 2 write. -/
def iglCcmdOp (p : Nat) : Fld :=
  ⟨posBase p + 0x80000 + 0x0080, 24, 4, .rw, 0⟩
/-- IGL_CCMD.ADDR [23:0], RW (R267, Table 9.11): PF8 register address. -/
def iglCcmdAddr (p : Nat) : Fld :=
  ⟨posBase p + 0x80000 + 0x0080, 0, 24, .rw, 0⟩
/-- IGL_CDATA.DATA [31:0], RW (R267, Table 9.11): Write data; read data once RESULT is 1. -/
def iglCdataData (p : Nat) : Fld :=
  ⟨posBase p + 0x80000 + 0x0084, 0, 32, .rw, 0⟩
/-- IGL_CSTAT.BUSY [31], RO (R267, Table 9.11): Request outstanding. -/
def iglCstatBusy (p : Nat) : Fld :=
  ⟨posBase p + 0x80000 + 0x0088, 31, 1, .ro, 0⟩
/-- IGL_CSTAT.RESULT [30:28], RO (R267, Table 9.11): 0 none, 1 done, 2 PF8 status not 0, 3 attempts exhausted. -/
def iglCstatResult (p : Nat) : Fld :=
  ⟨posBase p + 0x80000 + 0x0088, 28, 3, .ro, 0⟩
/-- IGL_CSTAT.TRIES [23:16], RO (R267, Table 9.11): Attempts made. -/
def iglCstatTries (p : Nat) : Fld :=
  ⟨posBase p + 0x80000 + 0x0088, 16, 8, .ro, 0⟩
/-- IGL_CSTAT.PSTAT [15:8], RO (R267, Table 9.11): PF8 status byte. -/
def iglCstatPstat (p : Nat) : Fld :=
  ⟨posBase p + 0x80000 + 0x0088, 8, 8, .ro, 0⟩
/-- IGL_CSTAT.ERR [0], W1C (R267, Table 9.11): GO while busy. -/
def iglCstatErr (p : Nat) : Fld :=
  ⟨posBase p + 0x80000 + 0x0088, 0, 1, .w1c, 0⟩
/-- IGL_EVT.VALID [63], RC (R267, Table 9.11): An event is present; the read removes it from the 32-entry queue. -/
def iglEvtValid (p : Nat) : Fld :=
  ⟨posBase p + 0x80000 + 0x0090, 63, 1, .rc, 0⟩
/-- IGL_EVT.OVF [62], RC (R267, Table 9.11): Events lost to a full queue since the last read. -/
def iglEvtOvf (p : Nat) : Fld :=
  ⟨posBase p + 0x80000 + 0x0090, 62, 1, .rc, 0⟩
/-- IGL_EVT.CODE [55:48], RC (R267, Table 9.11): Event code (R257); 0x10 + source for an upstream SNUFF. -/
def iglEvtCode (p : Nat) : Fld :=
  ⟨posBase p + 0x80000 + 0x0090, 48, 8, .rc, 0⟩
/-- IGL_EVT.MASK [47:40], RC (R267, Table 9.11): Pickup mask. -/
def iglEvtMask (p : Nat) : Fld :=
  ⟨posBase p + 0x80000 + 0x0090, 40, 8, .rc, 0⟩
/-- IGL_EVT.DATA [31:0], RC (R267, Table 9.11): Event data. -/
def iglEvtData (p : Nat) : Fld :=
  ⟨posBase p + 0x80000 + 0x0090, 0, 32, .rc, 0⟩

/-- Every register of the block, by address (R18): what is not listed reads zero and ignores writes. -/
def srvRegs (p : Nat) : List Reg :=
  [⟨posBase p + 0x0000, 32, [srvCtrlEn p]⟩,
   ⟨posBase p + 0x0004, 32, [srvStatSpare p, srvStatFoclost p, srvStatHeld p, srvStatRun p]⟩,
   ⟨posBase p + 0x0008, 64, [srvTickTick p]⟩,
   ⟨posBase p + 0x0010, 32, [srvSnuffLatch p, srvSnuffClr p, srvSnuffLive p, srvSnuffSeen p]⟩,
   ⟨posBase p + 0x0014, 32, [srvLimOfftrk p, srvLimFoclim p]⟩,
   ⟨posBase p + 0x0018, 32, [srvLaneFailed p, srvLaneFenceB p, srvLaneFenceA p, srvLaneSpare p, srvLaneStrikeS p, srvLaneStrikeB p, srvLaneStrikeA p]⟩,
   ⟨posBase p + 0x001C, 32, [srvMismCount p, srvMismLoop p]⟩,
   ⟨posBase p + 0x0020, 32, [srvCentreCentre p]⟩,
   ⟨posBase p + 0x0028, 32, [srvJmpgoMask p]⟩,
   ⟨posBase p + 0x3FF00, 32, [posCfgPack p, posCfgEn p]⟩,
   ⟨posBase p + 0x3FF04, 32, [posChkReason p]⟩] ++
  (List.range 8).map (fun s => ⟨posBase p + 0x0100 + 8 * s, 64, [srvSpTilt p s, srvSpTrack p s, srvSpFocus p s]⟩)

/-- The registers of loop block l (Table 5.10), coefficients apart. -/
def loopRegs (p l : Nat) : List Reg :=
  [⟨posBase p + 0x1000 + 0x200 * l + 0x00, 32, [loopCtrlGainNow p l, loopCtrlShift p l, loopCtrlNbq p l, loopCtrlBank p l, loopCtrlMode p l]⟩,
   ⟨posBase p + 0x1000 + 0x200 * l + 0x04, 32, [loopFlagsBankerr p l, loopFlagsModeerr p l, loopFlagsHeld p l, loopFlagsMism p l, loopFlagsSatOut p l, loopFlagsSatInt p l, loopFlagsSatAcc p l]⟩,
   ⟨posBase p + 0x1000 + 0x200 * l + 0x08, 32, [loopGainGain p l]⟩,
   ⟨posBase p + 0x1000 + 0x200 * l + 0x0C, 32, [loopGainaApplied p l]⟩,
   ⟨posBase p + 0x1000 + 0x200 * l + 0x10, 32, [loopKiKi p l]⟩,
   ⟨posBase p + 0x1000 + 0x200 * l + 0x14, 32, [loopIlimIlim p l]⟩,
   ⟨posBase p + 0x1000 + 0x200 * l + 0x18, 32, [loopOutlimOutMax p l, loopOutlimOutMin p l]⟩,
   ⟨posBase p + 0x1000 + 0x200 * l + 0x1C, 32, [loopOpenPark p l, loopOpenDrive p l]⟩,
   ⟨posBase p + 0x1000 + 0x200 * l + 0x20, 64, [loopLastCode p l, loopLastErr p l]⟩,
   ⟨posBase p + 0x1000 + 0x200 * l + 0x28, 32, [loopIntInteg p l]⟩]

/-- The registers of the jump sequencer of surface s (Table 5.11). -/
def jmpRegs (p s : Nat) : List Reg :=
  [⟨posBase p + 0x4000 + 0x40 * s + 0x00, 32, [jmpCtrlGo p s, jmpCtrlAbort p s, jmpCtrlCount p s, jmpCtrlDir p s, jmpCtrlKind p s]⟩,
   ⟨posBase p + 0x4000 + 0x40 * s + 0x04, 32, [jmpCfgKick p s, jmpCfgKickT p s, jmpCfgBrakeT p s]⟩,
   ⟨posBase p + 0x4000 + 0x40 * s + 0x08, 32, [jmpSweepEnd p s, jmpSweepRate p s]⟩,
   ⟨posBase p + 0x4000 + 0x40 * s + 0x0C, 32, [jmpTmoSumMin p s, jmpTmoTmo p s]⟩,
   ⟨posBase p + 0x4000 + 0x40 * s + 0x10, 32, [jmpStatBusy p s, jmpStatResult p s, jmpStatCross p s, jmpStatElapsed p s]⟩]

/-- Every register of the block, by address (R18): what is not listed reads zero and ignores writes. -/
def spnRegs (p : Nat) : List Reg :=
  [⟨posBase p + 0x40000 + 0x0000, 32, [spnCmdOp p]⟩,
   ⟨posBase p + 0x40000 + 0x0004, 32, [spnStatState p, spnStatRetry p, spnStatLock p, spnStatAvalid p, spnStatChopflt p, spnStatIpeak p, spnStatIskip p, spnStatOv3 p, spnStatOv2 p, spnStatOv1 p, spnStatLocked p, spnStatReverse p, spnStatCmderr p]⟩,
   ⟨posBase p + 0x40000 + 0x0008, 32, [spnReasonCode p]⟩,
   ⟨posBase p + 0x40000 + 0x000C, 32, [spnCfgPoles p, spnCfgNeutral p, spnCfgBlank p]⟩,
   ⟨posBase p + 0x40000 + 0x0010, 32, [spnSpdDegraded p, spnSpdTarget p]⟩,
   ⟨posBase p + 0x40000 + 0x0014, 32, [spnRampOlRate p, spnRampAccel p]⟩,
   ⟨posBase p + 0x40000 + 0x0018, 32, [spnStartHandover p, spnStartAlignT p]⟩,
   ⟨posBase p + 0x40000 + 0x001C, 32, [spnIlimAlignI p, spnIlimIlim p]⟩,
   ⟨posBase p + 0x40000 + 0x0020, 32, [spnProtIpeak p, spnProtMinon p]⟩,
   ⟨posBase p + 0x40000 + 0x0024, 32, [spnSloopKp p, spnSloopKi p]⟩,
   ⟨posBase p + 0x40000 + 0x0028, 32, [spnIloopKp p, spnIloopKi p]⟩,
   ⟨posBase p + 0x40000 + 0x002C, 32, [spnSmpT1 p, spnSmpT2 p]⟩,
   ⟨posBase p + 0x40000 + 0x0030, 32, [spnOvaOv1 p, spnOvaOv1Off p]⟩,
   ⟨posBase p + 0x40000 + 0x0034, 32, [spnOvbOv2 p, spnOvbOv3 p]⟩,
   ⟨posBase p + 0x40000 + 0x0038, 32, [spnMeasVbus p, spnMeasSpeed p]⟩,
   ⟨posBase p + 0x40000 + 0x003C, 32, [spnIphStep p, spnIphCurrent p]⟩,
   ⟨posBase p + 0x40000 + 0x0040, 64, [spnAngleRev p, spnAngleFrac p]⟩,
   ⟨posBase p + 0x40000 + 0x0060, 32, [spnGateDeadt p, spnGateSlewCh p, spnGateSlewWl p, spnGateSlewWh p, spnGateSlewVl p, spnGateSlewVh p, spnGateSlewUl p, spnGateSlewUh p]⟩] ++
  (List.range 4).map (fun j => ⟨posBase p + 0x40000 + 0x0050 + 4 * j, 32, [spnAdvAdv3 p j, spnAdvAdv2 p j, spnAdvAdv1 p j, spnAdvAdv0 p j]⟩)

/-- Every register of the block, by address (R18): what is not listed reads zero and ignores writes. -/
def carRegs (p : Nat) : List Reg :=
  [⟨posBase p + 0x60000 + 0x0000, 32, [carCmdOp p]⟩,
   ⟨posBase p + 0x60000 + 0x0004, 32, [carStatState p, carStatPvalid p, carStatSettled p, carStatBusy p, carStatLimclip p, carStatLimstop p, carStatFerr p, carStatEncerr p, carStatOvc p, carStatMlost p, carStatGearfire p, carStatCmderr p]⟩,
   ⟨posBase p + 0x60000 + 0x0008, 32, [carReasonCode p]⟩,
   ⟨posBase p + 0x60000 + 0x000C, 32, [carCfgStepCnt p, carCfgEncInv p, carCfgRamp p]⟩,
   ⟨posBase p + 0x60000 + 0x0010, 32, [carPosPos p]⟩,
   ⟨posBase p + 0x60000 + 0x0018, 64, [carRefInt p, carRefFrac p]⟩,
   ⟨posBase p + 0x60000 + 0x0020, 32, [carTgtTgt p]⟩,
   ⟨posBase p + 0x60000 + 0x0024, 32, [carSeekTgt p]⟩,
   ⟨posBase p + 0x60000 + 0x0028, 32, [carVmaxVmax p]⟩,
   ⟨posBase p + 0x60000 + 0x002C, 32, [carAccJmax p, carAccAmax p]⟩,
   ⟨posBase p + 0x60000 + 0x0030, 32, [carVlimInPos p]⟩,
   ⟨posBase p + 0x60000 + 0x0034, 32, [carVlimOutPos p]⟩,
   ⟨posBase p + 0x60000 + 0x0038, 32, [carParkPos p]⟩,
   ⟨posBase p + 0x60000 + 0x003C, 32, [carSettleWin p, carSettleN p]⟩,
   ⟨posBase p + 0x60000 + 0x0040, 32, [carFerrMax p]⟩,
   ⟨posBase p + 0x60000 + 0x0044, 32, [carIlimHold p, carIlimImax p]⟩,
   ⟨posBase p + 0x60000 + 0x0048, 32, [carPloop0Kp p, carPloop0Ki p]⟩,
   ⟨posBase p + 0x60000 + 0x004C, 32, [carPloop1Kd p, carPloop1Ka p]⟩,
   ⟨posBase p + 0x60000 + 0x0050, 32, [carCtrKc p, carCtrLim p]⟩,
   ⟨posBase p + 0x60000 + 0x0054, 32, [carAlignOfs p]⟩,
   ⟨posBase p + 0x60000 + 0x0058, 32, [carIdxPos p]⟩,
   ⟨posBase p + 0x60000 + 0x005C, 32, [carHomeV p, carHomeTmo p]⟩,
   ⟨posBase p + 0x60000 + 0x0060, 32, [carPwmSlewBn p, carPwmSlewBp p, carPwmSlewAn p, carPwmSlewAp p]⟩,
   ⟨posBase p + 0x60000 + 0x0080, 64, [carGear0Ratio p]⟩,
   ⟨posBase p + 0x60000 + 0x0088, 32, [carGtctlNext p, carGtctlN p]⟩,
   ⟨posBase p + 0x60000 + 0x00D8, 64, [carGratioRatio p]⟩,
   ⟨posBase p + 0x60000 + 0x00D0, 32, [carTblrefDref p]⟩,
   ⟨posBase p + 0x60000 + 0x00D4, 32, [carTblnN p]⟩] ++
  (List.range 4).map (fun i => ⟨posBase p + 0x60000 + 0x0090 + 0x10 * i, 32, [carGtposPos p i]⟩) ++
  (List.range 4).map (fun i => ⟨posBase p + 0x60000 + 0x0098 + 0x10 * i, 64, [carGtratRatio p i]⟩) ++
  (List.range 64).map (fun i => ⟨posBase p + 0x60000 + 0x0100 + 0x10 * i + 0x0, 32, [carTblT p i]⟩) ++
  (List.range 64).map (fun i => ⟨posBase p + 0x60000 + 0x0100 + 0x10 * i + 0x4, 32, [carTblX p i]⟩) ++
  (List.range 64).map (fun i => ⟨posBase p + 0x60000 + 0x0100 + 0x10 * i + 0x8, 32, [carTblV p i]⟩)

/-- Every register of the block, by address (R18): what is not listed reads zero and ignores writes. -/
def iglRegs (p : Nat) : List Reg :=
  [⟨posBase p + 0x80000 + 0x0000, 32, [iglCtrlLaneDis p, iglCtrlTrain p, iglCtrlEn p]⟩,
   ⟨posBase p + 0x80000 + 0x0004, 32, [iglStatState p, iglStatLanes p, iglStatDegraded p, iglStatSuspend p, iglStatPf8flt p, iglStatCtrlflt p, iglStatServoflt p, iglStatLanefail p, iglStatTrainfail p]⟩,
   ⟨posBase p + 0x80000 + 0x0008, 32, [iglReasonCode p]⟩,
   ⟨posBase p + 0x80000 + 0x000C, 32, [iglDelayRtt p, iglDelayDdown p]⟩,
   ⟨posBase p + 0x80000 + 0x0040, 32, [iglScrcCount p]⟩,
   ⟨posBase p + 0x80000 + 0x0044, 32, [iglSvupRecon p, iglSvupErr p]⟩,
   ⟨posBase p + 0x80000 + 0x0048, 32, [iglSvdnErr p]⟩,
   ⟨posBase p + 0x80000 + 0x004C, 32, [iglCretryCount p]⟩,
   ⟨posBase p + 0x80000 + 0x0080, 32, [iglCcmdGo p, iglCcmdOp p, iglCcmdAddr p]⟩,
   ⟨posBase p + 0x80000 + 0x0084, 32, [iglCdataData p]⟩,
   ⟨posBase p + 0x80000 + 0x0088, 32, [iglCstatBusy p, iglCstatResult p, iglCstatTries p, iglCstatPstat p, iglCstatErr p]⟩,
   ⟨posBase p + 0x80000 + 0x0090, 64, [iglEvtValid p, iglEvtOvf p, iglEvtCode p, iglEvtMask p, iglEvtData p]⟩] ++
  (List.range 4).map (fun l => ⟨posBase p + 0x80000 + 0x0020 + 4 * l, 32, [iglLaneTxpre p l, iglLaneRxpre p l, iglLaneBadhdr p l]⟩)

end Sys2Proof.Machine.R
end

