-- ==== Sys2Proof/Machine/RegsSystem.lean ====
section
/-! DEFINITION. The registers of LAMP, CLK, PWR, TIME, FLT, MTL and CAL (chapters 8 and 15 to 18).
One definition per field of the register tables of the spec, with its offset, low bit, width, access code and
reset value as the table gives them, and the register map of each block for reads and writes by address. -/

namespace Sys2Proof.Machine.R

/-- LAMP_CAUSE.WDT [11], W1C (R450, Table 16.9): Table 16.2; each bit kept through system and core reset. -/
def lampCauseWdt : Fld :=
  ⟨0x02_0000_0000 + 0x0000, 11, 1, .w1c, 0⟩
/-- LAMP_CAUSE.SWCORE [10], W1C (R450, Table 16.9). -/
def lampCauseSwcore : Fld :=
  ⟨0x02_0000_0000 + 0x0000, 10, 1, .w1c, 0⟩
/-- LAMP_CAUSE.DBG [9], W1C (R450, Table 16.9). -/
def lampCauseDbg : Fld :=
  ⟨0x02_0000_0000 + 0x0000, 9, 1, .w1c, 0⟩
/-- LAMP_CAUSE.MTL [8], W1C (R450, Table 16.9). -/
def lampCauseMtl : Fld :=
  ⟨0x02_0000_0000 + 0x0000, 8, 1, .w1c, 0⟩
/-- LAMP_CAUSE.FWACT [7], W1C (R450, Table 16.9). -/
def lampCauseFwact : Fld :=
  ⟨0x02_0000_0000 + 0x0000, 7, 1, .w1c, 0⟩
/-- LAMP_CAUSE.SWSYS [6], W1C (R450, Table 16.9). -/
def lampCauseSwsys : Fld :=
  ⟨0x02_0000_0000 + 0x0000, 6, 1, .w1c, 0⟩
/-- LAMP_CAUSE.BOOTTMO [5], W1C (R450, Table 16.9). -/
def lampCauseBoottmo : Fld :=
  ⟨0x02_0000_0000 + 0x0000, 5, 1, .w1c, 0⟩
/-- LAMP_CAUSE.PFRET [4], W1C (R450, Table 16.9). -/
def lampCausePfret : Fld :=
  ⟨0x02_0000_0000 + 0x0000, 4, 1, .w1c, 0⟩
/-- LAMP_CAUSE.PERST [3], W1C (R450, Table 16.9). -/
def lampCausePerst : Fld :=
  ⟨0x02_0000_0000 + 0x0000, 3, 1, .w1c, 0⟩
/-- LAMP_CAUSE.PIN [2], W1C (R450, Table 16.9). -/
def lampCausePin : Fld :=
  ⟨0x02_0000_0000 + 0x0000, 2, 1, .w1c, 0⟩
/-- LAMP_CAUSE.MAINSUP [1], W1C (R450, Table 16.9). -/
def lampCauseMainsup : Fld :=
  ⟨0x02_0000_0000 + 0x0000, 1, 1, .w1c, 0⟩
/-- LAMP_CAUSE.POR [0], W1C (R450, Table 16.9): Set alone by a power-on reset. -/
def lampCausePor : Fld :=
  ⟨0x02_0000_0000 + 0x0000, 0, 1, .w1c, 1⟩
/-- LAMP_STAT.FAILCNT [31:28], RO (R450, Table 16.9): Failed starts recorded. Reset: option. -/
def lampStatFailcnt : Fld :=
  ⟨0x02_0000_0000 + 0x0004, 28, 4, .ro, 0x0⟩
/-- LAMP_STAT.RECOV_MAX [27:24], RO (R450, Table 16.9): Threshold in force. Reset: option. -/
def lampStatRecovMax : Fld :=
  ⟨0x02_0000_0000 + 0x0004, 24, 4, .ro, 0x3⟩
/-- LAMP_STAT.RECOVERY [7], RO (R450, Table 16.9): Recovery mode. -/
def lampStatRecovery : Fld :=
  ⟨0x02_0000_0000 + 0x0004, 7, 1, .ro, 0⟩
/-- LAMP_STAT.OPTERR [6], RO (R450, Table 16.9): Option page defaults in use (R436). -/
def lampStatOpterr : Fld :=
  ⟨0x02_0000_0000 + 0x0004, 6, 1, .ro, 0⟩
/-- LAMP_STAT.BOOTOK [5], RO (R450, Table 16.9): Boot-ok written in this start. -/
def lampStatBootok : Fld :=
  ⟨0x02_0000_0000 + 0x0004, 5, 1, .ro, 0⟩
/-- LAMP_STAT.TRIAL [4], RO (R450, Table 16.9): Preferred slot on trial. Reset: option. -/
def lampStatTrial : Fld :=
  ⟨0x02_0000_0000 + 0x0004, 4, 1, .ro, 0x0⟩
/-- LAMP_STAT.PREF [3], RO (R450, Table 16.9): Preferred slot, 0 A, 1 B. Reset: option. -/
def lampStatPref : Fld :=
  ⟨0x02_0000_0000 + 0x0004, 3, 1, .ro, 0x0⟩
/-- LAMP_STAT.SLOT [2], RO (R450, Table 16.9): Slot that started the running image. -/
def lampStatSlot : Fld :=
  ⟨0x02_0000_0000 + 0x0004, 2, 1, .ro, 0⟩
/-- LAMP_SWRST.KEY [31:24], WO (R450, Table 16.9): Must be 0xA5, or the write is ignored. -/
def lampSwrstKey : Fld :=
  ⟨0x02_0000_0000 + 0x0008, 24, 8, .wo, 0⟩
/-- LAMP_SWRST.SYS [1], WO (R450, Table 16.9): 1 applies a system reset. -/
def lampSwrstSys : Fld :=
  ⟨0x02_0000_0000 + 0x0008, 1, 1, .wo, 0⟩
/-- LAMP_SWRST.CORE [0], WO (R450, Table 16.9): 1 applies a core reset; SYS takes precedence. -/
def lampSwrstCore : Fld :=
  ⟨0x02_0000_0000 + 0x0008, 0, 1, .wo, 0⟩
/-- LAMP_BOOTOK.OK [0], WO (R450, Table 16.9): 1 signals boot-ok (R440). -/
def lampBootokOk : Fld :=
  ⟨0x02_0000_0000 + 0x000C, 0, 1, .wo, 0⟩
/-- LAMP_CREL.REL [5:1], W1S (R450, Table 16.9): Bit c: core Cc released; cleared only by a reset that resets the cores. -/
def lampCrelRel : Fld :=
  ⟨0x02_0000_0000 + 0x0010, 1, 5, .w1s, 0⟩
/-- LAMP_CREL.C0 [0], RO (R450, Table 16.9): C0 released. -/
def lampCrelC0 : Fld :=
  ⟨0x02_0000_0000 + 0x0010, 0, 1, .ro, 0⟩
/-- LAMP_WDT.EN [31], W1S (R450, Table 16.9): Watchdog running (R444). -/
def lampWdtEn : Fld :=
  ⟨0x02_0000_0000 + 0x0014, 31, 1, .w1s, 0⟩
/-- LAMP_WDT.PERIOD [19:0], RW (R450, Table 16.9): µs; below 0x32 acts as 0x32; above 0xF_4240 acts as 0xF_4240; writes ignored while EN is 1. -/
def lampWdtPeriod : Fld :=
  ⟨0x02_0000_0000 + 0x0014, 0, 20, .rw, 0x0_0096⟩
/-- LAMP_WDKICK.KICK [0], WO (R450, Table 16.9): 1 restarts the count. -/
def lampWdkickKick : Fld :=
  ⟨0x02_0000_0000 + 0x0018, 0, 1, .wo, 0⟩
/-- LAMP_BRST.GO [31], WO (R450, Table 16.9): 1 starts a single-block reset (R445). -/
def lampBrstGo : Fld :=
  ⟨0x02_0000_0000 + 0x0020, 31, 1, .wo, 0⟩
/-- LAMP_BRST.KIND [8], RW (R450, Table 16.9): 0 beam engine, 1 position. -/
def lampBrstKind : Fld :=
  ⟨0x02_0000_0000 + 0x0020, 8, 1, .rw, 0⟩
/-- LAMP_BRST.INDEX [4:0], RW (R450, Table 16.9): Engine 0 to 23 or position 0 to 7. -/
def lampBrstIndex : Fld :=
  ⟨0x02_0000_0000 + 0x0020, 0, 5, .rw, 0⟩
/-- LAMP_BRSTAT.BUSY [31], RO (R450, Table 16.9): Reset in progress. -/
def lampBrstatBusy : Fld :=
  ⟨0x02_0000_0000 + 0x0024, 31, 1, .ro, 0⟩
/-- LAMP_BRSTAT.RESULT [30:28], RO (R450, Table 16.9): 0 none, 1 idle reached, 2 forced, 3 refused. -/
def lampBrstatResult : Fld :=
  ⟨0x02_0000_0000 + 0x0024, 28, 3, .ro, 0⟩
/-- LAMP_BRTO.TMO [16:0], RW (R450, Table 16.9): Idle timeout, µs; below 0xA acts as 0xA; above 0x1_86A0 acts as 0x1_86A0. -/
def lampBrtoTmo : Fld :=
  ⟨0x02_0000_0000 + 0x0028, 0, 17, .rw, 0x0_0064⟩
/-- LAMP_OPT.SSID [63:48], RO (R450, Table 16.9): Table 16.4. Reset: option. -/
def lampOptSsid : Fld :=
  ⟨0x02_0000_0000 + 0x0030, 48, 16, .ro, 0x0⟩
/-- LAMP_OPT.SSVID [47:32], RO (R450, Table 16.9). Reset: option. -/
def lampOptSsvid : Fld :=
  ⟨0x02_0000_0000 + 0x0030, 32, 16, .ro, 0x0⟩
/-- LAMP_OPT.MEM [31:24], RO (R450, Table 16.9). Reset: option. -/
def lampOptMem : Fld :=
  ⟨0x02_0000_0000 + 0x0030, 24, 8, .ro, 0x51⟩
/-- LAMP_OPT.PCIE [23:16], RO (R450, Table 16.9). Reset: option. -/
def lampOptPcie : Fld :=
  ⟨0x02_0000_0000 + 0x0030, 16, 8, .ro, 0x58⟩
/-- LAMP_OPT.POS_EN [15:8], RO (R450, Table 16.9): Combined with the OTP part mask. Reset: option. -/
def lampOptPosEn : Fld :=
  ⟨0x02_0000_0000 + 0x0030, 8, 8, .ro, 0xff⟩
/-- LAMP_OPT.PERST_LVL [2], RO (R450, Table 16.9). Reset: option. -/
def lampOptPerstLvl : Fld :=
  ⟨0x02_0000_0000 + 0x0030, 2, 1, .ro, 0x0⟩
/-- LAMP_OPT.DBGLOCK [1], RO (R450, Table 16.9): Combined lock. Reset: option. -/
def lampOptDbglock : Fld :=
  ⟨0x02_0000_0000 + 0x0030, 1, 1, .ro, 0x1⟩
/-- LAMP_OPT.BOOTSRC [0], RO (R450, Table 16.9). Reset: option. -/
def lampOptBootsrc : Fld :=
  ⟨0x02_0000_0000 + 0x0030, 0, 1, .ro, 0x0⟩
/-- CLK_SRC.X32 [2], RO (R428, Table 15.10): 32.768 kHz crystal present. -/
def clkSrcX32 : Fld :=
  ⟨0x02_0010_0000 + 0x0000, 2, 1, .ro, 0⟩
/-- CLK_SRC.REF [1], RO (R428, Table 15.10): PCIe reference clock present. -/
def clkSrcRef : Fld :=
  ⟨0x02_0010_0000 + 0x0000, 1, 1, .ro, 0⟩
/-- CLK_SRC.XTAL [0], RO (R428, Table 15.10): 25 MHz crystal present. -/
def clkSrcXtal : Fld :=
  ⟨0x02_0010_0000 + 0x0000, 0, 1, .ro, 0⟩
/-- CLK_PLL.LOCK [31], RO (R428, Table 15.10): Locked. -/
def clkPllLock (n : Nat) : Fld :=
  ⟨0x02_0010_0000 + 0x0100 + 8 * n, 31, 1, .ro, 0⟩
/-- CLK_PLL.ON [30], RO (R428, Table 15.10): Running. -/
def clkPllOn (n : Nat) : Fld :=
  ⟨0x02_0010_0000 + 0x0100 + 8 * n, 30, 1, .ro, 0⟩
/-- CLK_PLL.SSC [1], RW (R428, Table 15.10): Spread on; RO 0 for n = 5 to 14. -/
def clkPllSsc (n : Nat) : Fld :=
  ⟨0x02_0010_0000 + 0x0100 + 8 * n, 1, 1, .rw, (if n ≤ 4 then 1 else 0)⟩
/-- CLK_PLL.FORCE [0], RW (R428, Table 15.10): Keep running without a consumer (R409). -/
def clkPllForce (n : Nat) : Fld :=
  ⟨0x02_0010_0000 + 0x0100 + 8 * n, 0, 1, .rw, 0⟩
/-- CLK_DSTAT.RUN [31:0], RO (R428, Table 15.10): Bit i: domain 32k + i running; bits above d = 202 read 0. -/
def clkDstatRun (k : Nat) : Fld :=
  ⟨0x02_0010_0000 + 0x0200 + 4 * k, 0, 32, .ro, 0⟩
/-- CLK_ZEN.EN [3:0], RW (R428, Table 15.10): Bit n: clock of engine Zn enabled (R419). -/
def clkZenEn : Fld :=
  ⟨0x02_0010_0000 + 0x0300, 0, 4, .rw, 0xF⟩
/-- CLK_XSTAT.FLUSH [15:8], RC (R428, Table 15.10): Requests ended by R415, saturating. -/
def clkXstatFlush : Fld :=
  ⟨0x02_0010_0000 + 0x0310, 8, 8, .rc, 0⟩
/-- CLK_XSTAT.MODE [0], RO (R428, Table 15.10): 0 two flip-flops, 1 request and acknowledge (R413). -/
def clkXstatMode : Fld :=
  ⟨0x02_0010_0000 + 0x0310, 0, 1, .ro, 0⟩
/-- CLK_REASON.CODE [15:0], RO (R428, Table 15.10): Last reason (Table 15.9). -/
def clkReasonCode : Fld :=
  ⟨0x02_0010_0000 + 0x0320, 0, 16, .ro, 0⟩
/-- PWR_ENG.ON [23:0], RW (R429, Table 15.11): Bit e: engine Ee powered (R418). -/
def pwrEngOn : Fld :=
  ⟨0x02_0020_0000 + 0x0000, 0, 24, .rw, 0⟩
/-- PWR_ENGRDY.RDY [23:0], RO (R429, Table 15.11): Bit e: engine Ee ready. -/
def pwrEngrdyRdy : Fld :=
  ⟨0x02_0020_0000 + 0x0004, 0, 24, .ro, 0⟩
/-- PWR_SAFE.LASER [8], RO (R429, Table 15.11): LASER_EN held low. -/
def pwrSafeLaser : Fld :=
  ⟨0x02_0020_0000 + 0x0010, 8, 1, .ro, 1⟩
/-- PWR_SAFE.POS [7:0], RO (R429, Table 15.11): Bit p: spindle, chopper and carriage outputs of Pp held off. -/
def pwrSafePos : Fld :=
  ⟨0x02_0020_0000 + 0x0010, 0, 8, .ro, 0xFF⟩
/-- PWR_SAFECLR.LASER [8], WO (R429, Table 15.11): 1 releases LASER_EN once no bit of PWR_SAFE.POS is 1. -/
def pwrSafeclrLaser : Fld :=
  ⟨0x02_0020_0000 + 0x0014, 8, 1, .wo, 0⟩
/-- PWR_SAFECLR.POS [7:0], WO (R429, Table 15.11): Bit p: 1 releases Pp when its POS_CFG.EN is 1; otherwise ignored. -/
def pwrSafeclrPos : Fld :=
  ⟨0x02_0020_0000 + 0x0014, 0, 8, .wo, 0⟩
/-- PWR_STAT.RC [2], RO (R429, Table 15.11): EMB on the RC oscillator (R406). -/
def pwrStatRc : Fld :=
  ⟨0x02_0020_0000 + 0x0018, 2, 1, .ro, 0⟩
/-- PWR_STAT.EMBKEPT [1], RO (R429, Table 15.11): The EMB domain was kept through the last reset (R417). -/
def pwrStatEmbkept : Fld :=
  ⟨0x02_0020_0000 + 0x0018, 1, 1, .ro, 0⟩
/-- PWR_STAT.PF [0], RO (R429, Table 15.11): PWRFAIL_N low now. -/
def pwrStatPf : Fld :=
  ⟨0x02_0020_0000 + 0x0018, 0, 1, .ro, 0⟩
/-- PWR_RTC.COUNT [47:0], RO (R429, Table 15.11): Cycles of the EMB clock since power-on. -/
def pwrRtcCount : Fld :=
  ⟨0x02_0020_0000 + 0x0020, 0, 48, .ro, 0⟩
/-- TIME_NOW.NS [63:0], RO (R484, Table 18.6): Present count (R478). -/
def timeNowNs : Fld :=
  ⟨0x02_0030_0000 + 0x0000, 0, 64, .ro, 0⟩
/-- TIME_STAT.UNSET [2], RO (R484, Table 18.6): No acquisition since power-on. -/
def timeStatUnset : Fld :=
  ⟨0x02_0030_0000 + 0x0008, 2, 1, .ro, 1⟩
/-- TIME_STAT.HOLDOVER [1], RO (R484, Table 18.6): No accepted edge for 1.5 s. -/
def timeStatHoldover : Fld :=
  ⟨0x02_0030_0000 + 0x0008, 1, 1, .ro, 1⟩
/-- TIME_STAT.LOCKED [0], RO (R484, Table 18.6): AVG edges taken since the last acquisition. -/
def timeStatLocked : Fld :=
  ⟨0x02_0030_0000 + 0x0008, 0, 1, .ro, 0⟩
/-- TIME_TRIM.TRIM [31:0], RO (R484, Table 18.6): Rate trim, signed, 2⁻³² per ns. -/
def timeTrimTrim : Fld :=
  ⟨0x02_0030_0000 + 0x0010, 0, 32, .ro, 0⟩
/-- TIME_SETSEC.SEC [33:0], WO (R484, Table 18.6): Whole seconds, applied at the next accepted edge. -/
def timeSetsecSec : Fld :=
  ⟨0x02_0030_0000 + 0x0018, 0, 34, .wo, 0⟩
/-- TIME_PPSCFG.AVG [31:24], RW (R484, Table 18.6): Edges per trim update; 0 acts as 1. -/
def timePpscfgAvg : Fld :=
  ⟨0x02_0030_0000 + 0x0020, 24, 8, .rw, 0x10⟩
/-- TIME_PPSCFG.WIN [23:0], RW (R484, Table 18.6): Correction window, ns. -/
def timePpscfgWin : Fld :=
  ⟨0x02_0030_0000 + 0x0020, 0, 24, .rw, 0x00_03E8⟩
/-- TIME_PPS.REJ [63:48], RC (R484, Table 18.6): Edges ignored or corrections rejected, saturating. -/
def timePpsRej : Fld :=
  ⟨0x02_0030_0000 + 0x0028, 48, 16, .rc, 0⟩
/-- TIME_PPSCAP.NS [63:0], RO (R484, Table 18.6): Count at the last accepted edge, before correction. -/
def timePpscapNs : Fld :=
  ⟨0x02_0030_0000 + 0x0030, 0, 64, .ro, 0⟩
/-- FLT_STAT.WRAP [2], W1C (R484, Table 18.5): The ring overwrote a record. -/
def fltStatWrap : Fld :=
  ⟨0x02_0040_0000 + 0x0000, 2, 1, .w1c, 0⟩
/-- FLT_STAT.FATAL [1], RO (R484, Table 18.5): Fault state (R474). -/
def fltStatFatal : Fld :=
  ⟨0x02_0040_0000 + 0x0000, 1, 1, .ro, 0⟩
/-- FLT_STAT.NEW [0], W1C (R484, Table 18.5): A record was appended. -/
def fltStatNew : Fld :=
  ⟨0x02_0040_0000 + 0x0000, 0, 1, .w1c, 0⟩
/-- FLT_SEQ.SEQ [63:0], RO (R484, Table 18.5): SEQ of the newest record. -/
def fltSeqSeq : Fld :=
  ⟨0x02_0040_0000 + 0x0008, 0, 64, .ro, 0⟩
/-- FLT_LAST.POS [31:24], RO (R484, Table 18.5): POS of the newest record. -/
def fltLastPos : Fld :=
  ⟨0x02_0040_0000 + 0x0010, 24, 8, .ro, 0⟩
/-- FLT_LAST.SOURCE [23:16], RO (R484, Table 18.5): SOURCE of the newest record. -/
def fltLastSource : Fld :=
  ⟨0x02_0040_0000 + 0x0010, 16, 8, .ro, 0⟩
/-- FLT_LAST.REASON [15:0], RO (R484, Table 18.5): REASON of the newest record. -/
def fltLastReason : Fld :=
  ⟨0x02_0040_0000 + 0x0010, 0, 16, .ro, 0⟩
/-- FLT_VMON.OUT [6:0], RO (R484, Table 18.5): Bit n: supply n out of range, in the order of R475. -/
def fltVmonOut : Fld :=
  ⟨0x02_0040_0000 + 0x0018, 0, 7, .ro, 0⟩
/-- MTL_CMD.GO [31], WO (R468, Table 17.5): 1 starts the operation (R467). -/
def mtlCmdGo : Fld :=
  ⟨0x02_00A0_0000 + 0x0000, 31, 1, .wo, 0⟩
/-- MTL_CMD.OP [7:0], RW (R468, Table 17.5): Table 17.3. -/
def mtlCmdOp : Fld :=
  ⟨0x02_00A0_0000 + 0x0000, 0, 8, .rw, 0⟩
/-- MTL_STAT.BUSY [31], RO (R468, Table 17.5): Operation running. -/
def mtlStatBusy : Fld :=
  ⟨0x02_00A0_0000 + 0x0004, 31, 1, .ro, 0⟩
/-- MTL_STAT.RESULT [30:28], RO (R468, Table 17.5): 0 none, 1 done, 2 refused, 3 failed. -/
def mtlStatResult : Fld :=
  ⟨0x02_00A0_0000 + 0x0004, 28, 3, .ro, 0⟩
/-- MTL_STAT.DBGUNLK [2], RO (R468, Table 17.5): Debug unlocked. -/
def mtlStatDbgunlk : Fld :=
  ⟨0x02_00A0_0000 + 0x0004, 2, 1, .ro, 0⟩
/-- MTL_STAT.TRNGERR [1], W1C (R468, Table 17.5): A health test failed. -/
def mtlStatTrngerr : Fld :=
  ⟨0x02_00A0_0000 + 0x0004, 1, 1, .w1c, 0⟩
/-- MTL_STAT.ERR [0], W1C (R468, Table 17.5): GO while busy. -/
def mtlStatErr : Fld :=
  ⟨0x02_00A0_0000 + 0x0004, 0, 1, .w1c, 0⟩
/-- MTL_REASON.CODE [15:0], RO (R468, Table 17.5): Last reason (Table 17.4). -/
def mtlReasonCode : Fld :=
  ⟨0x02_00A0_0000 + 0x0008, 0, 16, .ro, 0⟩
/-- MTL_ARC.COUNT [6:0], RO (R468, Table 17.5): Anti-rollback counter, 0 to 64. Reset: option. -/
def mtlArcCount : Fld :=
  ⟨0x02_00A0_0000 + 0x000C, 0, 7, .ro, 0x0⟩
/-- MTL_FPR.FPR [63:0], RO (R468, Table 17.5): Device fingerprint. Reset: option. -/
def mtlFprFpr : Fld :=
  ⟨0x02_00A0_0000 + 0x0010, 0, 64, .ro, 0x0⟩
/-- MTL_KEYS.ESC [11:8], RO (R468, Table 17.5): Bit n: escrow slot En enrolled. Reset: option. -/
def mtlKeysEsc : Fld :=
  ⟨0x02_00A0_0000 + 0x0018, 8, 4, .ro, 0x0⟩
/-- MTL_KEYS.LOADED [7:0], RO (R468, Table 17.5): Bit p: pack key of Pp held. -/
def mtlKeysLoaded : Fld :=
  ⟨0x02_00A0_0000 + 0x0018, 0, 8, .ro, 0⟩
/-- MTL_DATA.DATA [63:0], RW (R468, Table 17.5): Arguments and results; writes ignored while BUSY; cleared by Mantle after each key operation's result has been read once. -/
def mtlDataData (i : Nat) : Fld :=
  ⟨0x02_00A0_0000 + 0x0100 + 8 * i, 0, 64, .rw, 0⟩
/-- CAL_REGION.BASE [31:16], RW (R241, Table 8.10): Offset of the region within the Ember store, 64 KiB units; writes ignored while BUSY. Reset: option. -/
def calRegionBase : Fld :=
  ⟨0x02_00B0_0000 + 0x0000, 16, 16, .rw, 0x10⟩
/-- CAL_REGION.SIZE [15:8], RW (R241, Table 8.10): Region size, 64 KiB units. Reset: option. -/
def calRegionSize : Fld :=
  ⟨0x02_00B0_0000 + 0x0000, 8, 8, .rw, 0x40⟩
/-- CAL_STAT.BUSY [31], RO (R241, Table 8.10): Lookup or store running. -/
def calStatBusy : Fld :=
  ⟨0x02_00B0_0000 + 0x0008, 31, 1, .ro, 0⟩
/-- CAL_STAT.RECORDS [23:8], RO (R241, Table 8.10): Records held, saturating. -/
def calStatRecords : Fld :=
  ⟨0x02_00B0_0000 + 0x0008, 8, 16, .ro, 0⟩
/-- CAL_STAT.FULL [2], W1C (R241, Table 8.10): Store failed (R234). -/
def calStatFull : Fld :=
  ⟨0x02_00B0_0000 + 0x0008, 2, 1, .w1c, 0⟩
/-- CAL_STAT.CRCERR [1], W1C (R241, Table 8.10): A record failed its CRC. -/
def calStatCrcerr : Fld :=
  ⟨0x02_00B0_0000 + 0x0008, 1, 1, .w1c, 0⟩
/-- CAL_STAT.ERR [0], W1C (R241, Table 8.10): Command while busy. -/
def calStatErr : Fld :=
  ⟨0x02_00B0_0000 + 0x0008, 0, 1, .w1c, 0⟩
/-- CAL_LKEY.KIND [31:24], RW (R241, Table 8.10): Kind. -/
def calLkeyKind : Fld :=
  ⟨0x02_00B0_0000 + 0x0010, 24, 8, .rw, 0⟩
/-- CAL_LKEY.POS [22:20], RW (R241, Table 8.10): Position. -/
def calLkeyPos : Fld :=
  ⟨0x02_00B0_0000 + 0x0010, 20, 3, .rw, 0⟩
/-- CAL_LKEY.SURF [18:16], RW (R241, Table 8.10): Surface. -/
def calLkeySurf : Fld :=
  ⟨0x02_00B0_0000 + 0x0010, 16, 3, .rw, 0⟩
/-- CAL_LKEY.LAYER [11:8], RW (R241, Table 8.10): Layer. -/
def calLkeyLayer : Fld :=
  ⟨0x02_00B0_0000 + 0x0010, 8, 4, .rw, 0⟩
/-- CAL_LKEY.ZG [2:0], RW (R241, Table 8.10): Zone group. -/
def calLkeyZg : Fld :=
  ⟨0x02_00B0_0000 + 0x0010, 0, 3, .rw, 0⟩
/-- CAL_LTAG.PACKTAG [63:0], RW (R241, Table 8.10): Pack identity tag of the key. -/
def calLtagPacktag : Fld :=
  ⟨0x02_00B0_0000 + 0x0018, 0, 64, .rw, 0⟩
/-- CAL_LCTRL.GO [31], WO (R241, Table 8.10): 1 starts a lookup. -/
def calLctrlGo : Fld :=
  ⟨0x02_00B0_0000 + 0x0020, 31, 1, .wo, 0⟩
/-- CAL_LCTRL.STORE [30], WO (R241, Table 8.10): 1 stores the record at CAL_SRC. -/
def calLctrlStore : Fld :=
  ⟨0x02_00B0_0000 + 0x0020, 30, 1, .wo, 0⟩
/-- CAL_LCTRL.TEMP [15:0], RW (R241, Table 8.10): Lookup temperature, signed, 1/16 °C. -/
def calLctrlTemp : Fld :=
  ⟨0x02_00B0_0000 + 0x0020, 0, 16, .rw, 0⟩
/-- CAL_LRES.RESULT [31:29], RO (R241, Table 8.10): 0 none, 1 exact, 2 interpolated, 3 clamped below, 4 clamped above, 5 not found, 6 check word failed, 7 record marked FAILED. -/
def calLresResult : Fld :=
  ⟨0x02_00B0_0000 + 0x0024, 29, 3, .ro, 0⟩
/-- CAL_LRES.NSETS [19:16], RO (R241, Table 8.10): Records held for the key. -/
def calLresNsets : Fld :=
  ⟨0x02_00B0_0000 + 0x0024, 16, 4, .ro, 0⟩
/-- CAL_LRES.TNEAR [15:0], RO (R241, Table 8.10): TEMP of the nearest record. -/
def calLresTnear : Fld :=
  ⟨0x02_00B0_0000 + 0x0024, 0, 16, .ro, 0⟩
/-- CAL_SRC.ADDR [39:6], RW (R241, Table 8.10): Bits [39:6] of the SRAM address of the record to store. -/
def calSrcAddr : Fld :=
  ⟨0x02_00B0_0000 + 0x0028, 6, 34, .rw, 0⟩
/-- CAL_LVAL.VAL [63:0], RO (R241, Table 8.11): Bytes 28 + 8n to 35 + 8n of the looked-up or interpolated record. -/
def calLvalVal (n : Nat) : Fld :=
  ⟨0x02_00B0_0000 + 0x0040 + 8 * n, 0, 64, .ro, 0⟩
/-- CAL_INJ.EN [31], RW (R241, Table 8.12): 1 runs the injection (R225); clears when NPER periods complete. -/
def calInjEn : Fld :=
  ⟨0x02_00B0_0000 + 0x0100, 31, 1, .rw, 0⟩
/-- CAL_INJ.POS [30:28], RW (R241, Table 8.12): Position. -/
def calInjPos : Fld :=
  ⟨0x02_00B0_0000 + 0x0100, 28, 3, .rw, 0⟩
/-- CAL_INJ.LOOP [20:16], RW (R241, Table 8.12): Loop index l, 0 to 15. -/
def calInjLoop : Fld :=
  ⟨0x02_00B0_0000 + 0x0100, 16, 5, .rw, 0⟩
/-- CAL_INJ.AMP [15:0], RW (R241, Table 8.12): Amplitude, drive codes. -/
def calInjAmp : Fld :=
  ⟨0x02_00B0_0000 + 0x0100, 0, 16, .rw, 0x0100⟩
/-- CAL_INJP.NPER [31:16], RW (R241, Table 8.12): Periods to accumulate; 0 acts as 1. -/
def calInjpNper : Fld :=
  ⟨0x02_00B0_0000 + 0x0104, 16, 16, .rw, 0x0040⟩
/-- CAL_INJP.PERIOD [15:0], RW (R241, Table 8.12): Period in ticks; below 0x0008 acts as 0x0008. -/
def calInjpPeriod : Fld :=
  ⟨0x02_00B0_0000 + 0x0104, 0, 16, .rw, 0x00FA⟩
/-- CAL_INJE.EI [63:32], RO (R241, Table 8.12): In-phase sum of e, signed. -/
def calInjeEi : Fld :=
  ⟨0x02_00B0_0000 + 0x0108, 32, 32, .ro, 0⟩
/-- CAL_INJE.EQ [31:0], RO (R241, Table 8.12): Quadrature sum of e, signed. -/
def calInjeEq : Fld :=
  ⟨0x02_00B0_0000 + 0x0108, 0, 32, .ro, 0⟩
/-- CAL_INJU.UI [63:32], RO (R241, Table 8.12): In-phase sum of u, signed. -/
def calInjuUi : Fld :=
  ⟨0x02_00B0_0000 + 0x0110, 32, 32, .ro, 0⟩
/-- CAL_INJU.UQ [31:0], RO (R241, Table 8.12): Quadrature sum of u, signed. -/
def calInjuUq : Fld :=
  ⟨0x02_00B0_0000 + 0x0110, 0, 32, .ro, 0⟩
/-- CAL_INJS.DONE [31], W1C (R241, Table 8.12): NPER periods accumulated. -/
def calInjsDone : Fld :=
  ⟨0x02_00B0_0000 + 0x0118, 31, 1, .w1c, 0⟩
/-- CAL_INJS.ABORTED [30], W1C (R241, Table 8.12): Ended by an opening write gate. -/
def calInjsAborted : Fld :=
  ⟨0x02_00B0_0000 + 0x0118, 30, 1, .w1c, 0⟩
/-- CAL_INJS.COUNT [15:0], RO (R241, Table 8.12): Periods accumulated. -/
def calInjsCount : Fld :=
  ⟨0x02_00B0_0000 + 0x0118, 0, 16, .ro, 0⟩
/-- CAL_TEMP.VALID [31], RO (R241, Table 8.12): The PF8 has reported a temperature. -/
def calTempValid (p : Nat) : Fld :=
  ⟨0x02_00B0_0000 + 0x0200 + 4 * p, 31, 1, .ro, 0⟩
/-- CAL_TEMP.TEMP [15:0], RO (R241, Table 8.12): Pack temperature, signed, 1/16 °C, as last reported over the control channel. -/
def calTempTemp (p : Nat) : Fld :=
  ⟨0x02_00B0_0000 + 0x0200 + 4 * p, 0, 16, .ro, 0⟩

/-- Every register of the block, by address (R18): what is not listed reads zero and ignores writes. -/
def lampRegs : List Reg :=
  [⟨0x02_0000_0000 + 0x0000, 32, [lampCauseWdt, lampCauseSwcore, lampCauseDbg, lampCauseMtl, lampCauseFwact, lampCauseSwsys, lampCauseBoottmo, lampCausePfret, lampCausePerst, lampCausePin, lampCauseMainsup, lampCausePor]⟩,
   ⟨0x02_0000_0000 + 0x0004, 32, [lampStatFailcnt, lampStatRecovMax, lampStatRecovery, lampStatOpterr, lampStatBootok, lampStatTrial, lampStatPref, lampStatSlot]⟩,
   ⟨0x02_0000_0000 + 0x0008, 32, [lampSwrstKey, lampSwrstSys, lampSwrstCore]⟩,
   ⟨0x02_0000_0000 + 0x000C, 32, [lampBootokOk]⟩,
   ⟨0x02_0000_0000 + 0x0010, 32, [lampCrelRel, lampCrelC0]⟩,
   ⟨0x02_0000_0000 + 0x0014, 32, [lampWdtEn, lampWdtPeriod]⟩,
   ⟨0x02_0000_0000 + 0x0018, 32, [lampWdkickKick]⟩,
   ⟨0x02_0000_0000 + 0x0020, 32, [lampBrstGo, lampBrstKind, lampBrstIndex]⟩,
   ⟨0x02_0000_0000 + 0x0024, 32, [lampBrstatBusy, lampBrstatResult]⟩,
   ⟨0x02_0000_0000 + 0x0028, 32, [lampBrtoTmo]⟩,
   ⟨0x02_0000_0000 + 0x0030, 64, [lampOptSsid, lampOptSsvid, lampOptMem, lampOptPcie, lampOptPosEn, lampOptPerstLvl, lampOptDbglock, lampOptBootsrc]⟩]

/-- Every register of the block, by address (R18): what is not listed reads zero and ignores writes. -/
def clkRegs : List Reg :=
  [⟨0x02_0010_0000 + 0x0000, 32, [clkSrcX32, clkSrcRef, clkSrcXtal]⟩,
   ⟨0x02_0010_0000 + 0x0300, 32, [clkZenEn]⟩,
   ⟨0x02_0010_0000 + 0x0310, 32, [clkXstatFlush, clkXstatMode]⟩,
   ⟨0x02_0010_0000 + 0x0320, 32, [clkReasonCode]⟩] ++
  (List.range 15).map (fun n => ⟨0x02_0010_0000 + 0x0100 + 8 * n, 32, [clkPllLock n, clkPllOn n, clkPllSsc n, clkPllForce n]⟩) ++
  (List.range 7).map (fun k => ⟨0x02_0010_0000 + 0x0200 + 4 * k, 32, [clkDstatRun k]⟩)

/-- Every register of the block, by address (R18): what is not listed reads zero and ignores writes. -/
def pwrRegs : List Reg :=
  [⟨0x02_0020_0000 + 0x0000, 32, [pwrEngOn]⟩,
   ⟨0x02_0020_0000 + 0x0004, 32, [pwrEngrdyRdy]⟩,
   ⟨0x02_0020_0000 + 0x0010, 32, [pwrSafeLaser, pwrSafePos]⟩,
   ⟨0x02_0020_0000 + 0x0014, 32, [pwrSafeclrLaser, pwrSafeclrPos]⟩,
   ⟨0x02_0020_0000 + 0x0018, 32, [pwrStatRc, pwrStatEmbkept, pwrStatPf]⟩,
   ⟨0x02_0020_0000 + 0x0020, 64, [pwrRtcCount]⟩]

/-- Every register of the block, by address (R18): what is not listed reads zero and ignores writes. -/
def timeRegs : List Reg :=
  [⟨0x02_0030_0000 + 0x0000, 64, [timeNowNs]⟩,
   ⟨0x02_0030_0000 + 0x0008, 32, [timeStatUnset, timeStatHoldover, timeStatLocked]⟩,
   ⟨0x02_0030_0000 + 0x0010, 32, [timeTrimTrim]⟩,
   ⟨0x02_0030_0000 + 0x0018, 64, [timeSetsecSec]⟩,
   ⟨0x02_0030_0000 + 0x0020, 32, [timePpscfgAvg, timePpscfgWin]⟩,
   ⟨0x02_0030_0000 + 0x0028, 64, [timePpsRej]⟩,
   ⟨0x02_0030_0000 + 0x0030, 64, [timePpscapNs]⟩]

/-- Every register of the block, by address (R18): what is not listed reads zero and ignores writes. -/
def fltRegs : List Reg :=
  [⟨0x02_0040_0000 + 0x0000, 32, [fltStatWrap, fltStatFatal, fltStatNew]⟩,
   ⟨0x02_0040_0000 + 0x0008, 64, [fltSeqSeq]⟩,
   ⟨0x02_0040_0000 + 0x0010, 64, [fltLastPos, fltLastSource, fltLastReason]⟩,
   ⟨0x02_0040_0000 + 0x0018, 32, [fltVmonOut]⟩]

/-- Every register of the block, by address (R18): what is not listed reads zero and ignores writes. -/
def mtlRegs : List Reg :=
  [⟨0x02_00A0_0000 + 0x0000, 32, [mtlCmdGo, mtlCmdOp]⟩,
   ⟨0x02_00A0_0000 + 0x0004, 32, [mtlStatBusy, mtlStatResult, mtlStatDbgunlk, mtlStatTrngerr, mtlStatErr]⟩,
   ⟨0x02_00A0_0000 + 0x0008, 32, [mtlReasonCode]⟩,
   ⟨0x02_00A0_0000 + 0x000C, 32, [mtlArcCount]⟩,
   ⟨0x02_00A0_0000 + 0x0010, 64, [mtlFprFpr]⟩,
   ⟨0x02_00A0_0000 + 0x0018, 32, [mtlKeysEsc, mtlKeysLoaded]⟩] ++
  (List.range 32).map (fun i => ⟨0x02_00A0_0000 + 0x0100 + 8 * i, 64, [mtlDataData i]⟩)

/-- Every register of the block, by address (R18): what is not listed reads zero and ignores writes. -/
def calRegs : List Reg :=
  [⟨0x02_00B0_0000 + 0x0000, 32, [calRegionBase, calRegionSize]⟩,
   ⟨0x02_00B0_0000 + 0x0008, 32, [calStatBusy, calStatRecords, calStatFull, calStatCrcerr, calStatErr]⟩,
   ⟨0x02_00B0_0000 + 0x0010, 32, [calLkeyKind, calLkeyPos, calLkeySurf, calLkeyLayer, calLkeyZg]⟩,
   ⟨0x02_00B0_0000 + 0x0018, 64, [calLtagPacktag]⟩,
   ⟨0x02_00B0_0000 + 0x0020, 32, [calLctrlGo, calLctrlStore, calLctrlTemp]⟩,
   ⟨0x02_00B0_0000 + 0x0024, 32, [calLresResult, calLresNsets, calLresTnear]⟩,
   ⟨0x02_00B0_0000 + 0x0028, 64, [calSrcAddr]⟩,
   ⟨0x02_00B0_0000 + 0x0100, 32, [calInjEn, calInjPos, calInjLoop, calInjAmp]⟩,
   ⟨0x02_00B0_0000 + 0x0104, 32, [calInjpNper, calInjpPeriod]⟩,
   ⟨0x02_00B0_0000 + 0x0108, 64, [calInjeEi, calInjeEq]⟩,
   ⟨0x02_00B0_0000 + 0x0110, 64, [calInjuUi, calInjuUq]⟩,
   ⟨0x02_00B0_0000 + 0x0118, 32, [calInjsDone, calInjsAborted, calInjsCount]⟩] ++
  (List.range 20).map (fun n => ⟨0x02_00B0_0000 + 0x0040 + 8 * n, 64, [calLvalVal n]⟩) ++
  (List.range 8).map (fun p => ⟨0x02_00B0_0000 + 0x0200 + 4 * p, 32, [calTempValid p, calTempTemp p]⟩)

end Sys2Proof.Machine.R
end

