-- ==== Sys2Proof/Machine/StateEngine.lean ====
section
/-! DEFINITION. State of the beam engines, of calibration, of the compression engines, of Mantle and of Lamplighter
that no register shows (chapters 3, 4, 8, 14, 16 and 17). -/

namespace Sys2Proof.Machine

/-- Where the sync acquisition of a slot stands (R120 to R126). `ys`: the last equaliser outputs, newest first; `hdr`:
the header window is decided; `head`: the accepted header mark; `block`, `expect`, `half`: the data block whose window is
open, E(b) and the window's half width; `upto`: the block after the slot's last; `best`: the best candidate of the window
so far, as distance, count and position; `misses`: flywheeled blocks in a row; `lostAt`: the slot symbol from which sync is
lost; `realign`: eighth and first data symbol of each realignment whose address word has not come; `ers`: erased data
symbols as (first, length); `holes`: slot symbols within losses of sync that have ended; `starts`: blocks and the slot
symbols at which their data start; `flown`: flywheeled blocks; `reject`, `losses`, `bad`: SYNC_STAT; `anyMark`: a candidate
qualified as any pattern. -/
structure SyncState where
  ys : List Int
  hdr : Bool
  head : Option Nat
  block : Nat
  upto : Nat
  expect : Nat
  half : Nat
  best : Option (Nat × Nat × Nat)
  misses : Nat
  lostAt : Option Nat
  realign : List (Nat × Nat)
  ers : List (Nat × Nat)
  holes : List (Nat × Nat)
  starts : List (Nat × Nat)
  flown : List Nat
  reject : Nat
  losses : Nat
  bad : Bool
  anyMark : Bool
  deriving DecidableEq, Repr

/-- The start of a frame slot, or of n segments of a ledger slot from segment k on, whose first window is that of the
segment's block 0 (R123, R126). -/
def SyncState.fresh (ledger : Bool) (k n : Nat) : SyncState :=
  { ys := [], hdr := ledger, head := none, block := if ledger then 16 * k else 0, upto := if ledger then 16 * (k + n) else 256,
    expect := if ledger then 19750 * k + 166 else 2048, half := 64, best := none, misses := 0, lostAt := none, realign := [],
    ers := [], holes := [], starts := [], flown := [], reject := 0, losses := 0, bad := false, anyMark := false }

/-- The defect detector (R112): the window newest first with flags, the unflagged symbols of the running mean newest
first, and the flagged symbols. -/
structure Defect where
  win : List (Nat × Nat × Bool)
  ref : List Nat
  hits : List Nat
  deriving DecidableEq, Repr

/-- A slot being read or verified. `on`: the slot has begun; `cast`: it is the slot of a pour; `desc`: the descriptor it is
read or was poured by; `nbr`: its neighbours' sources as CAST_NBR codes them; `base`: PF8 symbol of its symbol 0; `scan`, `next`, `upd`: the next slot symbol for the defect detector, for the equaliser and for adaptation;
`recvd`: per stream the slot symbol after the last one received; `raw`: raw samples by stream * 2^20 + slot symbol; `xs`:
corrected samples likewise, in 1/64; `vs`: interpolated main samples; `ys`, `zs`: outputs of the equaliser, and as the
detector takes them; `dec`: tentative decisions; `paths`: metric and last symbols of the 16 survivors; `symErs`: erased slot
symbols as (first, length); `flags`: the defect detector; `run0`: start of the preamble run; `ph`, `fr`: phase and frequency
of the timing loop, in 1/65,536 of a phase; `m0`, `m3`: mean samples of levels 0 and 3 in 1/(64 × 4,096) of a code;
`fields`: eighths whose wobble sync field was detected. -/
structure SlotRead where
  on : Bool
  cast : Bool
  desc : List Byte
  nbr : Nat
  base : Nat
  scan : Nat
  next : Nat
  upd : Nat
  recvd : List Nat
  raw : List (Nat × Nat)
  xs : List (Nat × Int)
  vs : List (Nat × Int)
  ys : List (Nat × Int)
  zs : List (Nat × Int)
  dec : List (Nat × Nat)
  paths : List (Int × List Nat)
  symErs : List (Nat × Nat)
  flags : Defect
  run0 : Option Nat
  ph : Int
  fr : Int
  m0 : Int
  m3 : Int
  fields : List Nat
  sync : SyncState
  deriving DecidableEq, Repr

/-- No slot. The levels that the first run ever measured replaces lie at the middle of the range of R100 and at level 3 of
Table 2.4. DESIGN CHOICE: log 98. -/
def SlotRead.idle : SlotRead :=
  { on := false, cast := false, desc := [], nbr := 0, base := 0, scan := 0, next := 0, upd := 0, recvd := [0, 0, 0, 0], raw := [], xs := [], vs := [],
    ys := [], zs := [], dec := [], paths := List.replicate 16 (0, []), symErs := [], flags := ⟨[], [], []⟩, run0 := none,
    ph := 0, fr := 0, m0 := 48 * 64 * 4096, m3 := 11 * 64 * 4096, fields := [], sync := .fresh false 0 0 }

/-- The next slot of an engine: phase, gain and offset carry over (R103, R107). DEDUCED: log 98. -/
def SlotRead.begin (q : SlotRead) (cast : Bool) (desc : List Byte) (nbr base : Nat) (sync : SyncState) : SlotRead :=
  { SlotRead.idle with on := true, cast := cast, desc := desc, nbr := nbr, base := base, ph := q.ph, fr := q.fr, m0 := q.m0, m3 := q.m3, sync := sync }

/-- A frame poured and awaiting its verdict: its descriptor, TIME when its gate opened, whether the gate criterion
failed, and what the verify spot gave, once the next slot has taken the engine's place. -/
structure Poured where
  desc : List Byte
  time : Nat
  gateLost : Bool
  slot : Option SlotRead
  deriving DecidableEq, Repr

/-- A beam engine beyond its registers. `home`: the stripe operation's position and surface it serves; `desc`: the 128 bytes
of the descriptor fetched; `armed`: it waits for its slot; `gate`: its write gate is open; `gateLost`: the gate closed early
or an underrun was reported in this frame; `pourTime`: TIME when the gate opened; `start`: PF8 symbol of symbol 0 of the slot
poured; `sent`: slot symbols whose wick codes have gone to the PF8; `uploads`: control requests of its own not yet answered;
`poured`: the frames whose verdicts are due, oldest first; `sealBad`: the assembler found a tile bad in both copies; `mode`: cast mode is in force, which
CAST_CTRL.EN selects at a rank boundary (Table 3.10); `steps`: where the power scale last stepped, in symbols of the layer
(R74); `word`: the nibbles of the last wobble address word of its
pickup; `preset`: the zone last preset for the pickup it serves; `last`: position, surface, layer and zone of the engine's previous slot; `rdesc`: the 128 bytes of the read
descriptor; `slag`: the slag list that applies, as (first, length); `seed`: the taps of the last seed block; `wordMiss`:
consecutive address words other than expected; `wob`: the last wobble phase values of its pickup, newest first, each with
the PF8 symbol of its boundary; `slot`: the slot being read or verified. -/
structure EngState where
  home : Option (PosIx × Fin 8)
  desc : List Byte
  armed : Bool
  gate : Bool
  gateLost : Bool
  pourTime : Nat
  start : Nat
  sent : Nat
  uploads : Nat
  poured : List Poured
  sealBad : Bool
  mode : Bool
  steps : List Nat
  word : List Nat
  preset : Option Nat
  last : Option (Nat × Nat × Nat × Nat)
  rdesc : List Byte
  slag : List (Nat × Nat)
  seed : List Int
  wordMiss : Nat
  wob : List (Nat × Nat)
  slot : SlotRead
  deriving DecidableEq, Repr

def EngState.reset : EngState :=
  { home := none, desc := [], armed := false, gate := false, gateLost := false, pourTime := 0, start := 0, sent := 0,
    uploads := 0, poured := [], sealBad := false, mode := false, steps := [], word := [], preset := none, last := none, rdesc := [], slag := [],
    seed := (List.range 29).map fun i => if i = 7 then 4096 else 0, wordMiss := 0, wob := [], slot := .idle }

/-- A rank being read (R129 to R136): its number, slot and layer, the eight OUT buffers by role, surfaces posted, per
codeword (role * 16 + c) its result, whether it counts as OK, and the step at which it did, the highest step tried, the
re-reads of that step begun, revolutions spent, whether a digest check waits for the rest of the cast,
the surfaces whose set-points step 4 has moved, whether its outcome is final, and the policy values that govern it: those of
its first command (R331). -/
structure RankRead where
  n : Nat
  slot : Nat
  layer : Nat
  outs : List Nat
  posted : Nat
  result : List Nat
  okMask : Nat
  lateMask : Nat
  builtMask : Nat
  step : Nat
  sub : Nat
  revs : Nat
  digest : Bool
  moved : Nat
  final : Bool
  policy : List (Nat × Nat)
  deriving DecidableEq, Repr

/-- A lookup key with its temperature code (Table 8.10). -/
structure CalKey where
  kind : Nat
  pos : Nat
  surf : Nat
  layer : Nat
  zg : Nat
  tag : Nat
  temp : Nat
  deriving DecidableEq, Repr

/-- An item that waits to be measured (R214, R237): position, kind, for kinds 0x02 and 0x03 whether its loop gain or its scan is
meant, surface and layer; and for such a scan the gain that was measured before it. -/
structure CalTask where
  p : PosIx
  kind : Nat
  gain : Bool
  surf : Nat
  layer : Nat
  found : Option Int
  deriving DecidableEq, Repr

/-- A measurement under way (R216, R217, R225 to R229): its item; the values of the runs made, none where a run was not valid; runs
discarded; whether a run goes on; the value in use when the measurement began, and registers it has to put back; pack temperature at
the start of the run, and whether it has moved more than 1.0 °C since; the point of the scan or the stage of the run; the value
written last; ticks until another step may be written; ticks the point has been held; the sum measured at the point and the number of
readings in it; what each point gave, and the sums of error codes there; and whether a forced reset has cut the run. -/
structure Meas where
  task : CalTask
  runs : List (Option (List Int))
  discards : Nat
  on : Bool
  base : Int
  saved : List Nat
  temp : Int
  drift : Bool
  point : Nat
  now : Int
  pace : Nat
  held : Nat
  sum : Int
  count : Nat
  ys : List Int
  es : List Int
  cut : Bool
  deriving DecidableEq, Repr

/-- A correction that is applied gradually (R235): to the set-points of a surface (focus, track, tilt), or to the sixteen advance
entries; with the ticks until its next write. -/
structure CalMove where
  p : PosIx
  surf : Option (Fin 8)
  goal : List Int
  pace : Nat
  deriving DecidableEq, Repr

/-- CAL beyond its registers: the key latched by a lookup, or the record latched by a store, that is running (R241);
the tick of the injection, and whether it ends at the next tick because a write gate opened (R225). `tasks`: items that wait to be measured, in
order; `meas`: measurements under way, at most one for a position; `moves`: corrections being applied; `looked`: bits 2p and 2p + 1,
the records of kinds 0x07 and 0x08 of position p have been looked for (R237); bit 16 + p, its records have been applied while POS_CFG.EN
is 0 (R235). -/
structure CalState where
  lookup : Option CalKey
  store : Option (List Byte)
  tick : Nat
  abortDue : Bool
  tasks : List CalTask
  meas : List Meas
  moves : List CalMove
  looked : Nat
  deriving DecidableEq, Repr

def CalState.reset : CalState :=
  { lookup := none, store := none, tick := 0, abortDue := false, tasks := [], meas := [], moves := [], looked := 0 }

/-- A context of a stopped or running job (R402, R403): number, handle, function, kind, remaining input, the stream's
input taken so far, output bytes already written, engine settings, and the local time at which it expires, none while
a job uses it. -/
structure CmpCtx where
  num : Nat
  handle : Nat
  fn : FnIx
  kind : Nat
  left : Nat
  total : Nat
  seen : List Byte
  sent : Nat
  depth : Nat
  lazy : Nat
  expires : Option Nat
  deriving DecidableEq, Repr

/-- A job that an engine runs: its descriptor, context, results (Table 14.4), and the output bytes it writes. -/
structure CmpJob where
  eng : CmpIx
  addr : Nat
  ctx : Option Nat
  consumed : Nat
  produced : Nat
  rhandle : Nat
  status : Nat
  reason : Nat
  out : List Byte
  deriving DecidableEq, Repr

/-- CMP beyond its registers: jobs taken from the ring, jobs running, contexts, reservations made of each context. -/
structure CmpState where
  taken : Nat
  jobs : List CmpJob
  ctxs : List CmpCtx
  counts : List (Nat × Nat)
  deriving DecidableEq, Repr

def CmpState.reset : CmpState := { taken := 0, jobs := [], ctxs := [], counts := [] }

/-- The result of the mailbox operation that runs (R467); `destroy`: the position whose key it destroys once the stripe
operation has reached its rank boundary (R458). -/
structure MailRes where
  result : Nat
  reason : Nat
  data : List Byte
  isKey : Bool
  destroy : Option PosIx
  deriving DecidableEq, Repr

/-- Mantle (chapter 17): pack keys by position, enrolled escrow keys, the debug nonce with the local time of its
DBG_CHAL, the scope of a debug unlock and whether the customer key signed it, the running mailbox operation, the
result words not yet read after a key operation, and whether a TRNG health test fails. -/
structure MtlState where
  keys : List (Nat × List Byte)
  escrow : List (List Byte)
  nonce : Option (List Byte × Nat)
  scope : Option Nat
  byCustomer : Bool
  op : Option MailRes
  unread : Nat
  trngBad : Bool
  deriving DecidableEq, Repr

def MtlState.reset : MtlState :=
  { keys := [], escrow := [], nonce := none, scope := none, byCustomer := false, op := none, unread := 0, trngBad := false }

/-- A single-block reset under way (R445): the engine or the position. -/
inductive BlockId where
  | engine (e : EngIx)
  | position (p : PosIx)
  deriving DecidableEq, Repr

/-- Lamplighter and the reset logic (chapter 16). `level`: the level applied; `porHeld`, `mainHeld`, `pinHeld`,
`perstHeld`, `dbgSys`, `dbgCore`: held sources asserted; `arrived`: a level that waits for the end of the Ember commit;
`commit`: the Ember commit runs; `relDue`: the level is left once it ends; `waiting`: the sequence has ended and C0's
release waits; `started`: C0 has been released since the last power-on or system reset; `pfHeld`: PWRFAIL_N stopped the
sequence; `deadline`: the boot-ok deadline runs; `pref`, `trial`, `failcnt`: the boot record; `slotA`, `slotB`: flash
bases in units of 64 KiB; `flash`: the SPI flash, an unlisted byte reads 0xFF; `dlNext`: bytes stored in the unused slot
since its last OFFSET 0; `header`: header of the image in SRAM; `fwact`: tag of an accepted ACTION 2; `wdRun`,
`wdStart`: the watchdog's count runs, since that local time; `blk`: a single-block reset waits for idle; `restarting`: a
reset block whose restart has not ended; `tjHot`: the junction temperature limit holds. -/
structure LampState where
  level : Option Level
  porHeld : Bool
  mainHeld : Bool
  pinHeld : Bool
  perstHeld : Bool
  dbgSys : Bool
  dbgCore : Bool
  arrived : Option Level
  commit : Bool
  relDue : Bool
  waiting : Bool
  started : Bool
  pfHeld : Bool
  deadline : Bool
  pref : Nat
  trial : Bool
  failcnt : Nat
  slotA : Nat
  slotB : Nat
  flash : List (Nat × Byte)
  dlNext : Option Nat
  header : List Byte
  fwact : Option Nat
  wdRun : Bool
  wdStart : Nat
  blk : Option BlockId
  restarting : Option BlockId
  tjHot : Bool
  deriving DecidableEq, Repr

def LampState.reset : LampState :=
  { level := none, porHeld := false, mainHeld := false, pinHeld := false, perstHeld := false, dbgSys := false,
    dbgCore := false, arrived := none, commit := false, relDue := false, waiting := false, started := false,
    pfHeld := false, deadline := false, pref := 0, trial := false, failcnt := 0, slotA := 0, slotB := 0x80, flash := [],
    dlNext := none, header := [], fwact := none, wdRun := false, wdStart := 0, blk := none, restarting := none,
    tjHot := false }

end Sys2Proof.Machine
end

