-- ==== Sys2Proof/Machine/StatePack.lean ====
section
/-! DEFINITION. State of casting: the Ember journal, ledger records, ranks, casts and packs (chapters 2, 3 and 11). -/

namespace Sys2Proof.Machine

/-- The body of a journal entry (Tables 3.8 and 11.5). -/
inductive JBody where
  | castOpen (m layer pos : Nat)
  | rankCast (n layer repour reason slot prev : Nat) (crcs : List Nat)
  | castDone (m riser : Nat) (digest : List Byte)
  | castClosed (m seq : Nat)
  | castFailed (m reason : Nat)
  | pourAbandoned (n layer src slot : Nat)
  | ledgerFlushed (seq : Option Nat)
  | assign (m addr len aseq : Nat)
  | formatStep (step layer cardCrc uuid escrow : Nat)
  | sanitiseStep (mode state layer next : Nat)
  deriving DecidableEq, Repr

/-- A journal entry (Table 3.7). -/
structure JEntry where
  seq : Nat
  tag : Nat
  time : Nat
  body : JBody
  deriving DecidableEq, Repr

/-- The Ember journal (R91): committed entries, entries appended and not yet committed, the next JSEQ and the end of
the reserved block. -/
structure Journal where
  entries : List JEntry
  pend : List JEntry
  next : Nat
  seqEnd : Nat
  deriving DecidableEq, Repr

/-- The body of a ledger record (Table 2.11). -/
inductive LBody where
  | packIdentity (fpr uuid cardCrc : Nat)
  | formatProgress (step layer escrow : Nat)
  | wrappedKey (fpr wrapped escrowId escrowed : Nat)
  | cast (m layer riser : Nat) (digest : List Byte) (time : Nat)
  | relocation (n layer reason prev slot : Nat)
  | sanitiseProgress (mode state layer next : Nat)
  | packState (flags mask reason : Nat)
  | keyDestroyed (fpr seq : Nat)
  deriving DecidableEq, Repr

/-- A ledger record (Table 2.9) without the check words. -/
structure LRec where
  seq : Nat
  time : Nat
  body : LBody
  deriving DecidableEq, Repr

/-- Where a logical rank stands on its way to the medium: filling, ready for assembly, assembled, pouring (its write
gates are open), awaiting its verdict, cast, or failed and waiting for its re-pour. -/
inductive RankPhase where
  | filling | ready | assembled | pouring | awaiting | cast | failed
  deriving DecidableEq, Repr

/-- A logical rank of a cast not yet released. `n`: logical rank number; `assigned`: user codewords assigned, in
order; `pads`: bit u set, codeword u is padding; `valids`: VALID of data codewords below 4,096; `tiles`: data frame
and its tile; `fill`: bytes staged of each data frame; `force`: it holds FORCE data; `begun`: a first byte was staged
(R67); `idle`: RANK_IDLE has passed since; `slot`, `prev`, `reason`, `repour`: the slot poured or holding it, the slot
before, the relocation reason and the re-pour count; `posted`, `passed`: surfaces whose verdict is in, and that passed; `judged`: those whose frame
verify judged;
`cipher`: the user bytes of each codeword in the order of R56 as recorded; `frames`: per surface the descriptor and POURTIME
of the frame poured there (R71); `bad`: data frames whose tile failed
in both copies; `abandoned`: a frame of this pour was abandoned after its gate had closed (R472). -/
structure Rank where
  n : Nat
  assigned : Nat
  pads : Nat
  valids : List (Nat × Nat)
  tiles : List (Nat × Nat)
  fill : List Nat
  force : Bool
  begun : Bool
  idle : Bool
  phase : RankPhase
  slot : Nat
  prev : Nat
  reason : Nat
  repour : Nat
  posted : Nat
  passed : Nat
  judged : Nat
  cipher : List (List Byte)
  frames : List (Nat × List Byte × Nat)
  bad : Nat
  abandoned : Bool
  deriving DecidableEq, Repr

/-- A cast from its opening until its tiles are released. `filled`: every codeword is assigned; `opened`: TIME of
CAST_OPEN; `first`: TIME of its first pour; `failed`: reason of CAST_FAILED; `digest`: once CAST_DONE is appended;
`recSeq`: SEQ of its queued CAST record; `verified`: the record lies in a verified segment; `closed`: CAST_CLOSED is
committed; `visit`: its riser visit has begun. -/
structure Cast where
  m : Nat
  ranks : List Rank
  filled : Bool
  opened : Nat
  first : Option Nat
  failed : Option Nat
  digest : Option (List Byte)
  recSeq : Option Nat
  verified : Bool
  closed : Bool
  visit : Bool
  deriving DecidableEq, Repr

/-- An entry of the uncast-range list (Table 11.3). -/
structure Uncast where
  addr : Nat
  len : Nat
  cause : Nat
  reason : Nat
  time : Nat
  deriving DecidableEq, Repr

/-- A ledger pour under way: its records, its first segment, the number of segments, the segments that have passed verify on
S0 and on S1, and the segment after the last one whose gate has opened. -/
structure LPour where
  recs : List LRec
  seg : Nat
  nseg : Nat
  ok0 : Nat
  ok1 : Nat
  reached : Nat
  deriving DecidableEq, Repr

/-- Whether a position's pack is unmounted, being mounted, mounted, or being unmounted. -/
inductive MountState where
  | none | mounting | mounted | unmounting
  deriving DecidableEq, Repr

/-- OPC of a layer in its inner (0) or outer (1) test area, queued or under way (R220). -/
structure OpcRun where
  layer : Nat
  area : Nat
  surfaces : Nat
  deriving DecidableEq, Repr

/-- An entry of log page 0x03 or 0x06 (Table 11.7). -/
structure Unrec where
  addr : Nat
  rank : Nat
  surface : Nat
  result : Nat
  step : Nat
  aseq : Nat
  time : Nat
  deriving DecidableEq, Repr

/-- What one OPC run gave for a surface (R220 to R222, R227): power scale, level trims in 1/4,096, and mean e² and seed
block of the slot nearest k*. -/
structure OpcRes where
  ps : Nat
  t1 : Nat
  t2 : Nat
  t3 : Nat
  e2 : Nat
  seed : List Byte
  deriving DecidableEq, Repr

/-- The write values in use on a surface of a layer (R219, R222, R235): zone group, power scale, the three level trims in 1/4,096, the
wick table that the trims give, and whether they are the fallback. -/
structure OpcUse where
  zg : Nat
  ps : Nat
  trims : List Nat
  table : List Byte
  fallback : Bool
  deriving DecidableEq, Repr

/-- A pack and what the controller holds of it. `status`; `owner`: tag of the MOUNT, UNMOUNT or FORMAT under way;
`roMount`: mounted read-only; `roReason`: reason of the read-only state, 0 for none; `roCauses`: every cause of it that stands, oldest first; `blank`; `keyGone`: key
destroyed; `tag`: pack identity tag; `uuid`; `cardCrc`: CRC of the L0 card of S0; `fmt`: FORMAT under way, with the
last step recorded, its layer and its escrow identifier; `san`: obliteration under way; `sanMode`, `sanState`,
`sanLayer`, `sanNext`; `burnt`: slots a burn has passed, as layer, first slot and the slot after the last (R329); `power`: Table 15.7; `floor`; `temp`: 1/16 °C; `casts`: opened and not yet released, in the
order in which they opened; `open_`: the open cast; `append`: its next user codeword; `recorded`: casts with a CAST
record; `barred`: casts that cannot open again; `riser`: slots consumed per layer; `dead`: dead slots by layer *
2^22 + f; `moved`: governing slot of relocated ranks; `ledger`: records on the pack; `seg`: next blank segment;
`seqNext`: next SEQ; `lq`: queued records; `lpour`; `flushDue`: a trigger of R93 other than a count has come;
`stream`: layer and last slot of the pour stream; `uncast`; `seen`, `badCard`: layers whose cards were read, and
those refused; `uncal`: surfaces that cannot be calibrated; `opcIn`, `opcOut`: test slots consumed per layer; `opc`:
OPC runs queued; `recal`: recalibrations triggered and not yet taken up: layer, mask of surfaces, and bit k for each kind k of Table 8.1; `patrol`: ranks read, recovered, rebuilt and unrecovered
in the present patrol cycle, with its start; `reads`: ranks being
read; `failed2`: the surface and layer of the last verify failures, for two in succession (R88); `tempOf`: per accessed layer the pack temperature of the
values in use, 1/16 °C; `hot`: the pack temperature holds back pours (THERM_PACK);
`opcDone`: bit L, OPC of layer L has run in this mount (R224); `opcRuns`: results by surface of the runs
made of the OPC at the head of `opc`, none where not valid; `opcHalf`: first slot of the layer's inner area, with the results of items 0x01 and 0x06 there by surface;
`opcDiscards`: runs discarded; `opcPour`: pour descriptor and wick table of each test frame of the last run, slot by slot and surface by
surface; `opcUse`: the values pours use, by layer * 8 + surface (R219, R235); `seeded`: zone groups, by (layer * 8 + group) * 8 + surface,
whose seed the first cast of this mount has replaced (R227); `cards`: per layer the media card that passed its CRC (R238); `calBad`: items
that failed, as kind, surface and layer (R218); `goPark`: the pack goes to Spinning-idle and is there once its carriage is PARKED or OFF (R211); `goOff`: the pack goes Off and its link stops once the
spindle is OFF (R424); `patrolling`: the rank that a patrol reads;
`recon`: a mount has read the pack and its reconciliation runs; `patrolErr`: the entries of page 0x06, newest first. -/
structure PackState where
  status : MountState
  owner : Option Nat
  roMount : Bool
  roReason : Nat
  roCauses : List Nat
  blank : Bool
  keyGone : Bool
  tag : Nat
  uuid : Nat
  cardCrc : Nat
  fmt : Option (Nat × Nat × Nat)
  san : Bool
  sanMode : Nat
  sanState : Nat
  sanLayer : Nat
  sanNext : Nat
  burnt : List (Nat × Nat × Nat)
  power : Nat
  floor : Nat
  temp : Int
  casts : List Cast
  open_ : Option Nat
  append : Nat
  recorded : List Nat
  barred : List Nat
  riser : List (Nat × Nat)
  dead : List (Nat × Nat)
  moved : List (Nat × Nat)
  ledger : List LRec
  seg : Nat
  seqNext : Nat
  lq : List LRec
  lpour : Option LPour
  flushDue : Bool
  stream : Option (Nat × Nat)
  uncast : List Uncast
  seen : Nat
  badCard : Nat
  uncal : Nat
  opcIn : List (Nat × Nat)
  opcOut : List (Nat × Nat)
  opc : List OpcRun
  recal : List (Nat × Nat × Nat)
  patrol : Nat × Nat × Nat × Nat × Nat
  reads : List RankRead
  failed2 : List (Nat × Nat)
  tempOf : List (Nat × Int)
  hot : Bool
  recon : Bool
  patrolErr : List Unrec
  opcDone : Nat
  opcRuns : List (List (Option OpcRes))
  opcHalf : Option (Nat × List (Option (List Int)) × List (Option (List Int)))
  opcDiscards : Nat
  opcPour : List (List Byte × List Byte)
  opcUse : List (Nat × OpcUse)
  seeded : List Nat
  cards : List (Nat × List Byte)
  calBad : List (Nat × Nat × Nat)
  goOff : Bool
  goPark : Bool
  patrolling : Option Nat
  deriving DecidableEq, Repr

def PackState.reset : PackState :=
  { status := .none, owner := none, roMount := false, roReason := 0, roCauses := [], blank := false, keyGone := false, tag := 0,
    uuid := 0, cardCrc := 0, fmt := none, san := false, sanMode := 0, sanState := 0, sanLayer := 0, sanNext := 0, burnt := [],
    power := 0, floor := 0, temp := 0, casts := [], open_ := none, append := 0, recorded := [], barred := [],
    riser := [], dead := [], moved := [], ledger := [], seg := 0, seqNext := 0, lq := [], lpour := none,
    flushDue := false, stream := none, uncast := [], seen := 0, badCard := 0, uncal := 0, opcIn := [], opcOut := [],
    opc := [], recal := [], patrol := (0, 0, 0, 0, 0), reads := [], failed2 := [], tempOf := [], hot := false, recon := false, patrolErr := [],
    opcDone := 0, opcRuns := [], opcHalf := none, opcDiscards := 0, opcPour := [], opcUse := [], seeded := [], cards := [], calBad := [], goOff := false, goPark := false, patrolling := none }

/-- A stripe operation (R13): a pour or a read, with its eight engines by surface. -/
structure Stripe where
  p : PosIx
  pour : Bool
  engines : List EngIx
  deriving DecidableEq, Repr

end Sys2Proof.Machine
end

