-- ==== Sys2Proof/Machine/StateHost.lean ====
section
/-! DEFINITION. State of the host interface: queues, tags, completions and functions (chapters 10 and 11). -/

namespace Sys2Proof.Machine

/-- A submission queue (R280 to R284, R293, R302): `tail` is the doorbell's last value, `head` the next slot to
consume, `consumed` the count of entries consumed; `wake`: a fetch is pending; `frozenAt`: the stamp of the freezing
CQE's posting while the queue is frozen; `broken` (R302). -/
structure SQ where
  fn : FnIx
  qid : Nat
  log2 : Nat
  base : Nat
  cqid : Nat
  poll : Nat
  burst : Nat
  head : Nat
  tail : Nat
  consumed : Nat
  wake : Bool
  frozenAt : Option Nat
  broken : Bool
  deriving DecidableEq, Repr

/-- A completion waiting for a ring slot: its tag (none for an entry discarded at thaw) and its 31 body bytes. -/
structure Held where
  tag : Option Nat
  body : List Byte
  deriving DecidableEq, Repr

/-- A completion queue (R282, R288 to R292): P, the head count, the held completions in posting order (the first
HSHARE of them stand in its share, the rest in their tag contexts), whether it is paused, CQEs not yet signalled, and
the last value of its doorbell. -/
structure CQ where
  fn : FnIx
  qid : Nat
  log2 : Nat
  base : Nat
  iv : Nat
  ithr : Nat
  itime : Nat
  hshare : Nat
  ien : Bool
  posted : Nat
  head : Nat
  bell : Nat
  held : List Held
  paused : Bool
  unsig : Nat
  deriving DecidableEq, Repr

/-- The work of a command: nothing beyond its entry; a write with its position, first volume byte, data bytes, bytes
staged and FORCE; a write with COMPRESS whose stream is not complete (R400); a read or a verify with position, first
byte, length, bytes done, bytes transferred, codewords recovered late or rebuilt, and codewords unrecovered; a command of a pack; an
event wait; a compression job. -/
inductive Work where
  | none
  | write (p : PosIx) (vaddr len moved : Nat) (force : Bool)
  | inline (p : PosIx)
  | read (p : PosIx) (vaddr len moved : Nat) (verify : Bool) (sent late bad : Nat)
  | pack (p : PosIx)
  | event
  | job
  deriving DecidableEq, Repr

/-- A command tag in use (R283, R289, R298): the entry consumed, whether its data pointer keeps R276 and the
pieces of host memory it names,
`stamp`: when it was consumed; `aseq`, 0 while not admitted; `started`; `done`: its completion body stands in its
context; `taken`: the arbiter took its completion; `aborted`: it took an abort; `orphan`: its function was reset and
it frees when its work ends; `abortOf`: the tag that an ABORT waits for, and whether its completion had been taken;
`job`: the descriptor of the compression job that ended for it; `policy`: the policy values in force at its admission (R331). -/
structure Tag where
  num : Nat
  fn : FnIx
  sqid : Nat
  cqid : Nat
  cid : Nat
  sqe : List Byte
  ptrOk : Bool
  pieces : List (Nat × Nat)
  stamp : Nat
  aseq : Nat
  started : Bool
  done : Bool
  taken : Bool
  aborted : Bool
  orphan : Bool
  abortOf : Option (Nat × Bool)
  job : Option Nat
  policy : List (Nat × Nat)
  work : Work
  deriving DecidableEq, Repr

/-- An entry of log page 0x01 (Table 10.8). -/
structure ErrEntry where
  seq : Nat
  aseq : Nat
  cid : Nat
  sqid : Nat
  cls : Nat
  reason : Nat
  time : Nat
  deriving DecidableEq, Repr

/-- A function beyond its registers: position grant (F0 holds every position), reset handling under way, an EN
write waiting for its end, the error log newest first with ERRCNT, page 0x03 newest first, changes of pages not yet
reported as (page, position), MSI-X vectors pending while masked, reads of page 0x01 as (stamp consumed, stamp posted),
and the SQ fetched last (R281). -/
structure FnState where
  grant : Nat
  resetting : Bool
  enNext : Bool
  errCount : Nat
  errLog : List ErrEntry
  unrec : List Unrec
  changes : List (Nat × Nat)
  pendVec : List Nat
  logReads : List (Nat × Nat)
  lastSq : Nat
  deriving DecidableEq, Repr

def FnState.reset : FnState :=
  { grant := 0, resetting := false, enNext := false, errCount := 0, errLog := [], unrec := [],
    changes := [], pendVec := [], logReads := [], lastSq := 0 }

/-- An event for firmware in HQI_EVT (Table 10.11). -/
structure HqiEvent where
  code : Nat
  fn : Nat
  qid : Nat
  tag : Nat
  deriving DecidableEq, Repr

/-- The host interface beyond its registers: queues, tags in use, the firmware event queue and whether it overflowed,
a count of
consumptions and postings, the next ASEQ and the end of the reserved block (R309), the function served last in the round robin (R281), the last
values written to doorbells,
the PCIe lanes that failed, the link width, whether the PCIe link and the reference clock are up, and the MSI-X table bytes that differ from
their reset values, by function and offset. -/
structure HqiState where
  sqs : List SQ
  cqs : List CQ
  tags : List Tag
  events : List HqiEvent
  evtLost : Bool
  stamp : Nat
  aseq : Nat
  aseqEnd : Nat
  lanesBad : Nat
  width : Nat
  linkUp : Bool
  refclk : Bool
  lastFn : Nat
  bells : List (Nat × Nat)
  msix : List (Nat × Nat)
  deriving DecidableEq, Repr

/-- DESIGN CHOICE: log 11. -/
def HqiState.reset : HqiState :=
  { sqs := [], cqs := [], tags := [], events := [], evtLost := false, stamp := 0, aseq := 1, aseqEnd := 4294967296,
    lanesBad := 0, width := 8, linkUp := true, refclk := true, lastFn := 0, bells := [], msix := [] }

end Sys2Proof.Machine
end

