-- ==== Sys2Proof/Machine/StateMemory.lean ====
section
/-! DEFINITION. State of the memories, BUF, CCH, PERF, FLT and TIME that no register shows (chapters 12, 13, 18). -/

namespace Sys2Proof.Machine

/-- The ordering parts (Table 0.1). -/
inductive Part where
  | oa824 | oa408
  deriving DecidableEq, Repr

/-- What the last requester was answered (R7, R11, R343, R366, Table 12.3). -/
inductive Resp where
  | none
  | data (bytes : List Byte)
  | value (v : Nat)
  | written
  | busError (reason : Nat)
  | illegalAccess
  | machineCheck
  | prefetchDropped
  | channelHalt (reason : Nat)
  | jobHalt (reason : Nat)
  | frameAbandoned
  | readAborted
  | requestFailed (reason : Nat)
  | errorResponse (reason : Nat)
  | waits
  | ignored
  deriving DecidableEq, Repr

/-- What the device sends to the host: bytes written to host memory, an MSI-X message (R292), a message to the
requester of an SPDM exchange (R464). -/
inductive HostMsg where
  | write (fn : Nat) (addr : Nat) (bytes : List Byte)
  | msix (fn vector : Nat)
  | spdm (bytes : List Byte)
  deriving DecidableEq, Repr

/-- An event record (Table 18.2); CRC and the zero bytes are formed when it is encoded. -/
structure EventRec where
  seq : Nat
  time : Nat
  reason : Nat
  source : Nat
  pos : Nat
  flags : Nat
  addr : Nat
  detail : Nat
  deriving DecidableEq, Repr

/-- FLT beyond its registers (R476): records appended and not yet in the MRAM, the next SEQ, the end of the reserved
block of SEQ and the number of records ever written to the ring. -/
structure FltState where
  pend : List EventRec
  nextSeq : Nat
  seqEnd : Nat
  written : Nat
  deriving DecidableEq, Repr

/-- TIME beyond its registers (R478 to R481): the 32-bit fraction, the nanoseconds still to hold, seconds waiting to
be set, local nanoseconds run since power-on, the local instant of the previous accepted edge, edges and corrections
since the last trim update, edges taken since the last acquisition, consecutive edges beyond WIN, and whether the
next accepted edge is an acquisition. -/
structure TimeState where
  frac : Nat
  hold : Nat
  setSec : Option Nat
  local_ : Nat
  lastEdge : Option Nat
  avgCount : Nat
  avgSum : Int
  sinceAcq : Nat
  beyond : Nat
  acquire : Bool
  deriving DecidableEq, Repr

/-- BUF beyond its registers: the last 64 corrected addresses with their counts, newest last (R344), the local times
of exhausted repeats of each device (R356), interfaces in retraining, and whether the devices are in self-refresh
(R420). -/
structure BufState where
  ceTab : List (Nat × Nat)
  exhausted0 : List Nat
  exhausted1 : List Nat
  retrain0 : Bool
  retrain1 : Bool
  selfRefresh : Bool
  deriving DecidableEq, Repr

/-- A line of the shared cache (R368): its tag, whether it is dirty, and its 64 bytes. -/
structure CLine where
  tag : Nat
  dirty : Bool
  data : List Byte
  deriving DecidableEq, Repr

/-- An entry of the eviction buffer (R374). -/
structure EvEntry where
  line : Nat
  data : List Byte
  deriving DecidableEq, Repr

/-- The shared cache: valid lines by set * 16 + way, the pseudo-LRU bits by set, the eviction buffer oldest first. -/
structure CchState where
  lines : List (Nat × CLine)
  plru : List (Nat × Nat)
  evb : List EvEntry
  deriving DecidableEq, Repr

/-- The twelve counters of one core, in the order of Table 13.7: CYC, DUAL, SINGLE, SHORT, EMPTY, LWCCH, LWFAR,
DEPWAIT, BLOCK, RETIRED, SQUASHED, REDIRECT. -/
abbrev Counters := Vector Nat 12

/-- Sampling of one core (R381): the countdown, whether a marked instruction is in flight with the trigger that
marked it, and how many numbers its generator has given. -/
structure SampleState where
  countdown : Nat
  marked : Option Nat
  drawn : Nat
  deriving DecidableEq, Repr

/-- PERF beyond its registers: the live counters of each core, its instructions issued and neither retired nor cancelled, and its
sampling state. -/
structure PerfState where
  live : Vector Counters 6
  flight : Vector Nat 6
  sample : Vector SampleState 6
  deriving DecidableEq, Repr

/-- Levels of pins that the device reacts to: bit p of `shock` while SHOCK_Np is low, bit p of `sense` while
PACK_SENSE_Np has asserted, PWRFAIL_N low, PERST_N low while PERST_LVL is 0, test mode of the JTAG controller (R412) and an EXTEST instruction held
(R497). -/
structure PinState where
  shock : Nat
  sense : Nat
  pwrFail : Bool
  perst : Bool
  testMode : Bool
  extest : Bool
  deriving DecidableEq, Repr

end Sys2Proof.Machine
end

