-- ==== Sys2Proof/Machine/StatePosition.lean ====
section
/-! DEFINITION. State of a position's servo, spindle, carriage and link, and of its PF8, that no register of the
controller shows (chapters 5, 6, 7 and 9). -/

namespace Sys2Proof.Machine

/-- What a position's three-phase bridge does: all gates off, the commutation step in SPN_IPH.STEP, or short brake
(all three low sides on and no high side, Table 6.2). -/
inductive Bridge where
  | off | drive | brake
  deriving DecidableEq, Repr

/-- The spindle parameters that act from a speed-loop period on (R190): open-loop rate, handover count, align and limit
currents, peak current, least on-time, current-loop gains and dead time. -/
structure SpnParams where
  olRate : Nat
  handover : Nat
  alignI : Nat
  ilim : Nat
  ipeak : Nat
  minon : Nat
  kp : Nat
  ki : Nat
  deadt : Nat
  deriving DecidableEq, Repr

/-- As the registers read after reset (Tables 6.8 and 6.10). -/
def SpnParams.reset : SpnParams :=
  { olRate := 0x03E8, handover := 0x06, alignI := 0x04B0, ilim := 0x0708, ipeak := 0x0C80, minon := 0x0064, kp := 0x0100,
    ki := 0x0010, deadt := 0x32 }

/-- What the bridge did until it last changed: its state, its step, and when it changed (R170). -/
structure BridgeWas where
  bridge : Bridge
  step : Nat
  time : Nat
  deriving DecidableEq, Repr

/-- The PLL of the spindle angle counter (R187): the counter's part of a count in 2^-32, its rate and the rate's integral part
in 2^-32 counts per tick, the local time of the last tick in ns, and, once an event has come in RUN, the angle of the first
in 2^-32 counts with the number of events since. -/
structure AnglePll where
  sub : Nat
  rate : Nat
  integ : Int
  tick : Nat
  base : Option (Int × Nat)
  deriving DecidableEq, Repr

def AnglePll.reset : AnglePll := { sub := 0, rate := 0, integ := 0, tick := 0, base := none }

/-- How STOPPING proceeds (R183). -/
inductive StopPhase where
  | none | regen | interval | window | final
  deriving DecidableEq, Repr

/-- The spindle drive beyond its registers.
`bridge`: what the gates do now; `coastNext`, `brakeNext`: a change to coast or to short brake waits for the next
PWM period; `stop`: how STOPPING proceeds; `stopAfterBrake`: BRAKE ends in OFF; `waitSlot`: an accepted START waits
for its spin-up slot (R482); `degraded`: the degraded speed is requested (R178); `applied`: applied target in
10^-7 rpm; `speedInt`: sum of the speed errors; `demand`: current demand in 2^-16 10^-7 mA; `currentInt`: sum of the
current errors; `duty`: duty in units where one is 2^32 10^7; `peaks`: consecutive periods at IPEAK; `intervals`:
the last event intervals in ns, newest first; `lastEvent`: local time of the last event in ns; `time`: local time in
ns at the start of the present PWM period; `lastComm`: time of the last commutation; `due`: the event that the next
commutation follows, with the sum of its last two intervals; `lastDiff`: the floating phase less the neutral at the last sample; `rampSpeed`: scheduled speed in 10^-6 rpm;
`rampPhase`: part of a step gone in the open-loop schedule; `inOrder`: consecutive events in step order in RAMP;
`lastStep`: step of the last event; `goodEvents`: events within 512 counts of phase error since RUN was entered;
`inWindow`: speed-loop periods within 0.05 % of target; `chop`: SPNp_CHOP commanded; `chopAge`: PWM periods since it
was commanded on; `cause`: the reason FAULT was entered for; `was`: the bridge before its last change; `cut`: the instant of
the present PWM period, in 10 ns, from which IPEAK holds the high side off; `par`: the parameters in force; `pll`: the angle
counter's PLL. -/
structure SpnState where
  bridge : Bridge
  coastNext : Bool
  brakeNext : Bool
  stop : StopPhase
  stopAfterBrake : Bool
  waitSlot : Bool
  degraded : Bool
  applied : Nat
  speedInt : Int
  demand : Int
  currentInt : Int
  duty : Int
  peaks : Nat
  intervals : List Nat
  lastEvent : Nat
  time : Nat
  lastComm : Nat
  due : Option (Nat × Nat)
  lastDiff : Option Int
  rampSpeed : Nat
  rampPhase : Nat
  inOrder : Nat
  lastStep : Nat
  goodEvents : Nat
  inWindow : Nat
  chop : Bool
  chopAge : Nat
  cause : Nat
  was : BridgeWas
  cut : Option Nat
  par : SpnParams
  pll : AnglePll
  deriving DecidableEq, Repr

def SpnState.reset : SpnState :=
  { bridge := .off, coastNext := false, brakeNext := false, stop := .none, stopAfterBrake := false,
    waitSlot := false, degraded := false, applied := 0, speedInt := 0, demand := 0, currentInt := 0, duty := 0,
    peaks := 0, intervals := [], lastEvent := 0, time := 0, lastComm := 0, due := none, lastDiff := none,
    rampSpeed := 0, rampPhase := 0, inOrder := 0, lastStep := 0, goodEvents := 0, inWindow := 0, chop := false,
    chopAge := 0, cause := 0, was := ⟨.off, 0, 0⟩, cut := none, par := .reset, pll := .reset }

/-- What the carriage does when its reference has come to rest (R209): HOLD, or FAULT holding the rest position. -/
inductive RestGoal where
  | hold | fault
  deriving DecidableEq, Repr

/-- A stretch of a planned path (R199), over `n` loop periods; positions in 2^-40 counts, velocities per period, accelerations
per period². `release`: the acceleration a0 goes to zero linearly, from x0 and v0. `ramp`: from x0 and v0 to x1 and v1, both at
zero acceleration; the acceleration rises over the first `nj` periods and falls over the last. -/
inductive PlanSeg where
  | release (n : Nat) (x0 v0 a0 : Int)
  | ramp (n nj : Nat) (x0 x1 v0 v1 : Int)
  deriving DecidableEq, Repr

/-- What a plan was made for: its target, none for a stop, and VMAX, AMAX and JMAX. -/
structure PlanFor where
  target : Option Int
  vmax : Nat
  amax : Nat
  jmax : Nat
  deriving DecidableEq, Repr

/-- The carriage drive beyond its registers.
`bridgeOn`: the bridge is driven; `offNext`: OFF waits for the next PWM period; `vel`, `acc`: reference velocity and
acceleration in 2^-40 counts per loop period and per loop period²; `plan`: what is left of the planned path; `planAt`: periods
into its first stretch; `planFor`: what it was made for; `target`: where the generator goes, in counts; `started`: periods
since the seek began; `seekFrom`: reference at the start of the seek, 2^-40 counts; `onTable`: the seek follows the
segment table (R203); `parking`: the seek ends in PARKED; `stopping`: the reference decelerates to rest; `rest`:
what follows at rest; `openLoop`: the open-loop stop of reason 0x0707; `bridgeCut`: FAULT with the bridge off;
`cur`: current amplitude I in 2^-56 mA; `m`: microstep index; `mLoop`: its value at the last loop period; `mRotor`: the rotor
angle then, without the step that the force's sign adds; `mStep`: how far that angle moved over the loop period before;
`mTicks`: PWM periods since; `demA`, `demB`: demanded phase currents in 2^-56 mA; `intA`, `intB`: sums of the phase current errors;
`dutyA`, `dutyB`: phase duties; `integ`: sum of errors; `prevErr`: previous error; `settle`: periods in the settle
window; `ferr`: consecutive periods beyond CAR_FERR.MAX; `ovc`: consecutive PWM periods of overcurrent; `outward`:
homing has reversed outward; `engage`: the gear engages at the next period; `p0`, `gearSum`: reference at engagement and summed motion, 2^-40 counts; `lastAngle`:
SPN_ANGLE at the last period; `posPrev`: CAR_POS at the last period; `velMeas`: counts moved over the last period; `cause`: the
reason FAULT was entered for; `alignDue`: a cleared fault calls for the carriage alignment (Table 8.6); `fixAmax`,
`fixJmax`: limits a decelerating seek keeps (R201). -/
structure CarState where
  bridgeOn : Bool
  offNext : Bool
  vel : Int
  acc : Int
  plan : List PlanSeg
  planAt : Nat
  planFor : Option PlanFor
  target : Int
  started : Nat
  seekFrom : Int
  onTable : Bool
  parking : Bool
  stopping : Bool
  rest : RestGoal
  openLoop : Bool
  bridgeCut : Bool
  cur : Int
  m : Nat
  mLoop : Nat
  mRotor : Nat
  mStep : Int
  mTicks : Nat
  demA : Int
  demB : Int
  intA : Int
  intB : Int
  dutyA : Int
  dutyB : Int
  integ : Int
  prevErr : Int
  settle : Nat
  ferr : Nat
  ovc : Nat
  outward : Bool
  engage : Bool
  p0 : Int
  gearSum : Int
  lastAngle : Nat
  posPrev : Int
  velMeas : Int
  cause : Nat
  alignDue : Bool
  fixAmax : Option Nat
  fixJmax : Option Nat
  deriving DecidableEq, Repr

def CarState.reset : CarState :=
  { bridgeOn := false, offNext := false, vel := 0, acc := 0, plan := [], planAt := 0, planFor := none, target := 0, started := 0, seekFrom := 0,
    onTable := false, parking := false, stopping := false, rest := .hold, openLoop := false, bridgeCut := false,
    cur := 0, m := 0, mLoop := 0, mRotor := 0, mStep := 0, mTicks := 0, demA := 0, demB := 0, intA := 0, intB := 0,
    dutyA := 0, dutyB := 0, integ := 0, prevErr := 0, settle := 0, ferr := 0, ovc := 0, outward := false, engage := false,
    p0 := 0, gearSum := 0, lastAngle := 0, posPrev := 0, velMeas := 0, cause := 0, alignDue := false, fixAmax := none, fixJmax := none }

/-- One biquad section's history (R148). -/
structure Sec where
  x1 : Int
  x2 : Int
  y1 : Int
  y2 : Int
  deriving DecidableEq, Repr

def Sec.zero : Sec := ⟨0, 0, 0, 0⟩

/-- What a loop carries from run to run beside its registers: section states, and the sign of the last clamp. -/
structure LoopCore where
  integ : Int
  secs : List Sec
  clamped : Option Int
  deriving DecidableEq, Repr

def LoopCore.zero : LoopCore := ⟨0, List.replicate 6 Sec.zero, none⟩

/-- A surface loop beyond its registers: the mode in force (LOOP_CTRL.MODE acts from the next boundary, R153), its
core, its checkpoint (R162), the bank in force, a mode or a gain copy waiting for the next boundary, the drive code
for the next boundary, consecutive disagreements, and whether it disagreed when it last ran. -/
structure LoopState where
  mode : Nat
  core : LoopCore
  check : LoopCore
  bank : Nat
  pendMode : Option Nat
  gainNow : Bool
  next : Int
  disagree : Nat
  mismatched : Bool
  deriving DecidableEq, Repr

def LoopState.reset : LoopState :=
  { mode := 0, core := .zero, check := .zero, bank := 0, pendMode := none, gainNow := false, next := 0, disagree := 0,
    mismatched := false }

/-- Where a jump sequence stands (Table 5.4). -/
inductive JumpPhase where
  | sweep | kick | coast | brake | land
  deriving DecidableEq, Repr

/-- A running jump sequence: kind, phase, direction, ticks in the phase, layers or tracks still to go, the
drive code it opens a loop with, the tick count since the last land-centre crossing, the tilt mode it resumes (R161),
whether its first tick is over, and the highest SUM since the last FE zero crossing (KIND 0). -/
structure Jump where
  kind : Nat
  phase : JumpPhase
  inward : Bool
  ticks : Nat
  left : Nat
  drive : Int
  sinceLand : Option Nat
  tilt : Nat
  begun : Bool
  peak : Nat
  deriving DecidableEq, Repr

/-- The four samples of a pickup (R144). -/
structure Sample where
  fe : Int
  te : Int
  tlt : Int
  sum : Nat
  deriving DecidableEq, Repr

def Sample.zero : Sample := ⟨0, 0, 0, 0⟩

/-- A surface beyond its registers: latched set-points, the last valid samples and those before them, the sum and
number of TLT samples since the tilt loop ran, ticks with SUM below SUM_MIN, the jump waiting for the next boundary,
the running jump, an abort waiting for the next boundary, the tracking codes summed for the centring term, the layer that the
sequencer has closed focus on (Table 5.4), and the layer whose loop items were applied last (R235). -/
structure SurfState where
  spFocus : Int
  spTrack : Int
  spTilt : Int
  last : Sample
  prev : Sample
  tltSum : Int
  tltCount : Nat
  lowSum : Nat
  goNext : Bool
  abortNext : Bool
  jump : Option Jump
  centreSum : Int
  centreCount : Nat
  layer : Nat
  applied : Option Nat
  deriving DecidableEq, Repr

def SurfState.reset : SurfState :=
  { spFocus := 0, spTrack := 0, spTilt := 0, last := .zero, prev := .zero, tltSum := 0, tltCount := 0, lowSum := 0,
    goNext := false, abortNext := false, jump := none, centreSum := 0, centreCount := 0, layer := 0, applied := none }

/-- A data slot's content as received: the samples and the 32 valid marks. -/
structure SlotContent where
  samples : List Sample
  valid : Nat
  deriving DecidableEq, Repr

/-- The servo engine of a position beyond its registers: loops l = 0 to 23, surfaces s = 0 to 7, the upstream slot
content waiting for the next tick (none: missing or in error), the joined spare, ticks voted since the last strike,
the tick of each lane's first strike (A, B, spare), whether the servo has failed and waits for SERVO_FAIL, and
whether SRV_CTRL.EN acts from the next boundary. -/
structure SrvState where
  loops : Vector LoopState 24
  surfs : Vector SurfState 8
  slot : Option SlotContent
  spare : Option (Fin 2)
  votes : Nat
  strikeA : List Nat
  strikeB : List Nat
  strikeS : List Nat
  failDue : Bool
  running : Bool
  deriving DecidableEq, Repr

def SrvState.reset : SrvState :=
  { loops := Vector.replicate 24 .reset, surfs := Vector.replicate 8 .reset, slot := none, spare := none, votes := 0,
    strikeA := [], strikeB := [], strikeS := [], failDue := false, running := false }

/-- A spare lane of the shared array (R162): free, joined to a position, working in a position's A or B place after
a fence (R164), or fenced until the next power-on reset. -/
inductive SpareLane where
  | free
  | joined (p : PosIx)
  | working (p : PosIx) (laneB : Bool)
  | fenced
  deriving DecidableEq, Repr

/-- Who asked for a control request (R258): firmware through IGL_CCMD, an engine, the IGL itself, or firmware's calibration for a
spherical-aberration setting (R159). -/
inductive CreqOwner where
  | firmware | engine (e : EngIx) | link | cal
  deriving DecidableEq, Repr

/-- An outstanding control request (R256). -/
structure Creq where
  seq : Nat
  op : Nat
  addr : Nat
  data : Nat
  tries : Nat
  owner : CreqOwner
  deriving DecidableEq, Repr

/-- An event in the 32-entry queue of IGL_EVT. -/
structure IglEvent where
  code : Nat
  mask : Nat
  data : Nat
  deriving DecidableEq, Repr

/-- What a lane sends in one block time (Table 9.1, R246): a SERVO or, on lane 3 of four, PARITY block of the data slot, a STATUS block
with its slot and OFS, a CREQ with its SEQ, a block of a wick packet, and so on. -/
inductive TxBlock where
  | snuff | snuffClr | align | idle | packet
  | servo (second : Bool)
  | status (slot ofs : Nat)
  | creq (seq : Nat)
  deriving DecidableEq, Repr

/-- The transmitter of a link (R246, R247): whether the snuff latch's SNUFF has been asked for, the SNUFF, SNUFF_CLR and ALIGN blocks
due, whether the second block of the servo data slot is, SEQs of the CREQ blocks waiting, logical-stream positions since the last
control block (64 at most), blocks left of the packet that goes out, packets waiting, the next block boundary after the tick boundary
in 1/7 ns, the blocks that each lane has scrambled since its last ALIGN block (R244), and what the lanes sent in the block times of the last tick, lowest lane first. -/
structure TxState where
  latched : Bool
  snuff : Bool
  clr : Bool
  align : Bool
  second : Bool
  ctrl : List Nat
  since : Nat
  left : Nat
  packets : Nat
  phase : Nat
  scrambled : Nat
  line : List (List TxBlock)
  deriving DecidableEq, Repr

def TxState.reset : TxState :=
  { latched := true, snuff := false, clr := false, align := false, second := false, ctrl := [], since := 64, left := 0, packets := 0,
    phase := 0, scrambled := 0, line := [] }

/-- The link controller beyond its registers: outstanding requests oldest first, requests that wait for one of the
eight places, the next SEQ, the event queue, events lost, consecutive upstream data slots in error, consecutive
downstream errors reported, the lane a DEGRADE was sent for, the
lanes whose ALIGN blocks of a lane change have arrived, per pickup and stream the SYMCNT expected next, whether a downstream error was reported since the last tick, whether the
lane-change ALIGN was sent, the wick table address last uploaded for each pickup, the state that the last ALIGN
block gave each lane's transmit scrambler and receive descrambler, and the transmitter. -/
structure IglState where
  out : List Creq
  waiting : List Creq
  seq : Nat
  events : List IglEvent
  evtLost : Bool
  upErrors : Nat
  downErrors : Nat
  degrading : Option Nat
  aligned : Nat
  symNext : List (Nat × Nat)
  downSeen : Bool
  alignSent : Bool
  wickAddr : List (Nat × Nat)
  txScr : List Nat
  rxScr : List Nat
  tx : TxState
  deriving DecidableEq, Repr

def IglState.reset : IglState :=
  { out := [], waiting := [], seq := 0, events := [], evtLost := false, upErrors := 0, downErrors := 0,
    degrading := none, aligned := 0, symNext := [], downSeen := false,
    alignSent := false, wickAddr := [], txScr := List.replicate 4 0, rxScr := List.replicate 4 0, tx := .reset }

/-- The PF8 of a position as far as the chapters describe it: the drive codes it holds (24, pickup-major focus,
tracking, tilt), codes for the next boundary, consecutive downstream slots in error and valid, whether it is parked
with lasers off, whether it ignores wick packets until SNUFF_CLR, per pickup whether the write gate is open and the
symbol its next code is due at, the wick code last driven and the power scale (R73, R74), the wick-underrun mask, per pickup zone, mode and spherical aberration, the wick
tables by pickup and bank, the active bank, and its fault mask and downstream delay. -/
structure Pf8State where
  held : List Int
  nextCodes : Option (List Int)
  bad : Nat
  good : Nat
  parked : Bool
  ignoreWick : Bool
  gate : List Bool
  nextSym : List Nat
  code : List Nat
  scale : List Nat
  underrun : Nat
  zone : List Nat
  mode : List Nat
  sa : List Nat
  wick : List (Nat × Nat)
  bank : List Nat
  fault : Nat
  ddown : Nat
  lanesDropped : Option Nat
  deriving DecidableEq, Repr

def Pf8State.reset : Pf8State :=
  { held := List.replicate 24 0, nextCodes := none, bad := 0, good := 0, parked := false, ignoreWick := false,
    gate := List.replicate 8 false, nextSym := List.replicate 8 0,
    code := List.replicate 8 0, scale := List.replicate 8 0, underrun := 0, zone := List.replicate 8 0,
    mode := List.replicate 8 0, sa := List.replicate 8 0, wick := [], bank := List.replicate 8 0, fault := 0,
    ddown := 0, lanesDropped := none }

end Sys2Proof.Machine
end

