-- ==== Sys2Proof/Machine/State.lean ====
section
/-! DEFINITION. The state of the block, its reset value, and the reasons a step can stop. -/

namespace Sys2Proof.Machine

/-- Faults. The spec stops the block at no command: a bus error, a machine check, a halted channel and a failed device are
effects on the state (R11, R343, Table 12.3), so there is no fault to raise. DEDUCED: log 5. -/
inductive Fault where
  deriving DecidableEq, Repr

/-- Refusals. -/
inductive Refusal where
  /-- A command without a meaning, by its mnemonic; raised by no arm of `exec` now. Safe: nothing is claimed of it. -/
  | notModelled (mnemonic : String)
  deriving DecidableEq, Repr

/-- What stands at a position beyond its registers: spindle, carriage, servo and link, the PF8 at the far end, the levels
of the carriage encoder inputs, and bit f while surface f's write gate is open (R72). -/
structure PosState where
  spn : SpnState
  car : CarState
  srv : SrvState
  igl : IglState
  pf8 : Pf8State
  encA : Bool
  encB : Bool
  gates : Nat
  deriving DecidableEq, Repr

def PosState.reset : PosState :=
  { spn := .reset, car := .reset, srv := .reset, igl := .reset, pf8 := .reset, encA := false, encB := false, gates := 0 }

/-- The state of the block. -/
structure State where
  /-- The ordering part (Table 0.1). DESIGN CHOICE: log 10. -/
  part : Part
  /-- Every register field that differs from its reset value (chapters 3 to 18). -/
  regs : RegFile
  /-- The on-die SRAM, the Ember store and the GDDR7 window, sparse (Table 1.3); SRAM and Ember by fabric address, the
  window by offset. -/
  sram : List Host.Cell
  ember : List Host.Cell
  gddr : List Host.Cell
  /-- Words that hold wrong bits: word address, and 1 for a correctable or 2 for an uncorrectable word (R342). -/
  marks : List (Nat × Nat)
  /-- The answer to the last requester (R7, R11, Table 12.3). -/
  resp : Resp
  /-- DMA channels that stand halted (R11, R344). -/
  halted : List Requester
  /-- Accesses that wait, oldest first: requester, address and access (R12, R356). -/
  waitq : List (Requester × Nat × Access)
  /-- What the host has been sent, oldest first. -/
  hostOut : List HostMsg
  /-- How many free values have been drawn: the model's own field. DESIGN CHOICE: log 4. -/
  freeCtr : Nat
  /-- BUF, CCH, PERF, FLT and TIME beyond their registers (chapters 12, 13, 18). -/
  buf : BufState
  cch : CchState
  perf : PerfState
  flt : FltState
  tim : TimeState
  /-- Pin levels. -/
  pins : PinState
  /-- Positions P0 to P7 (chapters 5, 6, 7 and 9). -/
  pos : Vector PosState 8
  /-- The two spare servo lanes (R162). -/
  spares : Vector SpareLane 2
  /-- Policy parameters that differ from their defaults, by parameter * 16 + position (R331). -/
  policy : List (Nat × Nat)
  /-- Beam engines E0 to E23 (chapters 3 and 4). -/
  eng : Vector EngState 24
  /-- Packs at the positions (chapters 2, 3 and 11). -/
  packs : Vector PackState 8
  /-- Uncast-range lists of packs that are not mounted, by pack tag (R318). -/
  lists : List (Nat × List Uncast)
  /-- Stripe operations under way (R13). -/
  stripes : List Stripe
  /-- The Ember journal (R91). -/
  journal : Journal
  /-- The host interface (chapter 10) and the functions F0 to F15. -/
  hqi : HqiState
  fns : Vector FnState 16
  /-- CAL, CMP, Mantle, and Lamplighter with the reset logic (chapters 8, 14, 17 and 16). -/
  cal : CalState
  cmp : CmpState
  mtl : MtlState
  lamp : LampState
  /-- Commands waiting, first in first out. DESIGN CHOICE: log 1. -/
  pending : List Instr
  deriving DecidableEq, Repr

/-- The registers after a power-on reset: every field at the value its table gives, but those that report the reset itself:
LAMP_CAUSE.POR (R450) and CLK_SRC.X32, the Ember domain's running crystal. DESIGN CHOICE: log 2. -/
def RegFile.reset : RegFile := RegFile.wr (RegFile.wr [] R.lampCausePor 1) R.clkSrcX32 1

/-- The machine right after a power-on reset has been applied (R430, Table 16.1): its source still holds the power-on level,
so RESET_RELEASE begins the start-up sequence (R436). Nothing is stored, no pack is seated, the queue is empty.
DESIGN CHOICE: log 2, 9, 11; DEDUCED: log 37. -/
def State.reset : State :=
  { part := .oa824, regs := .reset, sram := [], ember := [], gddr := [], marks := [], resp := .none, halted := [],
    waitq := [], hostOut := [],
    freeCtr := 0,
    buf := { ceTab := [], exhausted0 := [], exhausted1 := [], retrain0 := false, retrain1 := false, selfRefresh := false },
    cch := { lines := [], plru := [], evb := [] },
    perf := { live := Vector.replicate 6 (Vector.replicate 12 0), flight := Vector.replicate 6 0,
              sample := Vector.replicate 6 { countdown := 0, marked := none, drawn := 0 } },
    flt := { pend := [], nextSeq := 0, seqEnd := 2 ^ 32, written := 0 },
    tim := { frac := 0, hold := 0, setSec := none, local_ := 0, lastEdge := none, avgCount := 0, avgSum := 0, sinceAcq := 0,
             beyond := 0, acquire := true },
    pins := { shock := 0, sense := 0, pwrFail := false, perst := false, testMode := false, extest := false },
    pos := Vector.replicate 8 .reset, spares := Vector.replicate 2 .free, policy := [], eng := Vector.replicate 24 .reset,
    packs := Vector.replicate 8 .reset, lists := [], stripes := [],
    journal := { entries := [], pend := [], next := 0, seqEnd := 2 ^ 32 },
    hqi := { HqiState.reset with linkUp := false }, fns := Vector.replicate 16 .reset, cal := .reset, cmp := .reset,
    mtl := .reset, lamp := { LampState.reset with level := some .power, porHeld := true }, pending := [] }

end Sys2Proof.Machine
end

