-- ==== Sys2Proof/Machine/Ops.lean ====
section
/-! DEFINITION. The named operations every meaning is built from: registers, free values, open roundings, the event
log, and updates of one position. -/

namespace Sys2Proof.Machine

/-- The outcome of a command. -/
abbrev Out := Host.Outcome State Fault Refusal

/-- The value of a register field. -/
def State.rd (s : State) (f : Fld) : Nat := RegFile.rd s.regs f

/-- The state with a register field at a value. -/
def State.wr (s : State) (f : Fld) (v : Nat) : State := { s with regs := RegFile.wr s.regs f v }

/-- A register field that is one bit, as a truth value. -/
def State.bit (s : State) (f : Fld) : Bool := s.rd f == 1

/-- The value of a signed field. -/
def State.rdI (s : State) (f : Fld) : Int := toSigned f.w (s.rd f)

/-- The state with a signed field at a value, wrapped to the field's width. -/
def State.wrI (s : State) (f : Fld) (v : Int) : State := s.wr f (ofSigned f.w v)

/-- The state with a one-bit field set, and with it clear. -/
def State.set1 (s : State) (f : Fld) : State := s.wr f 1
def State.clr1 (s : State) (f : Fld) : State := s.wr f 0

/-- A field with bit n set, and with bit n clear. -/
def State.setBitOf (s : State) (f : Fld) (n : Nat) : State := s.wr f (setBit (s.rd f) n)
def State.clrBitOf (s : State) (f : Fld) (n : Nat) : State := s.wr f (clrBit (s.rd f) n)

/-- A counter field raised by n, saturating at its largest value. -/
def State.bump (s : State) (f : Fld) (n : Nat) : State := s.wr f (satNat f.w (s.rd f + n))

/-- A free-running counter field raised by n, wrapping. -/
def State.tickUp (s : State) (f : Fld) (n : Nat) : State := s.wr f (s.rd f + n)

/-- The free value of a site at this moment, and the state that has given it: each asking gets a value of its own. DESIGN CHOICE: log 4. -/
def State.draw (s : State) (site : Nat) : Nat × State :=
  (Config.free site s.freeCtr, { s with freeCtr := s.freeCtr + 1 })

/-- A free signed value within lo and hi. DESIGN CHOICE: log 4. -/
def State.drawIn (s : State) (site : Nat) (lo hi : Int) : Int × State :=
  let (v, s) := s.draw site
  (if hi < lo then lo else lo + (v : Int) % (hi - lo + 1), s)

/-- num/den rounded to a neighbouring integer; which neighbour, where it is not exact, the spec leaves open. -/
def openRound (site : Nat) (num den : Int) : Int :=
  let q := num / den
  if num % den = 0 then q else if Config.roundUp site num den then q + 1 else q

/-- num/den rounded to the nearest integer, halves up. -/
def roundHalfUp (num den : Int) : Int := (2 * num + den) / (2 * den)

/-- The integer square root. -/
def isqrt (n : Nat) : Nat :=
  (List.range 64).foldr (fun b r => if (r + 2 ^ b) * (r + 2 ^ b) ≤ n then r + 2 ^ b else r) 0

/-- A neighbour of the square root of n; which one, where it is not exact, the spec leaves open. -/
def openSqrt (site n : Nat) : Nat :=
  let r := isqrt n
  if r * r = n then r else if Config.roundUp site n 1 then r + 1 else r

/-- No position (Table 18.2). -/
def noPos : Nat := 0xFF

/-- FLT appends an event record (R476): the next SEQ, TIME, and FLT's registers; HOLDOVER goes into FLAGS [1]. -/
def State.logF (s : State) (reason source pos flags addr detail : Nat) : State :=
  let r : EventRec := { seq := s.flt.nextSeq, time := s.rd R.timeNowNs, reason := reason, source := source, pos := pos,
                        flags := flags + 2 * s.rd R.timeStatHoldover, addr := addr, detail := detail }
  let nx := s.flt.nextSeq + 1
  let s := { s with flt := { s.flt with pend := s.flt.pend ++ [r], nextSeq := nx,
                                        seqEnd := if nx < s.flt.seqEnd then s.flt.seqEnd else s.flt.seqEnd + 2 ^ 32 } }
  ((((s.set1 R.fltStatNew).wr R.fltSeqSeq r.seq).wr R.fltLastPos pos).wr R.fltLastSource source).wr
    R.fltLastReason reason

/-- An event record without flags. -/
def State.log (s : State) (reason source pos addr detail : Nat) : State := s.logF reason source pos 0 addr detail

/-- The block codes of Table 18.3. -/
def srcCch : Nat := 0x0C
def srcBuf : Nat := 0x0D
def srcClk : Nat := 0x0E
def srcHqi : Nat := 0x0F
def srcLamp : Nat := 0x09
def srcMantle : Nat := 0x0A
def srcAssembler : Nat := 0x0B
def srcNone : Nat := 0xFF
def srcSrv (p : Nat) : Nat := 0x80 + 4 * p
def srcSpn (p : Nat) : Nat := 0x80 + 4 * p + 1
def srcCar (p : Nat) : Nat := 0x80 + 4 * p + 2
def srcIgl (p : Nat) : Nat := 0x80 + 4 * p + 3

/-- The code of a requester (Table 18.3). CAL, FLT, PERF and the Ember engine have no code of their own there. -/
def reqCode : Requester → Nat
  | .core c => c.val
  | .debug => 0x08
  | .lamplighter => 0x09
  | .hqi ch => 0x10 + ch.val
  | .beam e => 0x60 + e.val
  | .comp z => 0x50 + z.val
  | .mantle => 0x0A
  | .buf => 0x0D
  | .cal => 0xFF
  | .flt => 0xFF
  | .perf => 0xFF
  | .ember => 0x0E
  | .host _ => 0x0F

/-- The state with position p changed by g. -/
def State.updPos (s : State) (p : PosIx) (g : PosState → PosState) : State :=
  { s with pos := s.pos.set p (g s.pos[p]) }

def State.updSpn (s : State) (p : PosIx) (g : SpnState → SpnState) : State :=
  s.updPos p fun P => { P with spn := g P.spn }
def State.updCar (s : State) (p : PosIx) (g : CarState → CarState) : State :=
  s.updPos p fun P => { P with car := g P.car }
def State.updSrv (s : State) (p : PosIx) (g : SrvState → SrvState) : State :=
  s.updPos p fun P => { P with srv := g P.srv }
def State.updIgl (s : State) (p : PosIx) (g : IglState → IglState) : State :=
  s.updPos p fun P => { P with igl := g P.igl }
/-- The link's transmitter of position p changed by g. -/
def State.updTx (s : State) (p : PosIx) (g : TxState → TxState) : State := s.updIgl p fun i => { i with tx := g i.tx }
def State.updPf8 (s : State) (p : PosIx) (g : Pf8State → Pf8State) : State :=
  s.updPos p fun P => { P with pf8 := g P.pf8 }

/-- The default of a policy parameter (Table 11.6). -/
def policyDefault : Nat → Nat
  | 0x01 => 200 | 0x02 => 3 | 0x03 => 8 | 0x04 => 1000 | 0x10 => 2 | 0x11 => 4 | 0x12 => 16 | 0x13 => 8
  | 0x14 => 80 | 0x15 => 96 | 0x20 => 11 | 0x21 => 30 | 0x22 => 50 | 0x23 => 90 | 0x30 => 0 | 0x31 => 180
  | 0x32 => 0 | 0x40 => 30 | 0x41 => 600 | 0x50 => 2 | 0x60 => 550 | 0x61 => 1000 | 0x70 => 0 | _ => 0

/-- The value of policy parameter `param` for position p (device parameters under position 0) in a set of values, and in force. -/
def policyIn (l : List (Nat × Nat)) (param p : Nat) : Nat := (Assoc.get (param * 16 + p) l).getD (policyDefault param)
def State.policyOf (s : State) (param p : Nat) : Nat := policyIn s.policy param p

/-- Whether firmware runs: C0 is released (R433, R437). DEDUCED: log 24, 44. -/
def fwUp (s : State) : Bool := s.bit R.lampCrelC0

/-- All positions, engines and functions, in ascending order. -/
def allPos : List PosIx := List.finRange 8
def allEng : List EngIx := List.finRange 24
def allFn : List FnIx := List.finRange 16

/-- The state after f for each element in turn. -/
def State.forEach {α : Type} (s : State) (l : List α) (f : α → State → State) : State :=
  l.foldl (fun s a => f a s) s

end Sys2Proof.Machine
end

