-- ==== Sys2Proof/Machine/Memory.lean ====
section
/-! DEFINITION. The memories: canonical byte lists, the map of the GDDR7 window onto the two devices, SECDED, memory
classes, mirror regions, seal records, and reads and writes that meet them (chapter 12). -/

namespace Sys2Proof.Machine

/-- A memory: addresses strictly rising. -/
abbrev Mem := List Host.Cell

/-- The byte listed at an address. DESIGN CHOICE: log 3. -/
def Mem.get (m : Mem) (a : Nat) : Option Byte := Assoc.get a m

/-- The cells that a byte string written at an address lists; `keep` says which values are listed. -/
def Mem.cells (keep : Byte → Bool) : Nat → List Byte → Mem
  | _, [] => []
  | a, b :: t => if keep b then (a, b) :: Mem.cells keep (a + 1) t else Mem.cells keep (a + 1) t

/-- The memory with a byte string at an address, everything else as before. -/
def Mem.put (keep : Byte → Bool) (m : Mem) (a : Nat) (l : List Byte) : Mem :=
  m.filter (fun c => c.1 < a) ++ Mem.cells keep a l ++ m.filter (fun c => a + l.length ≤ c.1)

/-- The memory with nothing listed at addresses a to a + n - 1. -/
def Mem.drop (m : Mem) (a n : Nat) : Mem := m.filter fun c => !(a ≤ c.1 && c.1 < a + n)

/-- The memory with the n bytes from `src` also at `dst`, those for which `ok` holds; the others are not listed there. -/
def Mem.copy (m : Mem) (src dst n : Nat) (ok : Nat → Bool) : Mem :=
  m.filter (fun c => c.1 < dst) ++
    (m.filter fun c => src ≤ c.1 && c.1 < src + n && ok c.1).map (fun c => (c.1 - src + dst, c.2)) ++
    m.filter (fun c => dst + n ≤ c.1)

/-- SRAM and Ember store list no zero byte: an unlisted byte reads as zero. DESIGN CHOICE: log 3. -/
def nonZero (b : Byte) : Bool := b != 0

/-- The canonical form of a memory. -/
def Mem.wf (keep : Byte → Bool) (m : Mem) : Bool := Assoc.sorted m && m.all fun c => keep c.2

/-- n bytes from an address, an unlisted one as zero. DESIGN CHOICE: log 3. -/
def Mem.read (m : Mem) (a n : Nat) : List Byte := (List.range n).map fun i => (Mem.get m (a + i)).getD 0

/-- Bases of the memories on the fabric (Table 1.3). -/
def sramBase : Nat := 0x10000000
def emberBase : Nat := 0x40000000
def winBase : Nat := 0x1000000000
def sramSize : Nat := 0x3000000
def emberSize : Nat := 0x1000000

/-- Bytes of SRAM and of the Ember store, by fabric address. DESIGN CHOICE: log 3. -/
def State.sramRead (s : State) (a n : Nat) : List Byte := Mem.read s.sram a n
def State.sramWrite (s : State) (a : Nat) (l : List Byte) : State := { s with sram := Mem.put nonZero s.sram a l }
def State.emberRead (s : State) (a n : Nat) : List Byte := Mem.read s.ember a n
def State.emberWrite (s : State) (a : Nat) (l : List Byte) : State := { s with ember := Mem.put nonZero s.ember a l }

/-- The populated capacity C, and H of one device (R340). -/
def State.cap (s : State) : Nat := if s.rd R.bufCfgDens = 1 then 0x180000000 else 0x200000000
def State.half (s : State) : Nat := s.cap / 2

/-- The device of a window offset, and whether the offset lies in a data area (R340). -/
def State.devOf (s : State) (o : Nat) : Nat := if o < s.half then 0 else 1
def State.inData (s : State) (o : Nat) : Bool := o < s.cap && (o % s.half) * 8 < s.half * 7

/-- Base and size in bytes of mirror region n, and of class V region n, as written. -/
def mirBase (s : State) (n : Nat) : Nat := s.rd (R.bufMirBase n) * 65536
def mirSize (s : State) (n : Nat) : Nat := s.rd (R.bufMirSize n) * 65536
def vBase (s : State) (n : Nat) : Nat := s.rd (R.bufVrgnBase n) * 65536
def vSize (s : State) (n : Nat) : Nat := s.rd (R.bufVrgnSize n) * 65536

/-- Whether mirror region n is in force: within the M0 data area and overlapping no other (R348). -/
def mirOn (s : State) (n : Nat) : Bool :=
  mirSize s n > 0 && (mirBase s n + mirSize s n) * 8 ≤ s.half * 7 &&
  (List.range 4).all fun k => k == n || mirSize s k == 0 ||
    mirBase s k + mirSize s k ≤ mirBase s n || mirBase s n + mirSize s n ≤ mirBase s k

/-- Class V regions in force: each that keeps the total at 1 GiB, in ascending order (R346, Table 12.8). -/
def vOn (s : State) (n : Nat) : Bool :=
  vSize s n > 0 && ((List.range (n + 1)).foldl (fun t k => if t + vSize s k ≤ 0x40000000 then t + vSize s k
    else if k == n then 0x40000001 else t) 0) ≤ 0x40000000

/-- Whether a region register is written but disabled (RGNERR). -/
def rgnErr (s : State) : Bool :=
  (List.range 4).any fun n => (mirSize s n > 0 && !mirOn s n) || (vSize s n > 0 && !vOn s n)

/-- Whether an M0 offset lies in mirror region n, or in any (R348). -/
def inMir (s : State) (n o : Nat) : Bool := mirOn s n && mirBase s n ≤ o && o < mirBase s n + mirSize s n
def mirrored (s : State) (o : Nat) : Bool := (List.range 4).any fun n => inMir s n o
/-- Whether an offset is a twin (R348). -/
def isTwin (s : State) (o : Nat) : Bool := s.half ≤ o && mirrored s (o - s.half)

/-- Whether a data-area offset is class V; a twin has the class of its M0 copy (R346). DEDUCED: log 27. -/
def classV (s : State) (o : Nat) : Bool :=
  let o := if isTwin s o then o - s.half else o
  (List.range 4).any fun n => vOn s n && vBase s n ≤ o && o < vBase s n + vSize s n

/-- Whether device d serves no access: failed or offline (R357, R358). -/
def devGone (s : State) (d : Nat) : Bool :=
  if d = 0 then s.bit R.bufStatM0Failed || s.bit R.bufStatM0Offline
  else s.bit R.bufStatM1Failed || s.bit R.bufStatM1Offline

/-- The state of a stored word: good, with a correctable error, uncorrectable, or the unwritten pattern. -/
inductive WordStat where
  | good | ce | ue | unwr
  deriving DecidableEq, Repr

/-- The state of the 8-byte word at a window offset. -/
def wordStat (s : State) (o : Nat) : WordStat :=
  let w := o - o % 8
  if (List.range 8).all (fun i => (Mem.get s.gddr (w + i)).isNone) && !classV s w then .unwr
  else match Assoc.get (winBase + w) s.marks with
    | some 1 => .ce
    | some 3 => .unwr
    | some _ => .ue
    | none => .good

/-- The state of the 8-byte word at a fabric address of SRAM or the Ember store. -/
def wordStatAt (s : State) (a : Nat) : WordStat :=
  match Assoc.get (a - a % 8) s.marks with
  | some 1 => .ce
  | some _ => .ue
  | none => .good

/-- A mark on the word at a fabric address: 1 one wrong bit, 2 two of them, 3 the unwritten pattern in a class V line. A second
single upset makes two wrong bits. -/
def markWord (a kind : Nat) (s : State) : State :=
  let w := a - a % 8
  let k := if kind = 1 && (Assoc.get w s.marks).isNone then 1 else 2
  { s with marks := Assoc.put w k s.marks }

/-- No mark on the words of a range. -/
def unmark (a n : Nat) (s : State) : State := { s with marks := Assoc.delRange (a - a % 8) (a + n) s.marks }

/-- Upsets found in place as an access arrives (R342). A change of three or more bits alters the byte unseen. -/
def applyUpset (u : Upset) (s : State) : State :=
  let win := fun a => winBase ≤ a && a < winBase + s.cap
  let sr := fun a => sramBase ≤ a && a < sramBase + sramSize
  let em := fun a => emberBase ≤ a && a < emberBase + emberSize
  let ok := fun a => sr a || em a || (win a && s.inData (a - winBase) && wordStat s (a - winBase) != .unwr)
  match u with
  | .single a => if ok a then markWord a 1 s else s
  | .double a => if ok a then markWord a 2 s else s
  | .silent a b =>
    if !ok a then s
    else if sr a then s.sramWrite a [b]
    else if em a then s.emberWrite a [b]
    else { s with gddr := Mem.put (fun _ => true) s.gddr (a - winBase) [b] }

def applyUpsets (l : List Upset) (s : State) : State := l.foldl (fun s u => applyUpset u s) s

/-- A correctable error met at a fabric address (R344). DEDUCED: log 29. -/
def noteCe (who a : Nat) (s : State) : State :=
  let n := ((s.buf.ceTab.find? fun e => e.1 == a).map (·.2)).getD 0
  let tab := (s.buf.ceTab.filter fun e => e.1 != a) ++ [(a, n + 1)]
  let s := { s with buf := { s.buf with ceTab := if tab.length > 64 then tab.drop 1 else tab } }
  let s := (((s.bump R.bufCeCount 1).wr R.bufCeaddrReq who).wr R.bufCeaddrAddr (a / 8)).set1 R.bufStatCe
  if n % 256 = 0 then s.logF 0x0A0B srcBuf noPos (if n = 0 then 0 else 4) a 0 else s

/-- An uncorrectable word met at a fabric address (R345). -/
def noteUe (who a : Nat) (unwr : Bool) (reason : Nat) (s : State) : State :=
  ((((s.bump R.bufUeCount 1).wr R.bufUeaddrReq who).wr R.bufUeaddrAddr (a / 8)).wr R.bufUeaddrUnwr
    (if unwr then 1 else 0)).set1 R.bufStatUe |>.log reason srcBuf noPos a who

/-- Addresses of the 8-byte words that n bytes from an address lie in. -/
def wordsOf (a n : Nat) : List Nat := (List.range ((a % 8 + n + 7) / 8)).map fun i => a - a % 8 + 8 * i

/-- A read of n bytes of SRAM or of the Ember store (R342, R344, R345): whether every word can be corrected. Corrections count; of an
uncorrectable word nothing is delivered. -/
def wordsMet (who a n : Nat) (s : State) : Bool × State :=
  match (wordsOf a n).find? fun w => wordStatAt s w == .ue with
  | some w => (false, noteUe who w false 0x0A04 s)
  | none => (true, ((wordsOf a n).filter fun w => wordStatAt s w == .ce).foldl (fun s w => noteCe who w s) s)

/-- Corrections and the first uncorrectable word among the words of a range of the window. -/
def scanWords (s : State) (o n : Nat) : List Nat × Option (Nat × Bool) :=
  let ws := (List.range ((o % 8 + n + 7) / 8)).map fun i => o - o % 8 + 8 * i
  (ws.filter fun w => wordStat s w == .ce,
   (ws.find? fun w => wordStat s w == .ue || wordStat s w == .unwr).map fun w => (w, wordStat s w == .unwr))

/-- Self-refresh ends at the first access (R420): both devices' PLLs have locked. DEDUCED: log 18. -/
def selfRefreshExit (s : State) : State :=
  if s.buf.selfRefresh then
    (({ s with buf := { s.buf with selfRefresh := false } } : State).set1 (R.clkPllLock 3)).set1 (R.clkPllLock 4)
  else s

/-- The stored bytes of a window range, those not listed as zero. DEDUCED: log 27. -/
def gRead (s : State) (o n : Nat) : List Byte := Mem.read s.gddr o n

/-- The bytes stored at an offset of one copy: class V lines whose valid bit is clear are zero-filled first (R346),
and the marks of the words written clear. DEDUCED: log 27. -/
def gStore (o : Nat) (l : List Byte) (s : State) : State :=
  let a := o - o % 64
  let fresh := classV s o && (List.range 64).all fun i => (Mem.get s.gddr (a + i)).isNone
  let g := if fresh then Mem.put (fun _ => true) s.gddr a (List.replicate 64 0) else s.gddr
  unmark (winBase + o) l.length { s with gddr := Mem.put (fun _ => true) g o l }

/-- The unwritten pattern in the words of a range of one copy, within a line (R347): an unlisted word of class W holds it; in class
V the words are listed and marked. DEDUCED: log 27. -/
def gPoison (o n : Nat) (s : State) : State :=
  if classV s o then
    let s := gStore o (List.replicate n 0) s
    { s with marks := (wordsOf (winBase + o) n).foldl (fun m w => Assoc.put w 3 m) s.marks }
  else unmark (winBase + o) n { s with gddr := Mem.drop s.gddr o n }

/-- The line of one copy rewritten from the other, word by word as it stands there (R348). -/
def gCopy (src dst n : Nat) (s : State) : State :=
  unmark (winBase + dst) n
    { s with gddr := Mem.copy s.gddr src dst n fun a => Assoc.get (winBase + (a - a % 8)) s.marks != some 2 }

/-- An access of a device that exhausts its CRC repeats (R356): four within 1 ms start a retraining. DEDUCED: log 29. -/
def exhaust (d : Nat) (s : State) : State :=
  let now := s.tim.local_
  let keep := fun (t : List Nat) => (now :: t).filter fun x => now < x + 1000000
  if d = 0 then
    let t := keep s.buf.exhausted0
    { s with buf := if t.length ≥ 4 then { s.buf with exhausted0 := [], retrain0 := true } else { s.buf with exhausted0 := t } }
  else
    let t := keep s.buf.exhausted1
    { s with buf := if t.length ≥ 4 then { s.buf with exhausted1 := [], retrain1 := true } else { s.buf with exhausted1 := t } }

/-- The repeats of an access to device d (R356): an access that a repeat carries through counts once, and one whose third repeat
fails is exhausted. DEDUCED: log 29. -/
def crcCount (d fails : Nat) (s : State) : State :=
  if fails = 0 then s else
  if fails ≥ 4 then exhaust d s else s.bump (if d = 0 then R.bufCrcM0 else R.bufCrcM1) 1

/-- A read of a window range by the BUF, within one line: the bytes, or the reason of an uncorrectable read. It
serves mirror regions from the surviving copy (R345, R348, R356, R357). -/
def bufRead (who : Nat) (o n crcFails : Nat) (s : State) : Except Nat (List Byte) × State :=
  let d := s.devOf o
  let s := selfRefreshExit s
  let s := if devGone s d then s else crcCount d crcFails s
  let bad := devGone s d || crcFails ≥ 4
  let (ces, ue) := scanWords s o n
  if !bad && ue.isNone then
    (.ok (gRead s o n), ces.foldl (fun s w => noteCe who (winBase + w) s) s)
  else
    let tw := o + s.half
    let twin := d = 0 && mirrored s o && !devGone s 1
    let (ces2, ue2) := scanWords s tw n
    if twin && ue2.isNone then
      let s := ces2.foldl (fun s w => noteCe who (winBase + w) s) s
      let bytes := gRead s tw n
      let a := o - o % 64
      let s := if devGone s 0 then s
        else (gCopy (a + s.half) a 64 s).log 0x0A05 srcBuf noPos (winBase + o) who
      (.ok bytes, s)
    else
      -- in a mirror region what the surviving copy gives counts, when M0 is gone
      let (gone, met) := if twin && devGone s d then (false, ue2.map fun x => (x.1 - s.half, x.2)) else (devGone s d, ue)
      let reason := if gone then 0x0A09 else 0x0A04
      let (w, unwr) := met.getD (o - o % 8, false)
      (.error reason, noteUe who (winBase + w) unwr reason s)

/-- A write of whole words by the BUF, to both copies in a mirror region (R348); a device that is gone takes nothing.
A write whose repeats are exhausted leaves the unwritten pattern (R356). -/
def bufStore (o : Nat) (l : List Byte) (crcFails : Nat) (s : State) : State :=
  let d := s.devOf o
  let s := selfRefreshExit s
  let s := if devGone s d then s else
    let s := crcCount d crcFails s
    if crcFails ≥ 4 then (gPoison (o - o % 64) 64 s).log 0x0A08 srcBuf noPos (winBase + o) 0 else gStore o l s
  if d = 0 && mirrored s o && !devGone s 1 then gStore (o + s.half) l s else s

/-- The outcome of a refused store for its requester (R343). DEDUCED: log 21. -/
def refusedStore (who : Requester) (reason : Nat) : Resp :=
  match who with
  | .core _ => .busError reason
  | .debug => .errorResponse reason
  | _ => .channelHalt reason

/-- The answer to a requester whose access is refused with a reason (R11, R343). PRESUMED: log 15; DEDUCED: log 21. -/
def refusal (who : Requester) (reason : Nat) : Resp :=
  match who with
  | .core _ => .busError reason
  | .debug => .errorResponse reason
  | .lamplighter => .errorResponse reason
  | _ => .channelHalt reason

/-- A DMA requester's channel halts with the access that is answered so (R11, R344). -/
def haltNote (who : Requester) (s : State) : State :=
  match s.resp with
  | .channelHalt _ => if s.halted.contains who then s else { s with halted := s.halted ++ [who] }
  | _ => s

/-- An access out of reach, in no region, or above the populated capacity (R11): no effect but the record, and the channel of a
DMA requester halts. PRESUMED: log 15. -/
def outside (who : Requester) (a reason : Nat) (s : State) : State :=
  haltNote who { s.log reason (reqCode who) noPos a 0 with resp := refusal who reason }

/-- Seal records (R350, Table 12.4). -/
def sealAddr (s : State) (t : Nat) : Nat := s.rd R.bufSealtAddr * 0x100000 + 16 * t

/-- Tile states (Table 12.4). -/
def tileFree : Nat := 0
def tileOpen : Nat := 1
def tileSealed : Nat := 2
def tileBad : Nat := 3

/-- A seal record. -/
structure SealRec where
  seal_ : Nat
  fill : Nat
  state : Nat
  flags : Nat
  use : Nat
  deriving DecidableEq, Repr

def sealGet (s : State) (t : Nat) : SealRec :=
  let l := s.sramRead (sealAddr s t) 16
  { seal_ := leAt l 0 8, fill := leAt l 8 4, state := leAt l 12 1, flags := leAt l 13 1, use := leAt l 14 1 }

/-- The record as the BUF stores it; the table lies in SRAM, so an address outside stores nothing. -/
def sealPut (t : Nat) (r : SealRec) (s : State) : State :=
  let a := sealAddr s t
  if sramBase ≤ a && a + 16 ≤ sramBase + sramSize then
    s.sramWrite a (leBytes 8 r.seal_ ++ leBytes 4 r.fill ++ leBytes 1 r.state ++ leBytes 1 r.flags ++ leBytes 1 r.use ++ [0])
  else s

/-- A tile number in range: in a data area, below C / 65,536 (R353). -/
def tileOk (s : State) (t : Nat) : Bool := t * 65536 < s.cap && s.inData (t * 65536)

/-- Whether an address lies in the seal table (R350). -/
def inSealTable (s : State) (a : Nat) : Bool := sealAddr s 0 ≤ a && a < sealAddr s (s.cap / 65536)

/-- Whether an offset lies in an OPEN or SEALED tile (R352). The record of a twin is that of its M0 tile. -/
def inTile (s : State) (o : Nat) : Bool :=
  let o := if isTwin s o then o - s.half else o
  let st := (sealGet s (o / 65536)).state
  st == tileOpen || st == tileSealed

end Sys2Proof.Machine
end

