-- ==== Sys2Proof/Machine/Crypto.lean ====
section
/-! DEFINITION. The cryptographic functions that the rules name by their standards: AES-256, XTS (IEEE 1619, R41),
AES key wrap (RFC 3394, R454), SHAKE256 and SHA3-512 (R452, R460, R465). Ed448 verification and signing are left
uninterpreted in Config. -/

namespace Sys2Proof.Machine

/-- Product in GF(2^m) of numbers below 2^m; `poly` holds the field polynomial's lower terms. -/
def gfMul (m poly a b : Nat) : Nat :=
  ((List.range m).foldl (fun (r : Nat × Nat) i =>
    let x := if bitAt r.2 (m - 1) then xorBits (r.2 * 2 % 2 ^ m) poly else r.2 * 2
    (if bitAt b i then xorBits r.1 r.2 else r.1, x)) (0, a)).1

/-- Power in GF(2^m). -/
def gfPow (m poly a : Nat) : Nat → Nat
  | 0 => 1
  | n + 1 => gfMul m poly a (gfPow m poly a n)

/-- Inverse in GF(2^m), 0 for 0. -/
def gfInv (m poly a : Nat) : Nat := gfPow m poly a (2 ^ m - 2)

/-- AES arithmetic on bytes. -/
def aesMul (a b : Nat) : Nat := gfMul 8 0x1B a b
def rotl8 (x n : Nat) : Nat := x * 2 ^ n % 256 + x / 2 ^ (8 - n)
def aesSub (x : Nat) : Nat :=
  let b := gfInv 8 0x1B x
  [rotl8 b 1, rotl8 b 2, rotl8 b 3, rotl8 b 4, 0x63].foldl xorBits b

/-- The S-box and its inverse as lists. -/
def aesSbox : List Nat := (List.range 256).map aesSub
def aesInvSbox : List Nat := (List.range 256).map fun y => aesSbox.findIdx (· == y)

/-- The 60 words of the AES-256 key schedule, each four bytes. -/
def aesSchedule (key : List Nat) : List (List Nat) :=
  let w0 := (List.range 8).map fun i => (key.drop (4 * i)).take 4
  let sub := fun (w : List Nat) => w.map fun x => nth 0 aesSbox x
  (List.range 52).foldl (fun ws k =>
    let i := k + 8
    let t := nth [] ws (i - 1)
    let t := if i % 8 = 0 then
        let r := sub (t.drop 1 ++ t.take 1)
        xorBits (nth 0 r 0) (gfPow 8 0x1B 2 (i / 8 - 1)) :: r.drop 1
      else if i % 8 = 4 then sub t else t
    ws ++ [List.zipWith xorBits (nth [] ws (i - 8)) t]) w0

def aesRoundKey (ws : List (List Nat)) (r : Nat) : List Nat := ((ws.drop (4 * r)).take 4).flatten

/-- MixColumns with the coefficients of a first row, and ShiftRows by a direction. -/
def aesMix (row : List Nat) (st : List Nat) : List Nat :=
  (List.range 16).map fun k =>
    let c := k / 4
    let r := k % 4
    (List.range 4).foldl (fun a j => xorBits a (aesMul (nth 0 row ((j + 4 - r) % 4)) (nth 0 st (4 * c + j)))) 0
def aesShift (dir : Nat) (st : List Nat) : List Nat :=
  (List.range 16).map fun k => nth 0 st ((4 * (k / 4 + dir * (k % 4)) + k % 4) % 16)

/-- AES-256 of one block, both ways. -/
def aesEnc (key block : List Nat) : List Nat :=
  let ws := aesSchedule key
  let st := List.zipWith xorBits block (aesRoundKey ws 0)
  let st := (List.range 13).foldl (fun st r =>
    List.zipWith xorBits (aesMix [2, 3, 1, 1] (aesShift 1 (st.map fun x => nth 0 aesSbox x))) (aesRoundKey ws (r + 1))) st
  List.zipWith xorBits (aesShift 1 (st.map fun x => nth 0 aesSbox x)) (aesRoundKey ws 14)
def aesDec (key block : List Nat) : List Nat :=
  let ws := aesSchedule key
  let inv := aesInvSbox
  let st := List.zipWith xorBits block (aesRoundKey ws 14)
  let st := (List.range 13).foldl (fun st r =>
    aesMix [14, 11, 13, 9] (List.zipWith xorBits ((aesShift 3 st).map fun x => nth 0 inv x) (aesRoundKey ws (13 - r)))) st
  List.zipWith xorBits ((aesShift 3 st).map fun x => nth 0 inv x) (aesRoundKey ws 0)

/-- The XTS tweak of the next block: multiplication by x, little-endian (IEEE 1619). -/
def xtsNext (t : Nat) : Nat := if bitAt t 127 then xorBits (t * 2 % 2 ^ 128) 0x87 else t * 2

def natsOf (l : List Byte) : List Nat := l.map (·.toNat)
def bytesOf (l : List Nat) : List Byte := l.map (BitVec.ofNat 8)

/-- AES-256-XTS of whole blocks under K1 and K2 with a 128-bit tweak (R41), to one side or the other. -/
def xtsRun (enc : Bool) (k1 k2 : List Nat) (tweak : Nat) (data : List Byte) : List Byte :=
  let t0 := leNat (bytesOf (aesEnc k2 (natsOf (leBytes 16 tweak))))
  ((List.range (data.length / 16)).foldl (fun (acc : List Byte × Nat) i =>
    let t := natsOf (leBytes 16 acc.2)
    let x := List.zipWith xorBits (natsOf ((data.drop (16 * i)).take 16)) t
    let y := if enc then aesEnc k1 x else aesDec k1 x
    (acc.1 ++ bytesOf (List.zipWith xorBits y t), xtsNext acc.2)) ([], t0)).1

/-- Rotation of a 64-bit lane. -/
def rotl64 (x n : Nat) : Nat := x * 2 ^ n % 2 ^ 64 + x / 2 ^ (64 - n)

/-- One step of the generator of Keccak's round constants, over x^8 + x^6 + x^5 + x^4 + 1. -/
def keccakLfsr (r : Nat) : Nat := if r < 128 then 2 * r else xorBits (2 * r) 0x171

/-- The seven bits that a round's constant takes from the generator, at bits 2^j - 1 of the lane, and the generator after them. -/
def keccakIota (r : Nat) : Nat × Nat :=
  (List.range 7).foldl (fun (acc : Nat × Nat) j => (if acc.2 % 2 = 1 then acc.1 + 2 ^ (2 ^ j - 1) else acc.1, keccakLfsr acc.2)) (0, r)

/-- Theta: every lane takes in the parity of the column on its left, and of the one on its right turned by one. Lane (x, y) of the
state is number x + 5y. -/
def keccakTheta (a : List Nat) : List Nat :=
  let column := fun (x : Nat) => ([0, 5, 10, 15, 20].map fun y => nth 0 a (x + y)).foldl xorBits 0
  let mix := (List.range 5).map fun x => xorBits (column ((x + 4) % 5)) (rotl64 (column ((x + 1) % 5)) 1)
  a.zipIdx.map fun v => xorBits v.1 (nth 0 mix (v.2 % 5))

/-- Rho and pi together: the walk from lane (1, 0) to lane (y, 2x + 3y) and on, whose t-th lane is turned by the t-th triangular
number; lane (0, 0) stays. -/
def keccakWalk (a : List Nat) : List Nat :=
  ((List.range 24).foldl (fun (w : Nat × Nat × List Nat) t =>
    let (x, y, out) := w
    let y' := (2 * x + 3 * y) % 5
    (y, y', setNth out (y + 5 * y') (rotl64 (nth 0 a (x + 5 * y)) ((t + 1) * (t + 2) / 2 % 64)))) (1, 0, a)).2.2

/-- Chi: a lane is turned where the next one of its row is 0 and the one after is 1. -/
def keccakChi (a : List Nat) : List Nat :=
  [0, 5, 10, 15, 20].flatMap fun y => (List.range 5).map fun x =>
    let next := nth 0 a ((x + 1) % 5 + y)
    let after := nth 0 a ((x + 2) % 5 + y)
    xorBits (nth 0 a (x + y)) (after - andBits next after)

/-- The 24 rounds of Keccak-f[1600], each with the next seven bits of the constants' generator. -/
def keccakRounds : Nat → Nat → List Nat → List Nat
  | 0, _, a => a
  | n + 1, r, a =>
    let (c, r) := keccakIota r
    let a := keccakChi (keccakWalk (keccakTheta a))
    keccakRounds n r (xorBits (nth 0 a 0) c :: a.drop 1)

def keccakF (a : List Nat) : List Nat := keccakRounds 24 1 a

/-- The sponge with a rate in bytes, a domain byte and n output bytes; one block of output suffices for every use. -/
def sponge (rate dom n : Nat) (msg : List Byte) : List Byte :=
  let pad := rate - msg.length % rate
  let tail : List Byte := if pad = 1 then [BitVec.ofNat 8 (dom + 0x80)]
    else BitVec.ofNat 8 dom :: List.replicate (pad - 2) 0 ++ [0x80]
  let m := msg ++ tail
  let st := (List.range (m.length / rate)).foldl (fun st i =>
    let blk := (m.drop (rate * i)).take rate
    keccakF ((List.range 25).map fun k => xorBits (nth 0 st k) (if 8 * k < rate then leAt blk (8 * k) 8 else 0)))
    (List.replicate 25 0)
  ((st.map (leBytes 8)).flatten).take n

def shake256 (n : Nat) (msg : List Byte) : List Byte := sponge 136 0x1F n msg
def sha3_512 (msg : List Byte) : List Byte := sponge 72 0x06 64 msg

/-- ASCII bytes of a label. -/
def ascii (t : String) : List Byte := t.toList.map fun c => BitVec.ofNat 8 c.toNat

/-- AES key wrap of a 32-byte key and its reverse with the integrity check (RFC 3394, R454). -/
def keyWrap (kek : List Byte) (key : List Byte) : List Byte :=
  let k := natsOf kek
  let r0 := (List.range 4).map fun i => natsOf ((key.drop (8 * i)).take 8)
  let beNat := fun (l : List Nat) => l.foldl (fun a b => a * 256 + b) 0
  let beList := fun (v : Nat) => (List.range 8).map fun i => v / 256 ^ (7 - i) % 256
  let (a, r) := (List.range 24).foldl (fun (st : List Nat × List (List Nat)) t =>
    let i := t % 4
    let b := aesEnc k (st.1 ++ nth [] st.2 i)
    (beList (xorBits (beNat (b.take 8)) (t + 1)), st.2.set i (b.drop 8))) (List.replicate 8 0xA6, r0)
  bytesOf (a ++ r.flatten)
def keyUnwrap (kek : List Byte) (wrapped : List Byte) : Option (List Byte) :=
  let k := natsOf kek
  let w := natsOf wrapped
  let r0 := (List.range 4).map fun i => (w.drop (8 * (i + 1))).take 8
  let beNat := fun (l : List Nat) => l.foldl (fun a b => a * 256 + b) 0
  let beList := fun (v : Nat) => (List.range 8).map fun i => v / 256 ^ (7 - i) % 256
  let (a, r) := (List.range 24).foldl (fun (st : List Nat × List (List Nat)) q =>
    let t := 24 - q
    let i := (t - 1) % 4
    let b := aesDec k (beList (xorBits (beNat st.1) t) ++ nth [] st.2 i)
    (b.take 8, st.2.set i (b.drop 8))) (w.take 8, r0)
  if a == List.replicate 8 0xA6 then some (bytesOf r.flatten) else none

/-- K1 and K2 of a pack key (R452), and encryption and decryption of a codeword's user bytes (R41). -/
def dataKeys (packKey : List Byte) : List Nat × List Nat :=
  let h := natsOf (shake256 64 (packKey ++ ascii "ORB-XTS"))
  (h.take 32, h.drop 32)
def xtsEnc (packKey : List Byte) (vaddr : Nat) (data : List Byte) : List Byte :=
  xtsRun true (dataKeys packKey).1 (dataKeys packKey).2 vaddr data
def xtsDec (packKey : List Byte) (vaddr : Nat) (data : List Byte) : List Byte :=
  xtsRun false (dataKeys packKey).1 (dataKeys packKey).2 vaddr data

end Sys2Proof.Machine
end

