-- ==== Sys2Proof/Machine/Format.lean ====
section
/-! DEFINITION. The recording format of a pack (chapter 2): zones and slots, wobble address words, frame headers,
codewords and their metadata, rank parity, homes and the riser, ledger records, journal entries, the media card. -/

namespace Sys2Proof.Machine

/-- Frame slots of zone z, and of the zones before it (R27). -/
def zoneSlots (z : Nat) : Nat := 26720 + 637 * z
def zoneStart (z : Nat) : Nat := 26720 * z + 637 * z * (z - 1) / 2

/-- Frame slots of a layer (R27). -/
def layerSlots : Nat := 2994272

/-- The radial index q of slot f of a layer (R30). -/
def radialOf (layer f : Nat) : Nat := if layer % 2 = 0 then f else layerSlots - 1 - f

/-- The zone of slot f of a layer. -/
def zoneOf (layer f : Nat) : Nat :=
  ((List.range 64).filter fun z => zoneStart z ≤ radialOf layer f).length - 1

/-- Home slots of a layer, its first home slot and its first riser slot (R47, R48). -/
def layerRanks : Nat := 2899200
def homeBase (layer : Nat) : Nat := if layer % 2 = 0 then 48128 else 46944
def riserBase (layer : Nat) : Nat := if layer % 2 = 0 then 2947328 else 16384
def riserSlots : Nat := 30560

/-- Layer and home slot of logical rank n, and the first rank and the layer of cast m (R47). -/
def rankLayer (n : Nat) : Nat := n / layerRanks
def homeSlot (n : Nat) : Nat := homeBase (rankLayer n) + n % layerRanks
def castLayer (m : Nat) : Nat := m * 128 / layerRanks
def casts : Nat := 362400

/-- Bytes of a rank and of the volume (R58). -/
def rankBytes : Nat := 393216
def castBytes : Nat := 50331648
def volBytes : Nat := 18240189235200

/-- The frame role of surface s in slot f, and the surface of a role (R45). -/
def roleOf (s f : Nat) : Nat := (s + 8 - f % 8) % 8
def surfaceOf (role f : Nat) : Nat := (role + f) % 8

/-- Remainder of a polynomial, highest coefficient first, by a monic generator over GF(2^m). -/
def gfRem (m poly : Nat) (gen : List Nat) : Nat → List Nat → List Nat
  | 0, p => p
  | n + 1, p =>
    match p with
    | [] => []
    | c :: t =>
      let g := gen.drop 1
      gfRem m poly gen n (t.mapIdx fun i x => if i < g.length then xorBits x (gfMul m poly c (nth 0 g i)) else x)

/-- The generator with roots α^0 to α^(n-1), highest coefficient first. DEDUCED: log 95. -/
def rsGen (m poly n : Nat) : List Nat :=
  (List.range n).foldl (fun g i =>
    let a := gfPow m poly 2 i
    List.zipWith xorBits (g ++ [0]) (0 :: g.map (gfMul m poly a))) [1]

/-- Systematic Reed-Solomon encoding: data then parity. DEDUCED: log 95. -/
def rsEncode (m poly n : Nat) (data : List Nat) : List Nat :=
  data ++ gfRem m poly (rsGen m poly n) data.length (data ++ List.replicate n 0)

/-- How many places two lists differ in. -/
def hamming (a b : List Nat) : Nat := ((List.zipWith (fun x y => x != y) a b).filter id).length

/-- A wobble address word (Table 2.2). -/
def wobbleWord (layer side zone slot eighth : Nat) : Nat :=
  layer * 2 ^ 36 + side * 2 ^ 35 + zone * 2 ^ 29 + slot * 2 ^ 7 + eighth * 16

/-- The sixteen nibbles recorded for an address word (R29). -/
def wobbleCode (w : Nat) : List Nat := rsEncode 4 3 6 ((List.range 10).map fun i => bitsOf w (36 - 4 * i) 4)

/-- Whether received nibbles decode to a given word: within three nibble errors (R29). -/
def wobbleIs (r : List Nat) (w : Nat) : Bool := r.length == 16 && hamming r (wobbleCode w) ≤ 3

/-- Whether a wobble's phase value, one of sixteen around the circle, is the inverted phase: it lies nearer to 8 than to 0.
DEDUCED: log 99. -/
def wobInverted (v : Nat) : Bool := 4 ≤ v % 16 && v % 16 < 12

/-- The wobble-bit cell that ten wobbles spell: 0, 1 with wobbles 0 to 2 inverted, 2 for S with wobbles 0 to 5 (R28); the
one that differs in the fewest wobbles, a tie falling to the lower. DEDUCED: log 99. -/
def wobCell (l : List Nat) : Nat :=
  let off := fun n => ((List.range 10).filter fun i => wobInverted (nth 0 l i) != decide (i < n)).length
  if off 0 ≤ off 3 && off 0 ≤ off 6 then 0 else if off 3 ≤ off 6 then 1 else 2

/-- The cells that wobbles spell, ten wobbles each. -/
def wobCells (n : Nat) (l : List Nat) : List Nat := (List.range n).map fun c => wobCell ((l.drop (10 * c)).take 10)

/-- The sync field S, S, 1, S, 0, S, S, 1 (R28). -/
def syncField : List Nat := [2, 2, 1, 2, 0, 2, 2, 1]

/-- The sixteen nibbles in cells 8 to 71 of a WAU, most significant bit first; a cell that is no 0 cell spells a 1. -/
def wauNibbles (wobbles : List Nat) : List Nat :=
  let c := (wobCells 72 wobbles).drop 8
  (List.range 16).map fun n => (List.range 4).foldl (fun v i => 2 * v + (if nth 0 c (4 * n + i) = 0 then 0 else 1)) 0

/-- Whether received nibbles decode to the eighth of a slot as seen by a surface. -/
def wobbleAt (r : List Nat) (layer surface slot eighth : Nat) : Bool :=
  wobbleIs r (wobbleWord layer (surface % 2) (zoneOf layer slot) slot eighth)

/-- The address codeword's syndromes; all zero for a codeword. DEDUCED: log 95. -/
def wobbleSyn (r : List Nat) : List Nat :=
  (List.range 6).map fun j => r.foldl (fun a x => xorBits (gfMul 4 3 a (gfPow 4 3 2 j)) x) 0

/-- Whether received nibbles lie within three nibble errors of some codeword (R29): the syndromes obey the recurrence
of a locator polynomial with three of the fifteen locators as roots. DEDUCED: log 95. -/
def wobbleDecodes (r : List Nat) : Bool :=
  let s := wobbleSyn r
  let mul := gfMul 4 3
  let x := fun (i : Nat) => gfPow 4 3 2 i
  (List.range 15).any fun a => (List.range a).any fun b => (List.range b).any fun c =>
    let l1 := xorBits (xorBits (x a) (x b)) (x c)
    let l2 := xorBits (xorBits (mul (x a) (x b)) (mul (x a) (x c))) (mul (x b) (x c))
    let l3 := mul (mul (x a) (x b)) (x c)
    (List.range 3).all fun j => xorBits (xorBits (nth 0 s (j + 3)) (mul l1 (nth 0 s (j + 2))))
      (xorBits (mul l2 (nth 0 s (j + 1))) (mul l3 (nth 0 s j))) == 0

/-- One step of the 23-bit scrambler (R44): output bit and next state. -/
def scrStep (s : Nat) : Nat × Nat :=
  (bitsOf s 22 1, (s * 2 + (bitsOf s 22 1 + bitsOf s 17 1) % 2) % 2 ^ 23)

/-- n scrambler bits from a seed. -/
def scrBits : Nat → Nat → List Nat
  | _, 0 => []
  | s, n + 1 => (scrStep s).1 :: scrBits (scrStep s).2 n

/-- The scrambler seed of a frame (R44) and of a ledger segment (R52). -/
def frameSeed (layer f : Nat) : Nat := orBits 0x400000 (xorBits f (layer * 2 ^ 18))
def segSeed (g : Nat) : Nat := orBits 0x400000 g

/-- The Gray map: two bits, high and low, to a level, and back (Table 2.4). -/
def grayLevel (hi lo : Nat) : Nat := if hi = 0 then lo else if lo = 1 then 2 else 3
def levelHi (l : Nat) : Nat := l / 2
def levelLo (l : Nat) : Nat := if l = 1 || l = 2 then 1 else 0

/-- Bits taken two a symbol, Gray-mapped to levels. -/
def grayLevels : List Nat → List Nat
  | hi :: lo :: t => grayLevel hi lo :: grayLevels t
  | _ => []

/-- The wick code of a symbol (R73), and the codes of symbols recorded on end, the first with prev = 0, the last with next = 0. -/
def wickCode (prev cur next : Nat) : Nat := 16 * cur + 4 * prev + next
def wickCodes : Nat → List Nat → List Nat
  | _, [] => []
  | prev, cur :: t => wickCode prev cur (nth 0 t 0) :: wickCodes cur t

/-- The sync patterns SM0 to SM3 and SMH (Table 2.6), a 1 for level 3, and their symbols. -/
def syncPattern : Nat → Nat
  | 0 => 0b111111000000101001100101 | 1 => 0b111111000000010110011010
  | 2 => 0b111111000000110010010011 | 3 => 0b111111000000001101101100
  | _ => 0b000000111111101010010101
def syncSyms (i : Nat) : List Nat := (List.range 24).map fun j => if bitAt (syncPattern i) (23 - j) then 3 else 0

/-- The run 0, 0, 3, 3 repeated, and the 512 training symbols (R34). -/
def runSym (i : Nat) : Nat := if i % 4 < 2 then 0 else 3
def runSyms (n : Nat) : List Nat := (List.range n).map runSym
def training : List Nat := grayLevels (scrBits 0x7FFFFF 1024)

/-- Bits of code bytes, each most significant bit first (R36). -/
def bitsOfBytes (l : List Nat) : List Nat := (l.map fun x => (List.range 8).map fun i => bitsOf x (7 - i) 1).flatten

/-- Code bytes from bits. -/
def bytesOfBits : List Nat → List Nat
  | a :: b :: c :: d :: e :: f :: g :: h :: t => [a, b, c, d, e, f, g, h].foldl (fun x y => 2 * x + y) 0 :: bytesOfBits t
  | _ => []

/-- A frame header (Table 2.7), its 45 code bytes, and the 360 symbols that record them (R37). -/
def headerBytes (layer surface slot lrank role repour area pourTime : Nat) (tag : Nat) : List Byte :=
  leBytes 1 0xA7 ++ leBytes 1 (layer * 16 + surface * 2) ++ leBytes 4 slot ++ leBytes 4 lrank ++
  leBytes 1 (role * 32 + min 31 repour) ++ leBytes 1 area ++ leBytes 8 pourTime ++ leBytes 8 tag ++ leBytes 5 0
def headerCode (h : List Byte) : List Nat := rsEncode 8 0x1D 12 (natsOf h)
def headerMask (bits : List Nat) : List Nat := List.zipWith xorBits bits (scrBits 0x2AAAAA 360)
def headerSyms (h : List Byte) : List Nat := (headerMask (bitsOfBytes (headerCode h))).map fun b => 3 * b

/-- Metadata of a codeword (Table 2.8). -/
def metaBytes (vaddr lrank slot role pad c layer ledger reloc enc valid tag : Nat) : List Byte :=
  leBytes 8 vaddr ++ leBytes 4 lrank ++ leBytes 4 slot ++ leBytes 1 (role * 32 + pad * 16 + c) ++
  leBytes 1 (layer * 16 + ledger * 4 + reloc * 2 + enc) ++ leBytes 2 valid ++ leBytes 8 tag

/-- The information bytes of a codeword (R39). -/
def infoBytes (user meta_ : List Byte) : List Byte := user ++ meta_ ++ leBytes 4 (crc32c (user ++ meta_))

/-- One bit of the information bytes (R39). -/
def infoBit (info : List Byte) (i : Nat) : Bool := (nth 0 info (i / 8)).getLsbD (7 - i % 8)

/-- The shift of the circulant in block row i and block column j of H, where that block is not zero (R42). -/
def ldpcShift (i j : Nat) : Option Nat :=
  if j ≤ 85 then
    if i = j % 14 || i = (j + 5) % 14 || i = (j + 9) % 14 then some ((37 * (i + 1) * (j + 1) + 11 * j) % 384) else none
  else if j = 86 then (if i = 0 || i = 13 then some 1 else if i = 7 then some 0 else none)
  else if i + 87 = j || i + 86 = j then some 0 else none

/-- One check of H: the exclusive or of the codeword bits that row r of block row i covers. -/
def ldpcCheck (v : Nat → Bool) (i r : Nat) : Bool :=
  (List.range 100).foldl (fun a j => match ldpcShift i j with
    | some s => a != v (384 * j + (r + s) % 384)
    | none => a) false

/-- Whether a word is a codeword (R42). -/
def ldpcOk (v : Nat → Bool) : Bool := (List.range 14).all fun i => (List.range 384).all fun r => !ldpcCheck v i r

/-- What the information bits give to the check of row r of block row i. -/
def infoCheck (info : List Byte) (i r : Nat) : Bool :=
  (List.range 86).foldl (fun a j => match ldpcShift i j with
    | some s => a != infoBit info (384 * j + (r + s) % 384)
    | none => a) false

/-- Bit r of parity column 86: the sum of all fourteen block rows isolates it (R42). -/
def parityFirst (info : List Byte) (r : Nat) : Bool := (List.range 14).foldl (fun a i => a != infoCheck info i r) false

/-- Bit r of parity column 86 + m: the columns follow row by row, block row m - 1 giving column 86 + m (R42). -/
def parityBit (info : List Byte) : Nat → Nat → Bool
  | 0, r => parityFirst info r
  | m + 1, r =>
    let before := if m = 0 then parityFirst info ((r + 1) % 384) else parityBit info m r
    let seven := if m = 7 then parityFirst info r else false
    (infoCheck info m r != before) != seven

/-- Bit k of the codeword of 4,128 information bytes (R39, R42). -/
def codeBit (info : List Byte) (k : Nat) : Bool :=
  if k < 33024 then infoBit info k else parityBit info ((k - 33024) / 384) ((k - 33024) % 384)
def codeBits (info : List Byte) : List Nat := (List.range 38400).map fun k => if codeBit info k then 1 else 0

/-- The bits of a frame's data symbols in recording order: symbol p carries symbol p / 16 of codeword p mod 16 (R43). -/
def interleave (cws : List (List Nat)) : List Nat :=
  ((List.range 307200).map fun p => let v := nth [] cws (p % 16); [nth 0 v (2 * (p / 16)), nth 0 v (2 * (p / 16) + 1)]).flatten

/-- Levels of data symbols from their bits, scrambled from a seed before the Gray map (R44). -/
def scrambled (seed : Nat) (bits : List Nat) : List Nat := grayLevels (List.zipWith xorBits bits (scrBits seed bits.length))

/-- Data symbols in sync blocks of 1,200, each behind its mark, from block b on (R34). -/
def inBlocks : Nat → Nat → List Nat → List Nat
  | 0, _, _ => []
  | n + 1, b, l => syncSyms (b % 4) ++ l.take 1200 ++ inBlocks n (b + 1) (l.drop 1200)

/-- The 316,000 levels of a recorded frame slot (Table 2.5): header and the information bytes of its sixteen codewords. -/
def frameLevels (layer f : Nat) (header : List Byte) (infos : List (List Byte)) : List Nat :=
  List.replicate 128 0 ++ runSyms 1024 ++ training ++ syncSyms 4 ++ headerSyms header ++
  inBlocks 256 0 (scrambled (frameSeed layer f) (interleave (infos.map codeBits))) ++ runSyms 480 ++ List.replicate 128 0

/-- The 19,750 levels of ledger segment g (R52). -/
def segmentLevels (g : Nat) (info : List Byte) : List Nat :=
  List.replicate 32 0 ++ runSyms 134 ++ inBlocks 16 0 (scrambled (segSeed g) (codeBits info))

/-- P and Q over the six data bytes of a column (R46): the polynomial vanishes at 1 and at α. -/
def parityPQ (d : List Nat) : Nat × Nat :=
  let s0 := d.foldl xorBits 0
  let s1 := d.foldl (fun a x => xorBits (gfMul 8 0x1D a 2) x) 0
  let s1 := gfMul 8 0x1D s1 4
  -- p + q = s0 and 2 p + q = s1
  let p := gfMul 8 0x1D (xorBits s0 s1) (gfInv 8 0x1D 3)
  (p, xorBits s0 p)

/-- P and Q user bytes of a column of data codewords. -/
def parityBytes (d : List (List Byte)) : List Byte × List Byte :=
  let l := (List.range 4096).map fun b => parityPQ (d.map fun x => (nth 0 x b).toNat)
  (l.map fun x => BitVec.ofNat 8 x.1, l.map fun x => BitVec.ofNat 8 x.2)

/-- The two syndromes of a column of eight bytes D0 to Q (R46). -/
def colSyn (v : List Nat) : Nat × Nat :=
  (v.foldl xorBits 0, v.foldl (fun a x => xorBits (gfMul 8 0x1D a 2) x) 0)

/-- Erasure decoding of one byte column with one or two missing places (R133): the filled column. -/
def colFill (missing : List Nat) (v : List Nat) : List Nat :=
  let v := missing.foldl (fun v i => v.set i 0) v
  let (s0, s1) := colSyn v
  match missing with
  | [i] => v.set i s0
  | [i, j] =>
    let a := gfPow 8 0x1D 2 (7 - i)
    let b := gfPow 8 0x1D 2 (7 - j)
    -- x + y = s0 and a x + b y = s1
    let x := gfMul 8 0x1D (xorBits s1 (gfMul 8 0x1D b s0)) (gfInv 8 0x1D (xorBits a b))
    (v.set i x).set j (xorBits s0 x)
  | _ => v

/-- The CRC-32C register after a codeword's user bytes goes on over its metadata: the codeword's check word. PRESUMED: log 25. -/
def crcAfter (reg : Nat) (more : List Byte) : Nat := xorBits (more.foldl crc32cByte reg) 0xFFFFFFFF

/-- The cast digest over the check words of 128 ranks of 128 codewords (R56). -/
def castDigest (crcs : List Nat) : List Byte := shake256 32 ((crcs.map (leBytes 4)).flatten)

/-- Ledger record type, slots and body (Table 2.11). -/
def LBody.type : LBody → Nat
  | .packIdentity .. => 1 | .formatProgress .. => 2 | .wrappedKey .. => 3 | .cast .. => 4 | .relocation .. => 5
  | .sanitiseProgress .. => 6 | .packState .. => 7 | .keyDestroyed .. => 8

/-- A ledger record as recorded (Table 2.9): its CRC over the record with the field zero. DEDUCED: log 70. -/
def LRec.bytes (r : LRec) : List Byte :=
  let slots := if r.body.type = 3 then 2 else 1
  let body := match r.body with
    | .packIdentity f uuid card => leBytes 16 uuid ++ leBytes 2 0x0100 ++ leBytes 2 0 ++ leBytes 4 card ++ leBytes 8 f
    | .formatProgress step layer escrow => leBytes 1 step ++ leBytes 1 layer ++ leBytes 6 0 ++ leBytes 8 escrow
    | .wrappedKey f w id e => leBytes 8 f ++ leBytes 40 w ++ leBytes 8 id ++ leBytes 40 e
    | .cast m layer riser digest time => leBytes 4 m ++ leBytes 1 layer ++ leBytes 1 riser ++ leBytes 2 0 ++ digest ++
        leBytes 8 time
    | .relocation n layer reason prev slot => leBytes 4 n ++ leBytes 1 layer ++ leBytes 1 reason ++ leBytes 2 0 ++
        leBytes 4 prev ++ leBytes 4 slot
    | .sanitiseProgress mode state layer next => leBytes 1 mode ++ leBytes 1 state ++ leBytes 1 layer ++ leBytes 1 0 ++
        leBytes 4 next
    | .packState flags mask reason => leBytes 1 flags ++ leBytes 1 mask ++ leBytes 2 0 ++ leBytes 2 reason
    | .keyDestroyed f seq => leBytes 8 f ++ leBytes 8 seq
  let head := leBytes 2 r.body.type ++ leBytes 1 slots ++ leBytes 1 1 ++ leBytes 8 r.seq
  let rest := slice (leBytes 8 r.time ++ body) 0 (128 * slots - 16)
  head ++ leBytes 4 (crc32c (head ++ leBytes 4 0 ++ rest)) ++ rest

/-- Journal entry type, length and body (Tables 3.8 and 11.5). -/
def JBody.type : JBody → Nat
  | .castOpen .. => 0x0101 | .rankCast .. => 0x0102 | .castDone .. => 0x0103 | .castClosed .. => 0x0104
  | .castFailed .. => 0x0105 | .pourAbandoned .. => 0x0106 | .ledgerFlushed .. => 0x0107 | .assign .. => 0x0108
  | .formatStep .. => 0x0201 | .sanitiseStep .. => 0x0202
def JBody.len : JBody → Nat
  | .rankCast .. => 576 | .castDone .. => 96 | _ => 64

/-- A journal entry (Table 3.7). DEDUCED: log 70. -/
def JEntry.bytes (e : JEntry) : List Byte :=
  let b := match e.body with
    | .castOpen m layer pos => leBytes 4 m ++ leBytes 1 layer ++ leBytes 1 pos
    | .rankCast n layer repour reason slot prev crcs => leBytes 4 n ++ leBytes 1 layer ++ leBytes 1 repour ++
        leBytes 1 reason ++ leBytes 1 0 ++ leBytes 4 slot ++ leBytes 4 prev ++ leBytes 16 0 ++ (crcs.map (leBytes 4)).flatten
    | .castDone m riser digest => leBytes 4 m ++ leBytes 1 riser ++ leBytes 27 0 ++ digest
    | .castClosed m seq => leBytes 4 m ++ leBytes 4 0 ++ leBytes 8 seq
    | .castFailed m reason => leBytes 4 m ++ leBytes 2 reason
    | .pourAbandoned n layer src slot => leBytes 4 n ++ leBytes 1 layer ++ leBytes 1 src ++ leBytes 2 0 ++ leBytes 4 slot
    | .ledgerFlushed seq => leBytes 8 0 ++ leBytes 8 (seq.getD (2 ^ 64 - 1))
    | .assign m addr len aseq => leBytes 4 m ++ leBytes 4 0 ++ leBytes 8 addr ++ leBytes 8 len ++ leBytes 8 aseq
    | .formatStep step layer card uuid escrow => leBytes 1 step ++ leBytes 1 layer ++ leBytes 2 0 ++ leBytes 4 card ++
        leBytes 16 uuid ++ leBytes 8 escrow
    | .sanitiseStep mode state layer next => leBytes 1 mode ++ leBytes 1 state ++ leBytes 1 layer ++ leBytes 1 0 ++
        leBytes 4 next
  let head := leBytes 2 e.body.type ++ leBytes 2 e.body.len
  let rest := slice (leBytes 8 e.seq ++ leBytes 8 e.tag ++ leBytes 8 e.time ++ b) 0 (e.body.len - 8)
  head ++ leBytes 4 (crc32c (head ++ leBytes 4 0 ++ rest)) ++ rest

/-- A media card as read (Table 8.7): whether its CRC holds, and whether its F(z) agree with R27. -/
def cardCrcOk (card : List Byte) : Bool := leAt card 1432 4 == crc32c (slice card 0 1432)
def cardFits (card : List Byte) : Bool := (List.range 64).all fun z => leAt card (24 + 4 * z) 4 == zoneSlots z

/-- The ledger's first slot, segments and segments kept in reserve (R52, R53). -/
def ledgerSlot0 : Nat := 17408
def ledgerSegs : Nat := 491520
def ledgerReserve : Nat := 4096

end Sys2Proof.Machine
end

