-- ==== Sys2Proof/Machine/HostOps.lean ====
section
/-! DEFINITION. The host interface's shared operations (chapter 10): tags, completions, the rings and their holding
shares, interrupts, freezes, the error log, firmware events, and changes of log pages. -/

namespace Sys2Proof.Machine

def State.updHqi (s : State) (g : HqiState → HqiState) : State := { s with hqi := g s.hqi }
def State.updFn (s : State) (f : FnIx) (g : FnState → FnState) : State := { s with fns := s.fns.set f (g s.fns[f]) }
def State.updPack (s : State) (p : PosIx) (g : PackState → PackState) : State :=
  { s with packs := s.packs.set p (g s.packs[p]) }
def State.updEng (s : State) (e : EngIx) (g : EngState → EngState) : State := { s with eng := s.eng.set e (g s.eng[e]) }
def State.updLamp (s : State) (g : LampState → LampState) : State := { s with lamp := g s.lamp }
def State.updMtl (s : State) (g : MtlState → MtlState) : State := { s with mtl := g s.mtl }

/-- The tag in use with a number, and changes of one. -/
def tagOf (s : State) (n : Nat) : Option Tag := s.hqi.tags.find? fun t => t.num == n
def updTag (n : Nat) (g : Tag → Tag) (s : State) : State :=
  s.updHqi fun h => { h with tags := h.tags.map fun t => if t.num == n then g t else t }

/-- A queue of a function, and changes of one. -/
def sqOf (s : State) (f : FnIx) (q : Nat) : Option SQ := s.hqi.sqs.find? fun x => x.fn == f && x.qid == q
def cqOf (s : State) (f : FnIx) (q : Nat) : Option CQ := s.hqi.cqs.find? fun x => x.fn == f && x.qid == q
def updSq (f : FnIx) (q : Nat) (g : SQ → SQ) (s : State) : State :=
  s.updHqi fun h => { h with sqs := h.sqs.map fun x => if x.fn == f && x.qid == q then g x else x }
def updCq (f : FnIx) (q : Nat) (g : CQ → CQ) (s : State) : State :=
  s.updHqi fun h => { h with cqs := h.cqs.map fun x => if x.fn == f && x.qid == q then g x else x }

/-- FN_USE, HQI_TAGS and HQI_CQSTAT follow the queues and tags (Tables 10.3 and 10.11). -/
def showFn (f : FnIx) (s : State) : State :=
  let held := ((s.hqi.cqs.filter (·.fn == f)).map (·.held.length)).foldl (· + ·) 0
  let tags := (s.hqi.tags.filter (·.fn == f)).length
  let n := (s.hqi.sqs.filter (·.fn == f)).length + (s.hqi.cqs.filter (·.fn == f)).length
  ((s.wr (R.fnUseHeld f) held).wr (R.fnUseTags f) tags).wr (R.fnUseQueues f) n
def showCq (s : State) : State :=
  match s.hqi.cqs.find? fun x => x.fn.val == s.rd R.hqiCqselFn && x.qid == s.rd R.hqiCqselQid with
  | some q => (((s.wr R.hqiCqstatExists 1).wr R.hqiCqstatPaused (if q.paused then 1 else 0)).wr R.hqiCqstatHeld
      (min q.held.length q.hshare)).wr R.hqiCqstatShare q.hshare
  | none => (((s.wr R.hqiCqstatExists 0).wr R.hqiCqstatPaused 0).wr R.hqiCqstatHeld 0).wr R.hqiCqstatShare 0
def showHost (s : State) : State := showCq ((s.forEach allFn showFn).wr R.hqiTagsInuse s.hqi.tags.length)

/-- HQI_EVT shows the head of its queue (Table 10.11). -/
def showHqiEvt (s : State) : State :=
  let s := s.wr R.hqiEvtOvf (if s.hqi.evtLost then 1 else 0)
  match s.hqi.events with
  | e :: _ => ((((s.wr R.hqiEvtValid 1).wr R.hqiEvtCode e.code).wr R.hqiEvtFn e.fn).wr R.hqiEvtQid e.qid).wr R.hqiEvtTag e.tag
  | [] => ((((s.wr R.hqiEvtValid 0).wr R.hqiEvtCode 0).wr R.hqiEvtFn 0).wr R.hqiEvtQid 0).wr R.hqiEvtTag 0

/-- A firmware event; a full queue of 64 loses it. -/
def hqiEvent (code fn qid tag : Nat) (s : State) : State :=
  showHqiEvt (s.updHqi fun h => if h.events.length ≥ 64 then { h with evtLost := true }
    else { h with events := h.events ++ [{ code := code, fn := fn, qid := qid, tag := tag }] })

/-- Bytes written to host memory on behalf of a function. DEDUCED: log 94. -/
def hostWrite (f addr : Nat) (l : List Byte) (s : State) : State := { s with hostOut := s.hostOut ++ [.write f addr l] }

/-- Whether vector v of function f is masked: bit 0 of the entry's vector control, set at reset. -/
def vecMasked (s : State) (f v : Nat) : Bool := ((Assoc.get (f * 65536 + 16 * v + 12) s.hqi.msix).getD 1) % 2 == 1

/-- An MSI-X signal (R292): the message, or the pending bit while the vector is masked. DEDUCED: log 94. -/
def signal (f : FnIx) (v : Nat) (s : State) : State :=
  if s.pins.pwrFail then s
  else if vecMasked s f v then
    s.updFn f fun x => { x with pendVec := if x.pendVec.contains v then x.pendVec else x.pendVec ++ [v] }
  else { s with hostOut := s.hostOut ++ [.msix f v] }

/-- FN_STS.QERR signals vector 0 (R292). -/
def queueError (f : FnIx) (s : State) : State := signal f 0 (s.set1 (R.fnStsQerr f))

/-- The completion entry without its last byte (Table 10.5). DEDUCED: log 53, 56. -/
def cqeBody (aseq result cid sqid cnt reason cls flags : Nat) : List Byte :=
  leBytes 8 aseq ++ leBytes 8 result ++ leBytes 2 cid ++ leBytes 2 sqid ++ leBytes 2 cnt ++ leBytes 2 reason ++
  leBytes 1 cls ++ leBytes 1 flags ++ leBytes 5 0

/-- Free slots of a completion ring (R282). -/
def cqFree (q : CQ) : Nat := 2 ^ q.log2 - (q.posted + 2 ^ 32 - q.head % 2 ^ 32) % 2 ^ 32

/-- The completion body in a tag's context (R288), and where the context lies. -/
def ctxAddr (s : State) (n : Nat) : Nat := s.rd R.hqiTctxAddr * 2 ^ 20 + 32 * n
def ctxBody (s : State) (n : Nat) : List Byte := s.sramRead (ctxAddr s n) 31
def ctxPut (n : Nat) (b : List Byte) (s : State) : State :=
  let a := ctxAddr s n
  if sramBase ≤ a && a + 32 ≤ sramBase + sramSize then s.sramWrite a b else s

/-- A tag is free again (R289). -/
def freeTag (n : Nat) (s : State) : State := s.updHqi fun h => { h with tags := h.tags.filter fun t => t.num != n }

/-- Firmware has the completion of a tag: its body stands in the context (R288). A refused command carries ASEQ 0 as not
admitted (Table 11.10), a queue-management command its own (R286). A tag whose function was reset frees instead: no
entry is posted (R300). DEDUCED: log 53. -/
def finish (n cls reason result : Nat) (s : State) : State :=
  match tagOf s n with
  | none => s
  | some t =>
    if t.orphan then freeTag n s
    else if t.done then s
    else updTag n (fun t => { t with done := true })
      (ctxPut n (cqeBody (if cls = 1 && leAt t.sqe 0 1 > 7 then 0 else t.aseq) result t.cid t.sqid 0 reason cls 0) s)

/-- ABORT commands that wait for a tag whose completion has been written complete (R298): class 0, or 0x010E where that
completion had been taken first. -/
def wakeAborts (n : Nat) (s : State) : State :=
  (s.hqi.tags.filter fun t => (t.abortOf.map (·.1)) == some n).foldl (fun s t =>
    let late := (t.abortOf.map (·.2)).getD false
    finish t.num (if late then 1 else 0) (if late then 0x010E else 0) 0 (updTag t.num (fun t => { t with abortOf := none }) s)) s

/-- One completion written to its ring slot: the body, then the owner byte; its tag frees and the queue's interrupt
counts (R278, R289, R292). DEDUCED: log 56, 94. -/
def writeCqe (f : FnIx) (q : CQ) (h : Held) (s : State) : State :=
  let a := q.base + 32 * (q.posted % 2 ^ q.log2)
  let s := hostWrite f (a + 31) [0x80] (hostWrite f a h.body s)
  let n := q.unsig + 1
  let fire := q.ien && (n ≥ q.ithr + 1)
  let s := updCq f q.qid (fun x => { x with posted := (x.posted + 1) % 2 ^ 32, unsig := if fire then 0 else n }) s
  let s := if fire then signal f q.iv s else s
  match h.tag with
  | some t => wakeAborts t (freeTag t s)
  | none => s

/-- Held completions go to the ring in posting order while it has room (R288); none after PWRFAIL_N (R447). DEDUCED: log 56. -/
def drainCq (f : FnIx) (q : Nat) : Nat → State → State
  | 0, s => s
  | n + 1, s =>
    match cqOf s f q with
    | none => s
    | some c =>
      match c.held with
      | [] => s
      | h :: t =>
        if cqFree c = 0 || s.pins.pwrFail then s
        else drainCq f q n (writeCqe f { c with held := t } h (updCq f q (fun x => { x with held := t }) s))

/-- The pause and its end (R290): full share, or at least half of HSHARE free again. -/
def cqPause (f : FnIx) (q : Nat) (s : State) : State :=
  match cqOf s f q with
  | none => s
  | some c =>
    let share := min c.held.length c.hshare
    if !c.paused && share ≥ c.hshare then hqiEvent 1 f q 0 (updCq f q (fun x => { x with paused := true }) s)
    else if c.paused && 2 * (c.hshare - share) ≥ c.hshare then
      hqiEvent 2 f q 0 (updCq f q (fun x => { x with paused := false }) s)
    else s

/-- A completion posted to its queue: to the ring when nothing is held before it and a slot is free, else held. -/
def postCqe (f : FnIx) (q : Nat) (h : Held) (s : State) : State :=
  match cqOf s f q with
  | none => s
  | some c => cqPause f q (drainCq f q (c.held.length + 1) (updCq f q (fun x => { x with held := x.held ++ [h] }) s))

/-- A page that a function may read has changed (R333); the same change is not listed twice. -/
def pageChange (f : FnIx) (page p : Nat) (s : State) : State :=
  s.updFn f fun x => { x with changes := if x.changes.contains (page, p) then x.changes else x.changes ++ [(page, p)] }

/-- A pack page of position p has changed, for every function that may read it (R332). -/
def packPageChange (page : Nat) (p : PosIx) (s : State) : State :=
  s.forEach allFn fun f s =>
    if f.val = 0 || bitAt s.fns[f].grant p then (if f.val = 0 || page ≤ 4 then pageChange f page p s else s) else s

/-- An entry of log page 0x01, newest first, the last 256 kept (R295). -/
def errEntry (f : FnIx) (aseq cid sqid cls reason : Nat) (s : State) : State :=
  let e : ErrEntry := { seq := s.fns[f].errCount + 1, aseq := aseq, cid := cid, sqid := sqid, cls := cls, reason := reason,
                        time := s.rd R.timeNowNs }
  pageChange f 1 0 (s.updFn f fun x => { x with errCount := x.errCount + 1, errLog := (e :: x.errLog).take 256 })

/-- An entry of log page 0x03 (R315, R316). -/
def unrecEntry (f : FnIx) (u : Unrec) (s : State) : State :=
  pageChange f 3 0 (s.updFn f fun x => { x with unrec := (u :: x.unrec).take 256 })

/-- A fresh stamp of the order of consumptions and postings. -/
def stampUp (s : State) : State := s.updHqi fun h => { h with stamp := h.stamp + 1 }

/-- The arbiter takes a tag's completion and posts it (R288, R293, R294, R298): class 4 when an abort was taken
first; any class but 0 and 4 freezes a queue that is not an admin queue and is logged. -/
def takeCompletion (n : Nat) (s : State) : State :=
  match tagOf s n with
  | none => s
  | some t =>
    let s := stampUp s
    let b := ctxBody s n
    let cls := if t.aborted then 4 else leAt b 24 1
    let reason := if t.aborted then 0x0111 else leAt b 22 2
    let log := cls != 0 && cls != 4 && t.sqid != 0
    let cnt := ((sqOf s t.fn t.sqid).map (·.consumed)).getD 0
    let body := cqeBody (leAt b 0 8) (leAt b 8 8) (leAt b 16 2) (leAt b 18 2) cnt reason cls (if log then 3 else 0)
    let s := updTag n (fun t => { t with taken := true, done := true }) s
    let s := if log then
        updSq t.fn t.sqid (fun q => { q with frozenAt := q.frozenAt.getD s.hqi.stamp |> some })
          (errEntry t.fn (leAt b 0 8) t.cid t.sqid cls reason s)
      else s
    let s := if leAt t.sqe 0 1 == 0x08 && leAt t.sqe 32 1 == 1 && cls == 0 && t.sqid == 0 then
        s.updFn t.fn fun x => { x with logReads := (t.stamp, s.hqi.stamp) :: x.logReads } else s
    postCqe t.fn t.cqid { tag := some n, body := body } s

/-- A command refused at admission: its completion is taken at once (R297, R308). DEDUCED: log 53. -/
def refuse (n reason : Nat) (s : State) : State := takeCompletion n (finish n 1 reason 0 s)

/-- Opcode, position and parameters of a command, from its entry (Tables 10.4 and 11.2). -/
def Tag.op (t : Tag) : Nat := leAt t.sqe 0 1
def Tag.flags (t : Tag) : Nat := leAt t.sqe 1 1
def Tag.csp (t : Tag) (at_ n : Nat) : Nat := leAt t.sqe at_ n
def Tag.dlen (t : Tag) : Nat := leAt t.sqe 24 4
def posOfAddr (a : Nat) : Nat := bitsOf a 45 3

/-- Opcodes whose CSP bytes 32 to 39 hold a controller address, and those with a position byte (R307). -/
def opHasAddr (op : Nat) : Bool := op == 0x15 || (0x80 ≤ op && op ≤ 0x83)
def opHasPos (op : Nat) : Bool := 0x10 ≤ op && op ≤ 0x14

/-- The position that a command names. -/
def Tag.posNamed (t : Tag) : Option PosIx :=
  if opHasAddr t.op then some ⟨posOfAddr (t.csp 32 8), by unfold posOfAddr bitsOf; omega⟩
  else if opHasPos t.op && t.csp 32 1 < 8 then some ⟨t.csp 32 1 % 8, by omega⟩
  else none

/-- Admitted commands of position p whose work has not ended. -/
def packTags (s : State) (p : PosIx) : List Tag :=
  s.hqi.tags.filter fun t => t.posNamed == some p && t.aseq > 0 && !t.done

/-- RESULT of an APPEND or PLACE (Table 11.2). -/
def writeResult (p : PosIx) (vaddr len : Nat) : Nat := p.val * 2 ^ 45 + vaddr + (len + 4095) / 4096 * 2 ^ 48

/-- RESULT of a data command that ends before its work does (Table 11.2): the range it took, the bytes written to host memory, or the
codewords counted so far. DEDUCED: log 48. -/
def workResult (t : Tag) : Nat :=
  match t.work with
  | .write p vaddr len _ _ => writeResult p vaddr len
  | .read _ _ _ moved false _ _ _ => moved % 2 ^ 32
  | .read _ _ _ _ true _ late bad => late % 2 ^ 32 + bad % 2 ^ 32 * 2 ^ 32
  | _ => 0

/-- Whether the completion queue of a command is paused (R290). -/
def cqPaused (s : State) (t : Tag) : Bool := ((cqOf s t.fn t.cqid).map (·.paused)).getD false

/-- Whether a command has begun its work: one that has not waits while its completion queue is paused (R290). -/
def begun (s : State) (t : Tag) : Bool :=
  t.started || t.work == .event || allPos.any fun p => s.packs[p].owner == some t.num
def goesOn (s : State) (t : Tag) : Bool := begun s t || !cqPaused s t

/-- Bytes moved to the host memory that a command's data pointer names, from a byte offset of it. -/
def scatter (f : Nat) : List (Nat × Nat) → Nat → List Byte → State → State
  | [], _, _, s => s
  | (a, n) :: t, off, l, s =>
    if off ≥ n then scatter f t (off - n) l s
    else
      let k := min (n - off) l.length
      if k = 0 then s else scatter f t 0 (l.drop k) (hostWrite f (a + off) (l.take k) s)

end Sys2Proof.Machine
end

