-- ==== Sys2Proof/Machine/Casts.lean ====
section
/-! DEFINITION. The Ember journal's append, pour descriptors, casts and ranks by number, the uncast-range list, and
what follows when a rank or a cast fails (R48, R49, R86 to R91, R318). -/

namespace Sys2Proof.Machine

/-- A journal entry appended with the next JSEQ (R91); it waits for its commit in the Ember domain. DESIGN CHOICE: log 11. -/
def jappend (p : PosIx) (b : JBody) (s : State) : State :=
  let j := s.journal
  let e : JEntry := { seq := j.next, tag := s.packs[p].tag, time := s.rd R.timeNowNs, body := b }
  { s with journal := { j with pend := j.pend ++ [e], next := j.next + 1,
                               seqEnd := if j.next + 1 < j.seqEnd then j.seqEnd else j.seqEnd + 2 ^ 32 } }

/-- Fields of a pour descriptor (Table 3.2). -/
def dSlot (d : List Byte) : Nat := leAt d 0 4
def dLayer (d : List Byte) : Nat := leAt d 4 1 / 16
def dSurf (d : List Byte) : Nat := leAt d 4 1 / 2 % 8
def dRole (d : List Byte) : Nat := leAt d 5 1 / 32
def dRepour (d : List Byte) : Nat := leAt d 5 1 % 32
def dArea (d : List Byte) : Nat := leAt d 6 1
def dFlags (d : List Byte) : Nat := leAt d 7 1
def dRank (d : List Byte) : Nat := leAt d 8 4
def dTag (d : List Byte) : Nat := leAt d 24 8
def dLedger (d : List Byte) : Bool := bitAt (dFlags d) 2
def dVaddr (d : List Byte) : Nat := leAt d 16 8
def dPad (d : List Byte) (c : Nat) : Bool := bitAt (leAt d 40 2) c
def dValid (d : List Byte) (c : Nat) : Nat := leAt d (48 + 2 * c) 2

/-- The segment of the slot with which a ledger pour begins, and how many it writes, all within the slot (R71). -/
def dSeg (d : List Byte) : Nat := dVaddr d % 16
def dNseg (d : List Byte) : Nat := max 1 (min (leAt d 42 1) (16 - dSeg d))

/-- Whether a pour descriptor names a logical rank's frame. -/
def dIsRank (d : List Byte) : Bool := !dLedger d && dArea d ≤ 1 && dRank d != 0xFFFFFFFF

/-- Ranks of the casts of a pack changed by g. -/
def updRanks (p : PosIx) (n : Nat) (g : Rank → Rank) (s : State) : State :=
  s.updPack p fun k => { k with casts := k.casts.map fun c =>
    if c.m == n / 128 then { c with ranks := c.ranks.map fun r => if r.n == n then g r else r } else c }

/-- The cast and the rank of a pack under a number. -/
def castOf (s : State) (p : PosIx) (m : Nat) : Option Cast := s.packs[p].casts.find? fun c => c.m == m
def rankOf (s : State) (p : PosIx) (n : Nat) : Option Rank :=
  (castOf s p (n / 128)).bind fun c => c.ranks.find? fun r => r.n == n

/-- A slot of a layer is dead (R31). -/
def deadSlot (p : PosIx) (layer f : Nat) (s : State) : State :=
  s.updPack p fun k => { k with dead := if k.dead.contains (layer, f) then k.dead else k.dead ++ [(layer, f)] }

def updCast (p : PosIx) (m : Nat) (g : Cast → Cast) (s : State) : State :=
  s.updPack p fun k => { k with casts := k.casts.map fun c => if c.m == m then g c else c }

/-- Records queued for the next ledger pour take the next SEQ values (R93). -/
def queueRec (p : PosIx) (b : LBody) (s : State) : State :=
  s.updPack p fun k => { k with seqNext := k.seqNext + 1,
                                lq := k.lq ++ [{ seq := k.seqNext, time := s.rd R.timeNowNs, body := b }] }

/-- A cause for which the pack is read-only for new casts (R53, R218, R219, R238): the oldest that stands is the reason shown, and log
page 0x04 changes with it. -/
def readOnly (p : PosIx) (reason : Nat) (s : State) : State :=
  if s.packs[p].roCauses.contains reason then s else
  let first := s.packs[p].roReason == 0
  let s := s.updPack p fun k => { k with roCauses := k.roCauses ++ [reason], roReason := if first then reason else k.roReason }
  if first then packPageChange 4 p s else s

/-- A cause of the read-only state is gone; the others stay. -/
def liftReadOnly (p : PosIx) (reason : Nat) (s : State) : State :=
  if !s.packs[p].roCauses.contains reason then s else
  packPageChange 4 p (s.updPack p fun k =>
    let l := k.roCauses.filter (· != reason)
    { k with roCauses := l, roReason := l.head?.getD 0 })

/-- An entry of the uncast-range list (R318); a full list of 4,096 makes the pack read-only (0x0413). -/
def uncastAdd (p : PosIx) (vaddr len cause reason : Nat) (s : State) : State :=
  if len = 0 then s else
  let u : Uncast := { addr := p.val * 2 ^ 45 + vaddr, len := len, cause := cause, reason := reason, time := s.rd R.timeNowNs }
  let s := packPageChange 2 p (s.updPack p fun k => { k with uncast := k.uncast ++ [u] })
  if s.packs[p].uncast.length ≥ 4096 then readOnly p 0x0413 s else s

/-- Riser slots of a layer consumed so far, and blank ones left (R48). -/
def riserUsed (s : State) (p : PosIx) (layer : Nat) : Nat := (Assoc.get layer s.packs[p].riser).getD 0
def riserLeft (s : State) (p : PosIx) (layer : Nat) : Nat := riserSlots - riserUsed s p layer

/-- The ranks of a volume range. -/
def ranksOf (vaddr len : Nat) : List Nat :=
  if len = 0 then [] else (List.range ((vaddr + len - 1) / rankBytes - vaddr / rankBytes + 1)).map (vaddr / rankBytes + ·)

/-- The casts of a volume range. -/
def castsOf (vaddr len : Nat) : List Nat :=
  if len = 0 then [] else (List.range ((vaddr + len - 1) / castBytes - vaddr / castBytes + 1)).map (vaddr / castBytes + ·)

/-- Items of surfaces of a layer are queued for measurement (Table 8.6): bit k of `kinds` for kind k. -/
def queueRecal (p : PosIx) (layer mask kinds : Nat) (s : State) : State :=
  s.updPack p fun k => { k with recal := if k.recal.contains (layer, mask, kinds) then k.recal else k.recal ++ [(layer, mask, kinds)] }

/-- Whether a cast has failed (R89). -/
def castFailedAt (s : State) (p : PosIx) (m : Nat) : Bool := ((castOf s p m).bind (·.failed)).isSome

/-- A journal entry of a cast. Those of a failed cast are discarded together once its range is listed, which CAST_FAILED does
at once; none is added to them (R91). -/
def castAppend (p : PosIx) (m : Nat) (b : JBody) (s : State) : State := if castFailedAt s p m then s else jappend p b s

/-- A cast fails (R89): CAST_FAILED, and its range in log page 0x02. The FORCE writes that wait for it end with `endWrites`. -/
def castFail (p : PosIx) (m reason : Nat) (s : State) : State :=
  match castOf s p m with
  | none => s
  | some c =>
    if c.failed.isSome then s else
    let s := jappend p (.castFailed m reason) (updCast p m (fun c => { c with failed := some reason }) s)
    let s := if s.packs[p].open_ == some m then s.updPack p fun k => { k with open_ := none, append := 0 } else s
    let s := s.updPack p fun k => { k with barred := k.barred ++ [m] }
    uncastAdd p (m * castBytes) castBytes 1 reason s

/-- The ordinal of the next blank riser slot of a layer (R48): after those consumed, and after those that ranks which wait for
their re-pour have been given. -/
def riserNext (s : State) (p : PosIx) (layer : Nat) : Nat :=
  let given := ((s.packs[p].casts.map (·.ranks)).flatten.filter fun r =>
    rankLayer r.n == layer && r.repour > 0 && r.phase == .assembled).map fun r => r.slot - riserBase layer + 1
  given.foldl max (riserUsed s p layer)

/-- A failed rank takes the next blank riser slot of its layer (R48, R86), or its cast fails (R49, R89). -/
def repour (p : PosIx) (n : Nat) (s : State) : State :=
  let next := riserNext s p (rankLayer n)
  if next ≥ riserSlots then castFail p (n / 128) 0x0414 s
  else updRanks p n (fun r => { r with phase := .assembled, slot := riserBase (rankLayer n) + next, repour := r.repour + 1 }) s

/-- A rank fails its pour (R79, R88, R89): it waits for the riser visit, a rank with FORCE data is re-poured at once
(R87), and after the final permitted pour its cast fails. -/
def rankFail (p : PosIx) (n reason slot : Nat) (s : State) : State :=
  match rankOf s p n with
  | none => s
  | some r =>
    let s := deadSlot p (rankLayer n) slot s
    let s := updRanks p n (fun r => { r with phase := .failed, prev := slot, reason := reason, posted := 0, passed := 0, judged := 0,
                                             frames := [], abandoned := false }) s
    if r.repour ≥ s.policyOf 0x02 p then castFail p (n / 128) 0x0415 s
    else if r.force then repour p n s
    else s

end Sys2Proof.Machine
end

