-- ==== Sys2Proof/Machine/Snuff.lean ====
section
/-! DEFINITION. Snuff (R82 to R85, R166, R255) and the abandonment it brings to a pour. -/

namespace Sys2Proof.Machine

/-- The lowest snuff source in a set, as the CAST_SNUFF bit number: of several seen it is the one that POUR_ABANDONED names.
DESIGN CHOICE: log 101. -/
def firstBit (v : Nat) : Nat := ((List.range 10).find? fun b => bitAt v b).getD 0

/-- A rank with open write gates is abandoned in all eight frames (R84): POUR_ABANDONED is appended, once, its slot is dead
and it fails with reason 1. -/
def abandonRank (p : PosIx) (n layer slot src : Nat) (s : State) : State :=
  match rankOf s p n with
  | some r =>
    if r.phase != .pouring then s
    else rankFail p n 1 slot (castAppend p (n / 128) (.pourAbandoned n layer src slot) s)
  | none => s

/-- The pack is read-only for new casts when fewer than 4,096 blank segments remain; PACK_STATE is queued (R53). -/
def nearlyFull (p : PosIx) (s : State) : State :=
  if ledgerSegs - s.packs[p].seg < ledgerReserve && !s.packs[p].roCauses.contains 0x0412 then
    queueRec p (.packState 3 s.packs[p].uncal 0x0412) (readOnly p 0x0412 s)
  else s

/-- A ledger pour is torn (R53): its records are queued again with their sequence numbers. The segments it has reached are
written; the next pour goes to the first segment after them, so no blank segment ends a mount's read early (R57).
DEDUCED: log 74. -/
def tearLedger (p : PosIx) (s : State) : State :=
  match s.packs[p].lpour with
  | none => s
  | some l => nearlyFull p (s.updPack p fun k => { k with lpour := none, lq := l.recs ++ k.lq, seg := max k.seg l.reached })

/-- An engine at a rank boundary takes the mode that CAST_CTRL.EN selects (Table 3.10, R70): it is neither armed nor pouring nor
reading, and no verdict of its frames is due. DEDUCED: log 72. -/
def takeMode (e : EngIx) (s : State) : State :=
  if s.bit (R.castStatBusy e) || s.bit (R.rdStatBusy e) || s.eng[e].gate || !s.eng[e].poured.isEmpty then s
  else s.updEng e fun x => { x with mode := s.bit (R.castCtrlEn e) }

/-- An engine abandons its frame (R84, Table 3.14): the gate is closed and the verdict is 3. -/
def abandonFrame (e : EngIx) (s : State) : State :=
  let d := s.eng[e].desc
  match s.eng[e].home with
  | none => s
  | some (p, _) =>
    let src := s.rd (R.srvSnuffSeen p)
    let s := (((s.wr (R.castStatVerdict e) 3).set1 (R.castStatDone e)).clr1 (R.castStatBusy e)).wr (R.castSnuffSrc e) src
    let s := s.updEng e fun x => { x with gate := false, armed := false, slot := { x.slot with on := false } }
    takeMode e (if dLedger d then tearLedger p s
      else if dIsRank d then abandonRank p (dRank d) (dLayer d) (dSlot d) (firstBit src) s
      else s)

/-- Whether an engine other than e pours logical rank n of position p with its gate open. -/
def othersPour (s : State) (p : PosIx) (n : Nat) (e : EngIx) : Bool :=
  allEng.any fun k => k != e && s.eng[k].gate && (s.eng[k].home.map (·.1)) == some p && dIsRank s.eng[k].desc &&
    dRank s.eng[k].desc == n

/-- The write gate of engine e closes at the end of its frame; the frame awaits its verdict, and its rank too once the
last of its gates has closed. -/
def endPour (e : EngIx) (s : State) : State :=
  let x := s.eng[e]
  if !x.gate then s else
  let s := (s.clr1 (R.castStatBusy e)).updEng e fun x =>
    { x with gate := false, armed := false,
             poured := x.poured ++ [{ desc := x.desc, time := x.pourTime, gateLost := x.gateLost, slot := none }] }
  match x.home with
  | none => s
  | some (p, f) =>
    let s := s.updPos p fun y => { y with gates := clrBit y.gates f }
    if dIsRank x.desc && !othersPour s p (dRank x.desc) e then
      updRanks p (dRank x.desc) (fun r => if r.phase == .pouring then { r with phase := .awaiting } else r) s
    else s

/-- Every write gate of position p drops (R83): the engines whose gate is open abandon their frames; with an active
link the PF8 gets SNUFF and ignores wick packets (R255). -/
def dropGates (p : PosIx) (s : State) : State :=
  let s := s.forEach allEng fun e s =>
    if s.eng[e].gate && (s.eng[e].home.map (·.1)) == some p then abandonFrame e s else s
  let s := s.updPos p fun x => { x with gates := 0 }
  if s.rd (R.iglStatState p) == 2 then
    s.updPf8 p fun f => { f with ignoreWick := true, gate := List.replicate 8 false }
  else s

/-- A snuff source of position p asserts (R82, R83, R166). DEDUCED: log 83. -/
def raiseSnuff (p : PosIx) (b : Nat) (s : State) : State :=
  dropGates p (((s.setBitOf (R.srvSnuffLive p) b).set1 (R.srvSnuffLatch p)).setBitOf (R.srvSnuffSeen p) b)

/-- A snuff source of position p no longer asserted. DEDUCED: log 83. -/
def releaseSnuff (p : PosIx) (b : Nat) (s : State) : State := s.clrBitOf (R.srvSnuffLive p) b

/-- A source that asserts for an instant only: the latch and SEEN keep it. DEDUCED: log 83. -/
def pulseSnuff (p : PosIx) (b : Nat) (s : State) : State := releaseSnuff p b (raiseSnuff p b s)

end Sys2Proof.Machine
end

