-- ==== Sys2Proof/Machine/Wake.lean ====
section
/-! DEFINITION. What ends every command's effect: the snuff latch, the gates and link suspension follow their
sources; which positions the part offers; and the failure of a wake (R504). -/

namespace Sys2Proof.Machine

/-- The positions and engines the part offers (R1, R2). DESIGN CHOICE: log 10. -/
def posOffered (s : State) (p : PosIx) : Bool := s.part == .oa824 || p.val < 4
/-- DESIGN CHOICE: log 10. -/
def engOffered (s : State) (e : EngIx) : Bool := s.part == .oa824 || e.val < 8

/-- Whether the motor outputs of position p are held off: by the safe-state latch (R438), or for as long as the position is
disabled (R437); an EXTEST instruction overrides both (R497). DEDUCED: log 36. -/
def outputsHeld (s : State) (p : PosIx) : Bool :=
  (bitAt (s.rd R.pwrSafePos) p || !bitAt (s.rd R.lampOptPosEn) p) && !s.pins.extest

/-- The sample and wick channels of position p are suspended (R264). -/
def suspended (s : State) (p : PosIx) : Bool :=
  s.bit (R.iglStatDegraded p) &&
    !(s.bit (R.spnStatLock p) && s.pos[p].spn.applied ≤ s.rd (R.spnSpdDegraded p) * 10000000)

/-- An asserted source holds the latch and is seen (R83, R166). DEDUCED: log 6. -/
def latchLive (p : PosIx) (s : State) : State :=
  if s.rd (R.srvSnuffLive p) = 0 then s
  else (s.wr (R.srvSnuffLatch p) 1).wr (R.srvSnuffSeen p) (orBits (s.rd (R.srvSnuffSeen p)) (s.rd (R.srvSnuffLive p)))

/-- The latch holds every write gate shut (R83, R85). DEDUCED: log 6. -/
def shutGates (p : PosIx) (s : State) : State :=
  if s.bit (R.srvSnuffLatch p) then s.updPos p fun x => { x with gates := 0 } else s

/-- A latch that sets asks for one SNUFF block (R255). -/
def askSnuff (p : PosIx) (s : State) : State :=
  if s.pos[p].igl.tx.latched = s.bit (R.srvSnuffLatch p) then s
  else s.updTx p fun t => { t with latched := s.bit (R.srvSnuffLatch p), snuff := t.snuff || s.bit (R.srvSnuffLatch p) }

/-- IGL_STAT.SUSPEND follows its conditions (R264). -/
def showSuspend (p : PosIx) (s : State) : State := s.wr (R.iglStatSuspend p) (if suspended s p then 1 else 0)

/-- What holds of position p at the end of every command. DEDUCED: log 6. -/
def settle (p : PosIx) (s : State) : State := showSuspend p (askSnuff p (shutGates p (latchLive p s)))

/-- Whether PLL n has a consumer, or FORCE keeps it running (R409, Table 15.2). DEDUCED: log 34. -/
def pllWanted (s : State) (n : Nat) : Bool :=
  s.bit (R.clkPllForce n) || match n with
  | 0 | 5 => true
  | 1 => s.rd R.pwrEngOn != 0
  | 2 => s.rd R.clkZenEn != 0
  | 3 | 4 => s.bit R.bufCtrlEn && !s.buf.selfRefresh
  | 6 => s.hqi.linkUp && s.hqi.refclk
  | n => s.bit (R.iglCtrlEn (n - 7))

/-- A PLL that nothing needs any more stops. DEDUCED: log 23, 34. -/
def pllTrim (n : Nat) (s : State) : State := if pllWanted s n then s else s.clr1 (R.clkPllLock n)

/-- A clock or power reason: loaded into CLK_REASON and logged (R427). -/
def clkReason (code pos addr detail : Nat) (s : State) : State := (s.wr R.clkReasonCode code).log code srcClk pos addr detail

/-- IGL_CTRL.EN = 0 (R267): the transmitters stop. -/
def linkStop (p : PosIx) (s : State) : State :=
  let s := pllTrim (7 + p) ((((s.clr1 (R.iglCtrlEn p)).wr (R.iglStatState p) 0).wr (R.iglStatLanes p) 0).clr1
    (R.iglStatDegraded p))
  s.updIgl p fun g => { g with degrading := none, aligned := 0, alignSent := false }

/-- What the controller held of a pack is gone; its uncast-range list stays in the Ember store under its tag (R318). -/
def packGone (p : PosIx) (s : State) : State :=
  let k := s.packs[p]
  let s := { s with lists := if k.tag = 0 then s.lists else if k.uncast.isEmpty then Assoc.del k.tag s.lists
                             else Assoc.put k.tag k.uncast s.lists }
  s.updPack p fun k => { PackState.reset with temp := k.temp, hot := k.hot }

/-- The spindle has reached OFF: a pack on its way Off is there (R424, Table 15.7); an UNMOUNT completes (R322). -/
def packOff (p : PosIx) (s : State) : State :=
  if !s.packs[p].goOff then s else
  let s := (linkStop p (s.wr (R.srvCtrlEn p) 0)).updCar p fun c => { c with offNext := true }
  let s := s.updPack p fun k => { k with goOff := false, power := 0 }
  let k := s.packs[p]
  if k.status == .unmounting then
    let s := packPageChange 4 p (packGone p s)
    showHost (match k.owner with | some n => finish n 0 0 0 s | none => s)
  else if k.status == .none then packGone p s
  else s

/-- Every position settles. DEDUCED: log 6. -/
def settleAll (s : State) : State := s.forEach allPos settle

/-- The end of a command that has its effect. DEDUCED: log 5. -/
def done (s : State) : Out := .next (settleAll s)

/-- A command of position p: on the OA408 one of a disabled position is ignored (R2). -/
def atPos (p : PosIx) (f : State → State) (s : State) : Out := done (if posOffered s p then f s else s)

/-- A command of engine e, likewise. -/
def atEng (e : EngIx) (f : State → State) (s : State) : Out := done (if engOffered s e then f s else s)

/-- A command that waits for its pack: a READ or VERIFY, a FORCE write, or the MOUNT, UNMOUNT or FORMAT under way. -/
def waitsFor (s : State) (p : PosIx) (t : Tag) : Bool :=
  t.aseq > 0 && !t.done &&
  match t.work with
  | .read q _ _ _ _ _ _ _ => q == p
  | .write q _ len moved force => q == p && force && moved ≥ len
  | .pack q => q == p && s.packs[p].owner == some t.num
  | _ => false

/-- A drive or the link of position p failed (R504): every command that waits for its pack completes with class 6 and
the reason, and a pack being mounted is not mounted. -/
def wakeFailed (p : PosIx) (reason : Nat) (s : State) : State :=
  let l := s.hqi.tags.filter (waitsFor s p)
  let s := l.foldl (fun s t => finish t.num 6 reason (workResult t) s) s
  s.updPack p fun k =>
    { k with owner := none, status := if k.status == .mounting then .none else if k.status == .unmounting then .mounted
                                      else k.status }

end Sys2Proof.Machine
end

