-- ==== Sys2Proof/Machine/Cache.lean ====
section
/-! DEFINITION. The shared cache: lookup, allocation, region attributes, the eviction buffer, range operations and
errors (chapter 13). -/

namespace Sys2Proof.Machine

/-- The class of a requester (Table 13.2); none allocates nothing. -/
def cacheClass : Requester → Option Nat
  | .core c => some c.val
  | .hqi _ => some 6
  | .comp _ => some 7
  | _ => none

/-- Set and tag of a line address (R368). -/
def lineSet (a : Nat) : Nat := a / 64 % 4096
def lineTag (a : Nat) : Nat := a / 2 ^ 18 % 2 ^ 22

/-- The address of the line in a slot. -/
def slotAddr (slot : Nat) (l : CLine) : Nat := l.tag * 2 ^ 18 + slot / 16 * 64

/-- The slot that holds a line. -/
def findLine (s : State) (a : Nat) : Option (Nat × CLine) :=
  s.cch.lines.find? fun e => e.1 / 16 == lineSet a && e.2.tag == lineTag a

/-- The region attribute of an address: the enabled entry of highest number that covers it, else UC (R371). -/
def attrOf (s : State) (a : Nat) : Nat :=
  let o := a - winBase
  let on := fun n => s.bit (R.cchRatEn n) && s.rd (R.cchRatBase n) * 65536 ≤ o &&
    o < (s.rd (R.cchRatBase n) + s.rd (R.cchRatSize n)) * 65536
  match (List.range 16).reverse.find? on with
  | some n => s.rd (R.cchRatAttr n)
  | none => 0

/-- The ways a class may allocate into (R369, R372, Table 13.6). -/
def allowedWays (s : State) (c : Option Nat) : List Nat :=
  match c with
  | none => []
  | some c =>
    if !s.bit R.cchCtrlEn then []
    else (List.range 16).filter fun w => bitAt (s.rd (R.cchWaymaskMask c)) w && !bitAt (s.rd R.cchLockLock) w

/-- The way the tree points to: node n's bit 0 points left. PRESUMED: log 31. -/
def plruWay (bits : Nat) : Nat :=
  let n1 := if bitAt bits 0 then 1 else 0
  let n2 := n1 * 2 + if bitAt bits (1 + n1) then 1 else 0
  let n3 := n2 * 2 + if bitAt bits (3 + n2) then 1 else 0
  n3 * 2 + if bitAt bits (7 + n3) then 1 else 0

/-- The tree after a use of a way: every node on its path points away. PRESUMED: log 31. -/
def plruTouch (bits w : Nat) : Nat :=
  let put := fun (b i : Nat) (right : Bool) => if right then clrBit b i else setBit b i
  put (put (put (put bits 0 (bitAt w 3)) (1 + w / 8) (bitAt w 2)) (3 + w / 4) (bitAt w 1)) (7 + w / 2) (bitAt w 0)

/-- PRESUMED: log 31. -/
def touch (a w : Nat) (s : State) : State :=
  let k := lineSet a
  let b := plruTouch ((Assoc.get k s.cch.plru).getD 0) w
  { s with cch := { s.cch with plru := if b = 0 then Assoc.del k s.cch.plru else Assoc.put k b s.cch.plru } }

/-- The victim among the allowed ways: the first invalid one, else the way the tree points to or the nearest allowed
one after it, wrapping round (R373). PRESUMED: log 31. -/
def victim (s : State) (a : Nat) (ways : List Nat) : Option Nat :=
  match ways.find? fun w => (Assoc.get (lineSet a * 16 + w) s.cch.lines).isNone with
  | some w => some w
  | none =>
    let t := plruWay ((Assoc.get (lineSet a) s.cch.plru).getD 0)
    ((List.range 16).map fun i => (t + i) % 16).find? ways.contains

def setLines (g : List (Nat × CLine) → List (Nat × CLine)) (s : State) : State :=
  { s with cch := { s.cch with lines := g s.cch.lines } }

/-- The oldest entry of the eviction buffer drains to the BUF (R374). -/
def drainOne (s : State) : State :=
  match s.cch.evb with
  | [] => s
  | e :: t => bufStore (e.line - winBase) e.data 0 { s with cch := { s.cch with evb := t } }

/-- Entries drain in arrival order until none for the line is left. -/
def drainTo (line : Nat) : Nat → State → State
  | 0, s => s
  | n + 1, s => if s.cch.evb.any fun e => e.line == line then drainTo line n (drainOne s) else s

/-- A line leaves a slot: a dirty one through the eviction buffer, whose entry an access waits for when it is full. -/
def evict (slot : Nat) (s : State) : State :=
  match Assoc.get slot s.cch.lines with
  | none => s
  | some l =>
    let s := setLines (Assoc.del slot) s
    if !l.dirty then s else
    let s := if s.cch.evb.length ≥ 32 then drainOne (s.bump R.cchEvbStalls 1) else s
    { s with cch := { s.cch with evb := s.cch.evb ++ [{ line := slotAddr slot l, data := l.data }] } }

/-- A line installed in a way, its victim gone first. -/
def install (a w : Nat) (data : List Byte) (dirty : Bool) (s : State) : State :=
  let slot := lineSet a * 16 + w
  touch a w (setLines (Assoc.put slot { tag := lineTag a, dirty := dirty, data := data }) (evict slot s))

/-- n bytes of a line with others written over them from an offset. -/
def overlay (line : List Byte) (at_ : Nat) (l : List Byte) : List Byte :=
  line.take at_ ++ l ++ line.drop (at_ + l.length)

/-- An error of the cache met at a line (R377). -/
def noteCache (who a reason : Nat) (s : State) : State :=
  let s := (s.wr R.cchErraddrReq who).wr R.cchErraddrAddr (a / 64)
  let s := if reason = 0x0A10 then (s.bump R.cchErrCe 1).set1 R.cchStatCe
    else (s.bump R.cchErrUe 1).set1 (if reason = 0x0A11 then R.cchStatUec else R.cchStatUe)
  s.log reason srcCch noPos a who

/-- A cache error met by a lookup of a line that is held (Table 13.4): whether the requester gets the outcome of
Table 12.3. -/
def cacheError (who a : Nat) (e : CacheError) (s : State) : Bool × State :=
  match findLine s a with
  | none => (false, s)
  | some (slot, l) =>
    match e with
    | .correctable => (false, noteCache who a 0x0A10 s)
    | _ =>
      let s := setLines (Assoc.del slot) s
      if l.dirty || e == .tag then
        let o := a - winBase
        let s := if devGone s (s.devOf o) then s else gPoison o 64 s
        let s := if s.devOf o = 0 && mirrored s o then gPoison (o + s.half) 64 s else s
        (true, noteCache who a 0x0A12 s)
      else (false, noteCache who a 0x0A11 s)

/-- The hit and miss counters of a class (Table 13.6). -/
def countHit (c : Option Nat) (s : State) : State := match c with
  | some c => s.bump (R.cchHitCount c) 1
  | none => s
def countMiss (c : Option Nat) (s : State) : State := match c with
  | some c => s.bump (R.cchMissCount c) 1
  | none => s

/-- A read of part of one line through the cache by a requester in class c (R368 to R374): the bytes, or the reason of an uncorrectable read. -/
def cacheRead (who : Requester) (c : Option Nat) (a n crcFails : Nat) (s : State) :
    Except Nat (List Byte) × State :=
  let line := a - a % 64
  match findLine s line with
  | some (slot, l) => (.ok (slice l.data (a - line) n), touch line (slot % 16) (countHit c s))
  | none =>
    let s := countMiss c s
    match s.cch.evb.reverse.find? fun e => e.line == line with
    | some e => (.ok (slice e.data (a - line) n), s.bump R.cchEvbHits 1)
    | none =>
      let ways := allowedWays s c
      let at_ := attrOf s line
      match (if at_ = 1 || at_ = 2 then victim s line ways else none) with
      | none => bufRead (reqCode who) (a - winBase) n crcFails s
      | some w =>
        match bufRead (reqCode who) (line - winBase) 64 crcFails s with
        | (.error r, s) => (.error r, s)
        | (.ok d, s) => (.ok (slice d (a - line) n), install line w d false s)

/-- What a write through the cache comes to. -/
inductive WriteRes where
  | done
  | partialWord
  | uncorrectable (reason : Nat)
  deriving DecidableEq, Repr

/-- A write of part of one line through the cache by a requester in class c (R371, R374, Table 13.3). -/
def cacheWrite (who : Requester) (c : Option Nat) (a : Nat) (l : List Byte) (crcFails : Nat) (s : State) :
    WriteRes × State :=
  let line := a - a % 64
  let at_ := attrOf s line
  let direct := fun (s : State) =>
    if a % 8 = 0 && l.length % 8 = 0 then (WriteRes.done, bufStore (a - winBase) l crcFails s)
    else (.partialWord, s.log 0x0A06 srcBuf noPos a (reqCode who))
  match findLine s line with
  | some (slot, x) =>
    let d := overlay x.data (a - line) l
    let through := at_ = 0 || at_ = 2
    let s := setLines (Assoc.put slot { x with data := d, dirty := !through }) (touch line (slot % 16) (countHit c s))
    (.done, if through then bufStore (line - winBase) d crcFails s else s)
  | none =>
    let s := countMiss c s
    let ways := allowedWays s c
    match s.cch.evb.find? fun e => e.line == line with
    | some e =>
      match victim s line ways with
      | some w =>
        let s := { s with cch := { s.cch with evb := s.cch.evb.filter fun e => e.line != line } }
        (.done, install line w (overlay e.data (a - line) l) true (s.bump R.cchEvbHits 1))
      | none => direct (drainTo line 33 s)
    | none =>
      match (if at_ = 1 then victim s line ways else none) with
      | none => direct s
      | some w =>
        match bufRead (reqCode who) (line - winBase) 64 crcFails s with
        | (.error r, s) => (.uncorrectable r, s)
        | (.ok d, s) => (.done, install line w (overlay d (a - line) l) true s)

/-- The line-zero instruction (R371): a line of zero bytes, allocated without reading the BUF. Where the class may
not allocate, the zero line goes to the BUF. -/
def cacheZero (who : Requester) (a : Nat) (s : State) : State :=
  let line := a - a % 64
  let z := List.replicate 64 (0 : Byte)
  match findLine s line with
  | some _ => (cacheWrite who (cacheClass who) line z 0 s).2
  | none =>
    let s := drainTo line 33 s
    match (if attrOf s line = 1 then victim s line (allowedWays s (cacheClass who)) else none) with
    | some w => install line w z true s
    | none => bufStore (line - winBase) z 0 s

/-- A line written back and left clean (R375). -/
def cleanLine (slot : Nat) (s : State) : State :=
  match Assoc.get slot s.cch.lines with
  | none => s
  | some l =>
    if !l.dirty then s
    else bufStore (slotAddr slot l - winBase) l.data 0 (setLines (Assoc.put slot { l with dirty := false }) s)

/-- The slots of the lines from an address over n lines. -/
def slotsIn (s : State) (a n : Nat) : List Nat :=
  (s.cch.lines.filter fun e => a ≤ slotAddr e.1 e.2 && slotAddr e.1 e.2 < a + 64 * n).map (·.1)

/-- Every eviction-buffer entry drains. -/
def drainAll (s : State) : State := (List.range 32).foldl (fun s _ => drainOne s) s

/-- A window extent cleaned and dropped from the cache, as before a tile opens (R370). -/
def flushRange (a n : Nat) (s : State) : State :=
  (slotsIn s a n).foldl (fun s k => setLines (Assoc.del k) (cleanLine k s)) (drainAll s)

/-- The first line and the number of lines of a range operation; ALL covers the window (R375). -/
def rangeOf (s : State) (all : Bool) : Nat × Nat :=
  if all then (winBase, s.cap / 64) else (s.rd R.cchRbaseAddr * 64, s.rd R.cchRlenLines)

/-- CCH_RCMD.GO (R376): while BUSY it changes nothing and sets ERR. DEDUCED: log 28. -/
def cchRange (op : Nat) (act : Nat → Nat → State → State) (all : Bool) (s : State) : State :=
  if s.bit R.cchRangeStatBusy then s.set1 R.cchRangeStatErr else
  let s := (s.wr R.cchRcmdOp op).wr R.cchRcmdAll (if all then 1 else 0)
  let (a, n) := rangeOf s (all && op != 3)
  act a n (s.set1 R.cchRangeStatBusy)

/-- CLEAN, INVALIDATE and CLEAN_INV over a range (R375). -/
def cchCleanAct (a n : Nat) (s : State) : State := (slotsIn s a n).foldl (fun s k => cleanLine k s) s
def cchInvAct (a n : Nat) (s : State) : State :=
  let s := { s with cch := { s.cch with evb := s.cch.evb.filter fun e => !(a ≤ e.line && e.line < a + 64 * n) } }
  (slotsIn s a n).foldl (fun s k => setLines (Assoc.del k) s) s
def cchCleanInvAct (a n : Nat) (s : State) : State :=
  (slotsIn s a n).foldl (fun s k => setLines (Assoc.del k) (cleanLine k s)) s

/-- One line loaded into a locked way of a class, or skipped (R375). An uncorrectable fill loads nothing. -/
def loadLine (cls a : Nat) (s : State) : State :=
  if (findLine s a).isSome || a < winBase || s.cap ≤ a - winBase || !s.inData (a - winBase) then s else
  let ways := (List.range 16).filter fun w => bitAt (s.rd (R.cchWaymaskMask cls)) w && bitAt (s.rd R.cchLockLock) w
  match ways.find? fun w => (Assoc.get (lineSet a * 16 + w) s.cch.lines).isNone with
  | none => s.bump R.cchRangeStatSkip 1
  | some w =>
    match s.cch.evb.find? fun e => e.line == a with
    | some e =>
      install a w e.data true { s with cch := { s.cch with evb := s.cch.evb.filter fun e => e.line != a } }
    | none =>
      match bufRead srcCch (a - winBase) 64 0 s with
      | (.error _, s) => s
      | (.ok d, s) => install a w d false s

def cchLoadAct (cls : Nat) (a n : Nat) (s : State) : State :=
  (List.range n).foldl (fun s i => loadLine cls (a + 64 * i) s) (s.wr R.cchRangeStatSkip 0)

/-- CCH_RCMD with LOAD: CLASS is the operand's. -/
def cchLoadCmd (cls : Nat) (s : State) : State :=
  cchRange 3 (cchLoadAct cls) false (if s.bit R.cchRangeStatBusy then s else s.wr R.cchRcmdClass cls)

/-- CCH_CTRL.CCLR (Table 13.6). -/
def cchCounterClear (s : State) : State :=
  ((s.forEach (List.range 8) fun c s => (s.wr (R.cchHitCount c) 0).wr (R.cchMissCount c) 0).wr R.cchEvbHits 0).wr R.cchEvbStalls 0

/-- CCH_CLEAN. -/
def execCchClean (all : Bool) (s : State) : Out := done (cchRange 0 cchCleanAct all s)
/-- CCH_INVALIDATE. -/
def execCchInvalidate (all : Bool) (s : State) : Out := done (cchRange 1 cchInvAct all s)
/-- CCH_CLEAN_INV. -/
def execCchCleanInv (all : Bool) (s : State) : Out := done (cchRange 2 cchCleanInvAct all s)
/-- CCH_LOAD. -/
def execCchLoad (cls : Fin 8) (s : State) : Out := done (cchLoadCmd cls s)

/-- CCH_RANGE_DONE (R376): BUSY clears once every write-back has reached the BUF, so the eviction buffer has drained
first. -/
def execCchRangeDone (s : State) : Out :=
  done (if s.bit R.cchRangeStatBusy then ((drainAll s).clr1 R.cchRangeStatBusy).set1 R.cchRangeStatDone else s)

/-- CCH_COUNTER_CLEAR (Table 13.6). -/
def execCchCounterClear (s : State) : Out := done (cchCounterClear s)

/-- EVICTION_WRITEBACK (R374). -/
def execEvictionWriteback (s : State) : Out := done (drainOne s)

end Sys2Proof.Machine
end

