-- ==== Sys2Proof/Machine/Buffer.lean ====
section
/-! DEFINITION. The buffer controller: tiles, seals and uses, enable and initialisation, range operations, device
failure, offline and repair (chapter 12). -/

namespace Sys2Proof.Machine

/-- The device enters the fault state (R474): FATAL on every function and in FLT. -/
def enterFaultState (s : State) : State :=
  (s.forEach allFn fun f s => s.set1 (R.fnStsFatal f)).set1 R.fltStatFatal

/-- Device d has failed (R357); with both failed the device enters the fault state (R474). -/
def failDevice (d : DevIx) (s : State) : State :=
  let s := (s.set1 (if d = 0 then R.bufStatM0Failed else R.bufStatM1Failed)).log 0x0A09 srcBuf noPos 0 d
  if s.bit R.bufStatM0Failed && s.bit R.bufStatM1Failed then enterFaultState s else s

/-- The result of a tile command. -/
def tileResult (r : Nat) (s : State) : State := s.wr R.bufTstatResult r

/-- BUF_TCMD.GO with OP and TILE (Table 12.5); ignored while BUSY, RESULT 5 out of range. -/
def tileCmd (op t : Nat) (act : SealRec → State → State) (s : State) : State :=
  if s.bit R.bufTstatBusy then s else
  let s := (s.wr R.bufTcmdOp op).wr R.bufTcmdTile t
  if !tileOk s t then tileResult 5 s else act (sealGet s t) s

/-- OPEN (R353): the tile's lines leave the cache first (R370). -/
def tileOpenAct (t : Nat) (r : SealRec) (s : State) : State :=
  if r.state != tileFree then tileResult 2 s else
  let s := flushRange (winBase + t * 65536) 1024 s
  tileResult 1 (sealPut t { seal_ := 0, fill := 0, state := tileOpen, use := r.use,
                            flags := if mirrored s (t * 65536) then 1 else 0 } s)

/-- Bytes stored in a tile by the BUF, to both copies when MIRROR is set (R352). -/
def tileStore (t off : Nat) (l : List Byte) (s : State) : State := bufStore (t * 65536 + off) l 0 s

/-- CLOSE (R353): zero bytes to the end, SEAL final, SEALED. -/
def tileCloseAct (t : Nat) (r : SealRec) (s : State) : State :=
  if r.state != tileOpen then tileResult 2 s else
  let z := List.replicate (65536 - r.fill) (0 : Byte)
  tileResult 1 (sealPut t { r with seal_ := sealFold r.seal_ z, fill := 65536, state := tileSealed }
    (tileStore t r.fill z s))

/-- FREE (R353). -/
def tileFreeAct (t : Nat) (r : SealRec) (s : State) : State :=
  if r.state == tileFree then tileResult 2 s
  else if r.use > 0 then tileResult 3 s
  else tileResult 1 (sealPut t { r with state := tileFree } s)

/-- The bytes of a tile up to n, read line by line through the lookup (R354, R370), or the first reason a line gives
none. -/
def tileBytes (who : Requester) (base : Nat) : Nat → Nat → State → Except Nat (List Byte) × State
  | 0, _, s => (.ok [], s)
  | fuel + 1, n, s =>
    if n = 0 then (.ok [], s) else
    let k := min 64 n
    match cacheRead who none base k 0 s with
    | (.error r, s) => (.error r, s)
    | (.ok l, s) =>
      match tileBytes who (base + 64) fuel (n - k) s with
      | (.error r, s) => (.error r, s)
      | (.ok t, s) => (.ok (l ++ t), s)

/-- A use of a tile (R354, R355): the bytes of the sealed extent once their seal is right, or the reason. -/
def tileCheck (who : Requester) (t : Nat) (s : State) : Except Nat (List Byte) × State :=
  let r := sealGet s t
  let o := t * 65536
  let mir := bitAt r.flags 0
  if r.state == tileBad then (.error (if mir then 0x0A02 else 0x0A03), s) else
  match tileBytes who (winBase + o) 1025 r.fill s with
  | (.error e, s) => (.error e, s)
  | (.ok l, s) =>
    if sealFold 0 l = r.seal_ then (.ok l, s) else
    let s := s.set1 R.bufStatSealerr
    let bad := fun (reason flags : Nat) (s : State) =>
      ((sealPut t { r with state := tileBad, flags := flags } s).log reason srcBuf noPos (winBase + o) (reqCode who))
    if !mir then (.error 0x0A03, bad 0x0A03 r.flags s)
    else
      let l2 := gRead s (o + s.half) r.fill
      if !devGone s 0 && !devGone s 1 && (scanWords s (o + s.half) r.fill).2.isNone && sealFold 0 l2 = r.seal_ then
        (.ok l2, (gStore o l2 s).log 0x0A01 srcBuf noPos (winBase + o) (reqCode who))
      else (.error 0x0A02, bad 0x0A02 7 s)

/-- VERIFY (R353): a use with no delivery. -/
def tileVerifyAct (t : Nat) (r : SealRec) (s : State) : State :=
  if r.state != tileOpen && r.state != tileSealed then tileResult 2 s else
  match tileCheck .buf t s with
  | (.ok _, s) => tileResult 1 s
  | (.error _, s) => tileResult 4 s

/-- The outcome of a failed use for its user (Table 12.6): in a mirrored tile a transfer or a job fails with class 3,
elsewhere the channel halts. -/
def useFailed (who : Requester) (reason : Nat) : Resp :=
  match who with
  | .comp _ => .jobHalt reason
  | _ => if reason = 0x0A03 || reason = 0x0A04 || reason = 0x0A09 then .channelHalt reason else .requestFailed reason

/-- A use that asks for bytes [first, first + count) (R354). -/
def tileUse (who : Requester) (t first count : Nat) (s : State) : State :=
  if !tileOk s t then { s with resp := .requestFailed 0x0A0D } else
  let r := sealGet s t
  if r.state != tileBad && first + count > r.fill then
    { (s.log 0x0A0D srcBuf noPos (winBase + t * 65536) (reqCode who)) with resp := .requestFailed 0x0A0D }
  else
    match tileCheck who t s with
    | (.error e, s) => haltNote who { s with resp := useFailed who e }
    | (.ok l, s) => { s with resp := .data (slice l first count) }

/-- A sealing write (R352): accepted at FILL of an OPEN tile; else nothing changes and the channel halts. A line of
the tile that the cache holds is written too and stays clean (R370). -/
def sealingWrite (who : Requester) (t off : Nat) (l : List Byte) (s : State) : Bool × State :=
  let r := sealGet s t
  if tileOk s t && r.state == tileOpen && off = r.fill && off + l.length ≤ 65536 then
    let s := tileStore t off l s
    let s := (slotsIn s (winBase + t * 65536) 1024).foldl (fun s k =>
      match Assoc.get k s.cch.lines with
      | none => s
      | some x => setLines (Assoc.put k { x with dirty := false, data := gRead s (slotAddr k x - winBase) 64 }) s) s
    (true, { sealPut t { r with seal_ := sealFold r.seal_ l, fill := r.fill + l.length } s with resp := .written })
  else
    (false, haltNote who { (s.log 0x0A07 srcBuf noPos (winBase + t * 65536 + off) (reqCode who)) with resp := .channelHalt 0x0A07 })

/-- BUF_CTRL.EN (R361): trains both interfaces; ignored while either OFF bit is 1. A device that fails training has
failed. -/
def bufEnable (ok0 ok1 : Bool) (s : State) : State :=
  if s.bit R.bufCtrlM0Off || s.bit R.bufCtrlM1Off || s.bit R.bufCtrlEn then s else
  let s := ((s.set1 R.bufCtrlEn).set1 (R.clkPllLock 3)).set1 (R.clkPllLock 4)
  let s := if rgnErr s then s.set1 R.bufStatRgnerr else s
  let s := if ok0 then s else failDevice 0 s
  if ok1 then s else failDevice 1 s

/-- Nothing listed in a range of the window, and no mark on it (R347, R360). -/
def wipe (o n : Nat) (s : State) : State :=
  unmark (winBase + o) n { s with gddr := Mem.drop s.gddr o n }

/-- BUF_INIT.GO (R360). DEDUCED: log 28. -/
def bufInit (s : State) : State :=
  if s.bit R.bufCtrlEn then (wipe 0 s.cap s).set1 R.bufStatInitBusy |>.clr1 R.bufStatReady else s

/-- Initialisation ends (R360). DEDUCED: log 28. -/
def bufInitDone (s : State) : State :=
  if s.bit R.bufStatInitBusy then (s.clr1 R.bufStatInitBusy).set1 R.bufStatReady else s

def offFld (d : DevIx) : Fld := if d = 0 then R.bufCtrlM0Off else R.bufCtrlM1Off
def offlineFld (d : DevIx) : Fld := if d = 0 then R.bufStatM0Offline else R.bufStatM1Offline
def failedFld (d : DevIx) : Fld := if d = 0 then R.bufStatM0Failed else R.bufStatM1Failed

/-- OFF bit set (R358): the device drains. DEDUCED: log 30. -/
def deviceOffline (d : DevIx) (s : State) : State := s.set1 (offFld d)

/-- The device has drained (R358). DEDUCED: log 30. -/
def offlineReached (d : DevIx) (s : State) : State := if s.bit (offFld d) then s.set1 (offlineFld d) else s

/-- OFF bit cleared (R358): the half is re-initialised. DEDUCED: log 30. -/
def deviceOnline (d : DevIx) (s : State) : State :=
  let s := s.clr1 (offFld d)
  if s.bit (offlineFld d) && !s.bit (failedFld d) then wipe (d.val * s.half) s.half s else s

/-- Mirror region n copied into device d from the other copy (R358); words that are uncorrectable there stay
unwritten. -/
def copyMirror (d : DevIx) (n : Nat) (s : State) : State :=
  if !mirOn s n then s else
  let b := mirBase s n
  let src := if d = 0 then b + s.half else b
  let dst := if d = 0 then b else b + s.half
  gCopy src dst (mirSize s n) s

/-- The mirror copy has ended (R358). DEDUCED: log 30. -/
def onlineReached (d : DevIx) (s : State) : State :=
  if s.bit (offlineFld d) && !s.bit (offFld d) && !s.bit (failedFld d) then
    ((List.range 4).foldl (fun s n => copyMirror d n s) s).clr1 (offlineFld d)
  else s

/-- BUF_PPR.GO (R358): refused with RESULT 2 unless the device is offline, has not failed and no repair runs. -/
def pprStart (d : DevIx) (hard : Bool) (loc : Nat) (s : State) : State :=
  let s := ((s.wr R.bufPprDev d).wr R.bufPprHard (if hard then 1 else 0)).wr R.bufPprLoc loc
  if s.bit (offlineFld d) && !s.bit (failedFld d) && !s.bit R.bufStatPprBusy then
    (s.set1 R.bufStatPprBusy).wr R.bufPprstatResult 0
  else s.wr R.bufPprstatResult 2

/-- The repair ends (R358). -/
def pprDone (ok : Bool) (s : State) : State :=
  if !s.bit R.bufStatPprBusy then s else
  let s := s.clr1 R.bufStatPprBusy
  if ok then s.wr R.bufPprstatResult 1
  else (s.wr R.bufPprstatResult 3).log 0x0A0A srcBuf noPos 0 (s.rd R.bufPprLoc)

/-- BUF_RCMD.GO (R362): ignored while an operation runs; no lines run nothing. DEDUCED: log 28. -/
def bufRange (op : Nat) (act : Nat → State → State) (s : State) : State :=
  if s.bit R.bufStatRangeBusy then s else
  let s := s.wr R.bufRcmdOp op
  let n := s.rd R.bufRlenLines
  if n = 0 then s else
  let a := s.rd R.bufRbaseAddr * 64
  ((List.range n).foldl (fun s i =>
    let o := a + 64 * i - winBase
    if winBase ≤ a + 64 * i && s.inData o then
      let s := act o s
      if s.devOf o = 0 && mirrored s o then act (o + s.half) s else s
    else s) s).set1 R.bufStatRangeBusy

/-- VCLR, POISON and SCRUB of one line of one copy (R362). -/
def vclrLine (o : Nat) (s : State) : State := if classV s o then wipe o 64 s else s
def poisonLine (o : Nat) (s : State) : State := if classV s o then s else gPoison o 64 s
def scrubLine (o : Nat) (s : State) : State :=
  { s with marks := s.marks.filter fun e => !(winBase + o ≤ e.1 && e.1 < winBase + o + 64 && e.2 == 1) }

/-- The retraining of a device's interface, while it lasts (R356). -/
def retraining (s : State) (d : Nat) : Bool := if d = 0 then s.buf.retrain0 else s.buf.retrain1
def endRetrain (d : DevIx) (s : State) : State :=
  { s with buf := if d = 0 then { s.buf with retrain0 := false } else { s.buf with retrain1 := false } }

/-- TILE_OPEN. -/
def execTileOpen (t : Nat) (s : State) : Out := done (tileCmd 1 t (tileOpenAct t) s)
/-- TILE_CLOSE. -/
def execTileClose (t : Nat) (s : State) : Out := done (tileCmd 2 t (tileCloseAct t) s)
/-- TILE_FREE. -/
def execTileFree (t : Nat) (s : State) : Out := done (tileCmd 3 t (tileFreeAct t) s)
/-- TILE_VERIFY. -/
def execTileVerify (t : Nat) (upsets : List Upset) (s : State) : Out :=
  done (tileCmd 4 t (tileVerifyAct t) (applyUpsets upsets s))
/-- TILE_USE. -/
def execTileUse (who : Requester) (t first count : Nat) (upsets : List Upset) (s : State) : Out :=
  done (tileUse who t first count (applyUpsets upsets s))
/-- BUF_ENABLE. -/
def execBufEnable (ok0 ok1 : Bool) (s : State) : Out := done (bufEnable ok0 ok1 s)
/-- BUF_INIT. -/
def execBufInit (s : State) : Out := done (bufInit s)
/-- BUF_INIT_DONE. -/
def execBufInitDone (s : State) : Out := done (bufInitDone s)
/-- DEVICE_OFFLINE. -/
def execDeviceOffline (d : DevIx) (s : State) : Out := done (deviceOffline d s)
/-- OFFLINE_REACHED. -/
def execOfflineReached (d : DevIx) (s : State) : Out := done (offlineReached d s)
/-- DEVICE_ONLINE. -/
def execDeviceOnline (d : DevIx) (s : State) : Out := done (deviceOnline d s)
/-- ONLINE_REACHED. -/
def execOnlineReached (d : DevIx) (s : State) : Out := done (onlineReached d s)
/-- PPR_START. -/
def execPprStart (d : DevIx) (hard : Bool) (loc : Nat) (s : State) : Out := done (pprStart d hard loc s)
/-- PPR_DONE. -/
def execPprDone (ok : Bool) (s : State) : Out := done (pprDone ok s)
/-- VCLR. -/
def execVclr (s : State) : Out := done (bufRange 0 vclrLine s)
/-- POISON. -/
def execPoison (s : State) : Out := done (bufRange 1 poisonLine s)
/-- SCRUB. -/
def execScrub (s : State) : Out := done (bufRange 2 scrubLine s)
/-- BUF_RANGE_DONE. -/
def execBufRangeDone (s : State) : Out := done (s.clr1 R.bufStatRangeBusy)
/-- RETRAIN_COMPLETE (R356): the waiting accesses proceed. -/
def execRetrainComplete (d : DevIx) (s : State) : Out := done (endRetrain d s)
/-- DEVICE_FAILED (R356, R357): a retraining that fails. -/
def execDeviceFailed (d : DevIx) (s : State) : Out :=
  done (if retraining s d then failDevice d (endRetrain d s) else s)

end Sys2Proof.Machine
end

