-- ==== Sys2Proof/Machine/Flags.lean ====
section
/-! DEFINITION. Flags. The block has no arithmetic flags: its status bits are register fields, set and cleared by the
command whose rule names them. Commands run one after another, so the cycle of R5, in which hardware sets a bit that
software clears, does not occur within one. -/

namespace Sys2Proof.Machine

/-- A sticky bit set where a condition holds. -/
def setIf (b : Bool) (f : Fld) (s : State) : State := if b then s.set1 f else s

end Sys2Proof.Machine
end

