-- ==== Sys2Proof/Machine/Servo.lean ====
section
/-! DEFINITION. The servo engine of a position (chapter 5): loops, set-points, modes, jumps, twin lanes, and the
common tick. -/

namespace Sys2Proof.Machine

/-- Loop modes (Table 5.3). -/
def loopOff : Nat := 0
def loopHold : Nat := 1
def loopOpen : Nat := 2
def loopClosed : Nat := 3
def loopFail : Nat := 4

/-- Loop index l = 8 * kind + s (R143). -/
def focusOf (s : Fin 8) : Fin 24 := ⟨s.val, by omega⟩
def trackOf (s : Fin 8) : Fin 24 := ⟨8 + s.val, by omega⟩
def tiltOf (s : Fin 8) : Fin 24 := ⟨16 + s.val, by omega⟩

def allLoops : List (Fin 24) := List.finRange 24
def allSurfs : List (Fin 8) := List.finRange 8

/-- The state with loop l, or surface s, of position p changed by g. -/
def State.updLoop (s : State) (p : PosIx) (l : Fin 24) (g : LoopState → LoopState) : State :=
  s.updSrv p fun v => { v with loops := v.loops.set l (g v.loops[l]) }
def State.updSurf (s : State) (p : PosIx) (f : Fin 8) (g : SurfState → SurfState) : State :=
  s.updSrv p fun v => { v with surfs := v.surfs.set f (g v.surfs[f]) }

def State.loopAt (s : State) (p : PosIx) (l : Fin 24) : LoopState := s.pos[p].srv.loops[l]
def State.surfAt (s : State) (p : PosIx) (f : Fin 8) : SurfState := s.pos[p].srv.surfs[f]

/-- The product of a Q2.30 coefficient and a data word, rounded to the nearest unit, ties toward +∞ (R146). -/
def mulq (a b : Int) : Int := (a * b + 536870912) / 1073741824

/-- Saturation to n bits, and whether it clipped (R147). -/
def satTo (n : Nat) (x : Int) : Int × Bool :=
  let y := clampI (-(2 ^ (n - 1) : Nat)) ((2 ^ (n - 1) : Nat) - 1) x
  (y, y != x)

/-- What a closed loop computes with: integrator gain and limit, sections in use with the five coefficients of each,
applied gain, shift and output limits. -/
structure LoopParams where
  ki : Int
  ilim : Int
  coefs : List (List Int)
  gain : Int
  shift : Nat
  outMax : Int
  outMin : Int
  deriving DecidableEq, Repr

/-- What a run of a closed loop gives: its core, the error, the drive code and the three flags of R147. -/
structure LoopResult where
  core : LoopCore
  err : Int
  code : Int
  satAcc : Bool
  satInt : Bool
  satOut : Bool
  deriving DecidableEq, Repr

/-- One section of R148: the output, the new history, and whether a value clipped. -/
def section_ (c : List Int) (h : Sec) (v : Int) : Int × Sec × Bool :=
  let (a, f1) := satTo 48 (mulq (nth 0 c 0) v + mulq (nth 0 c 1) h.x1 + mulq (nth 0 c 2) h.x2
                          - mulq (nth 0 c 3) h.y1 - mulq (nth 0 c 4) h.y2)
  let (y, f2) := satTo 32 a
  (y, { x1 := v, x2 := h.x1, y1 := y, y2 := h.y1 }, f1 || f2)

/-- The chain of sections in use; sections beyond them keep their history. -/
def sections : List (List Int) → List Sec → Int → Int × List Sec × Bool
  | [], hs, v => (v, hs, false)
  | _, [], v => (v, [], false)
  | c :: cs, h :: hs, v =>
    let (y, h', f) := section_ c h v
    let (z, hs', g) := sections cs hs y
    (z, h' :: hs', f || g)

/-- The sign of a number. -/
def signOf (x : Int) : Int := if x > 0 then 1 else if x < 0 then -1 else 0

/-- A loop in mode CLOSED computes from the sample and the set-point (R148). DEDUCED: log 80. -/
def loopCompute (k : LoopParams) (c : LoopCore) (smp sp : Int) : LoopResult :=
  let (e, f0) := satTo 32 (smp * 65536 - sp * 65536)
  let skip := c.clamped == some (signOf e)
  let integ := if skip then c.integ else clampI (-k.ilim) k.ilim (c.integ + mulq k.ki e)
  let (v, hs, f1) := sections k.coefs c.secs e
  let (w, f2) := satTo 48 (v + integ)
  let (u, f3) := satTo 48 (mulq k.gain w * (2 ^ k.shift : Nat))
  let raw := (u + 32768) / 65536
  let code := clampI k.outMin k.outMax raw
  { core := { integ := integ, secs := hs,
              clamped := if raw > k.outMax then some 1 else if raw < k.outMin then some (-1) else none },
    err := e, code := code, satAcc := f0 || f1 || f2 || f3,
    satInt := !skip && (integ == k.ilim || integ == -k.ilim), satOut := code != raw }

/-- The parameters of loop l in its registers; NBQ above 6 acts as 6, the bank in force selects the coefficients. -/
def loopParams (s : State) (p : PosIx) (l : Fin 24) : LoopParams :=
  let b := (s.loopAt p l).bank
  { ki := s.rdI (R.loopKiKi p l), ilim := s.rd (R.loopIlimIlim p l),
    coefs := (List.range (min 6 (s.rd (R.loopCtrlNbq p l)))).map fun n =>
      (List.range 5).map fun j => s.rdI (R.loopCoefCoef p l b n j),
    gain := s.rdI (R.loopGainaApplied p l), shift := s.rd (R.loopCtrlShift p l),
    outMax := s.rdI (R.loopOutlimOutMax p l), outMin := s.rdI (R.loopOutlimOutMin p l) }

/-- The applied gain after one run: toward the target by at most 2^-17 of itself, at least one code (R150). DEDUCED: log 80. -/
def gainStep (applied target : Int) : Int :=
  let d : Int := max 1 ((applied.natAbs / 131072 : Nat) : Int)
  if applied < target then min target (applied + d) else if target < applied then max target (applied - d) else applied

/-- The drive code of loop l clamped to its output limits (Table 5.3). -/
def clampOut (s : State) (p : PosIx) (l : Fin 24) (c : Int) : Int :=
  clampI (s.rdI (R.loopOutlimOutMin p l)) (s.rdI (R.loopOutlimOutMax p l)) c

/-- Loop l enters a mode, from a boundary: OFF and OPEN zero its state, CLOSED from OFF or OPEN starts zeroed, from
HOLD resumes, HOLD and FAIL freeze (Table 5.3). No mode, sequence or disable takes a loop out of FAIL, and a failure
that waits for the boundary stays (R165). -/
def enterMode (p : PosIx) (l : Fin 24) (m : Nat) (s : State) : State :=
  let old := (s.loopAt p l).mode
  if old == loopFail then s else
  let zero := m == loopOff || m == loopOpen || (m == loopClosed && (old == loopOff || old == loopOpen))
  let s := (s.wr (R.loopCtrlMode p l) m).updLoop p l fun x =>
    { x with mode := m, pendMode := if m != loopFail && x.pendMode == some loopFail then x.pendMode else none, core := if zero then .zero else x.core,
             check := if zero then .zero else x.check }
  if zero then s.wr (R.loopIntInteg p l) 0 else s

/-- The focus loop of surface f goes to OPEN with DRIVE set to PARK (R156, R158). -/
def focusPark (p : PosIx) (f : Fin 8) (s : State) : State :=
  enterMode p (focusOf f) loopOpen (s.wr (R.loopOpenDrive p (focusOf f)) (s.rd (R.loopOpenPark p (focusOf f))))

/-- The sequence of surface f ends with a result (JMP_STAT). -/
def jumpEnd (p : PosIx) (f : Fin 8) (result : Nat) (s : State) : State :=
  ((s.clr1 (R.jmpStatBusy p f)).wr (R.jmpStatResult p f) result).updSurf p f fun x =>
    { x with jump := none, abortNext := false, goNext := false }

/-- Abort: result 5, and the loops the sequencer took over enter HOLD (R158). -/
def jumpAbortNow (p : PosIx) (f : Fin 8) (s : State) : State :=
  jumpEnd p f 5 (enterMode p (trackOf f) loopHold (enterMode p (focusOf f) loopHold s))

/-- Whether loop l belongs to a running sequence. -/
def inJump (s : State) (p : PosIx) (l : Fin 24) : Bool :=
  l.val < 16 && (s.surfAt p ⟨l.val % 8, by omega⟩).jump.isSome

/-- The drive code a running sequence opens focus or tracking with, none where it leaves the loop's own drive. -/
def jumpDrive (s : State) (p : PosIx) (l : Fin 24) : Option Int :=
  match (s.surfAt p ⟨l.val % 8, by omega⟩).jump with
  | some j =>
    if (l.val < 8 && (j.kind == 0 || (j.kind == 1 && j.phase != .land))) ||
       (8 ≤ l.val && l.val < 16 && j.kind == 2 && j.phase != .land) then some j.drive else none
  | none => none

/-- A kick in the sequence's direction: positive for DIR 0. DEDUCED: log 82. -/
def kickOf (s : State) (p : PosIx) (f : Fin 8) (inward : Bool) : Int :=
  if inward then -(s.rd (R.jmpCfgKick p f) : Int) else s.rd (R.jmpCfgKick p f)

/-- A loop that the kind of surface f's sequence requires is in FAIL (R157). -/
def jumpFailed (s : State) (p : PosIx) (f : Fin 8) : Bool :=
  let kind := s.rd (R.jmpCtrlKind p f)
  (kind ≤ 1 && (s.loopAt p (focusOf f)).mode == loopFail) || (kind != 0 && (s.loopAt p (trackOf f)).mode == loopFail)

/-- The kinds, counts and loops a start needs (R157, Table 5.4). -/
def jumpRefused (s : State) (p : PosIx) (f : Fin 8) : Bool :=
  let kind := s.rd (R.jmpCtrlKind p f)
  let n := s.rd (R.jmpCtrlCount p f)
  bitAt s.pos[p].gates f || s.bit (R.jmpStatBusy p f) || (s.surfAt p f).goNext || kind > 3 || jumpFailed s p f ||
  (kind == 1 && (n < 1 || n > 15)) || (kind == 2 && (n < 1 || n > 64))

/-- JMP_CTRL.GO or a bit of SRV_JMPGO: a start at the next boundary, or RESULT 4 (R157). -/
def jumpGo (p : PosIx) (f : Fin 8) (s : State) : State :=
  if jumpRefused s p f then s.wr (R.jmpStatResult p f) 4 else s.updSurf p f fun x => { x with goNext := true }

/-- A pending start takes effect at the boundary (R157); a loop that has entered FAIL since refuses it. -/
def jumpStart (p : PosIx) (f : Fin 8) (s : State) : State :=
  if jumpFailed s p f then (s.wr (R.jmpStatResult p f) 4).updSurf p f fun x => { x with goNext := false } else
  let kind := s.rd (R.jmpCtrlKind p f)
  let inward := s.bit (R.jmpCtrlDir p f)
  let tilt := (s.loopAt p (tiltOf f)).mode
  let s := (((s.set1 (R.jmpStatBusy p f)).wr (R.jmpStatResult p f) 0).wr (R.jmpStatCross p f) 0).wr
    (R.jmpStatElapsed p f) 0
  let j : Jump := { kind := kind, phase := if kind == 0 then .sweep else if kind == 3 then .land else .kick,
                    inward := inward, ticks := 0, left := s.rd (R.jmpCtrlCount p f),
                    drive := if kind == 0 then s.rdI (R.loopOpenPark p (focusOf f)) else kickOf s p f inward,
                    sinceLand := none, tilt := tilt, begun := false, peak := 0 }
  let s := s.updSurf p f fun x => { x with goNext := false, jump := some j }
  if kind == 0 then enterMode p (focusOf f) loopOpen s
  else if kind == 1 then
    enterMode p (tiltOf f) loopHold (enterMode p (trackOf f) loopHold (enterMode p (focusOf f) loopOpen s))
  else if kind == 2 then enterMode p (trackOf f) loopOpen s
  else s

/-- A sign change between two samples: rising, and falling. DEDUCED: log 82. -/
def rising (a b : Int) : Bool := a < 0 && b ≥ 0
/-- DEDUCED: log 82. -/
def falling (a b : Int) : Bool := a > 0 && b ≤ 0

/-- One tick of the running sequence of surface f, with this tick's sample and the one before (Table 5.4, R158). The tick of
its start gives the first drive code and looks at no crossing. An S-curve counts by the highest SUM seen on its way to the
crossing; a coasting loop is driven with 0, and a landing track jump with LOOP_OPEN.DRIVE. DEDUCED: log 82. -/
def jumpTick (p : PosIx) (f : Fin 8) (s : State) : State :=
  match (s.surfAt p f).jump with
  | none => s
  | some j =>
    let a := (s.surfAt p f).prev
    let b := (s.surfAt p f).last
    let put := fun (j : Jump) (s : State) => s.updSurf p f fun x => { x with jump := some j }
    if !j.begun then put { j with begun := true } s else
    let cross := rising a.fe b.fe || falling a.fe b.fe
    let peak := max j.peak b.sum
    let seen := b.sum ≥ s.rd (R.jmpTmoSumMin p f) && cross
    let s := s.bump (R.jmpStatElapsed p f) 1
    let j1 := { j with ticks := j.ticks + 1, peak := if cross then 0 else peak }
    match j.phase with
    | .sweep =>
      if cross && peak ≥ s.rd (R.jmpTmoSumMin p f) then
        (jumpEnd p f 1 (enterMode p (focusOf f) loopClosed (s.bump (R.jmpStatCross p f) 1))).updSurf p f fun x => { x with layer := 0 }
      else
        let fin := s.rdI (R.jmpSweepEnd p f)
        let rate : Int := s.rd (R.jmpSweepRate p f)
        if j.drive == fin then jumpEnd p f 2 (focusPark p f s)
        else put { j1 with drive := if j.drive < fin then min fin (j.drive + rate) else max fin (j.drive - rate) } s
    | .kick =>
      let j2 := if j1.ticks ≥ s.rd (R.jmpCfgKickT p f) then { j1 with phase := .coast, ticks := 0, drive := 0 } else j1
      if j.kind == 2 && (if j.inward then rising a.te b.te else falling a.te b.te) then
        let s := s.bump (R.jmpStatCross p f) 1
        if j.left ≤ 1 then put { j with phase := .brake, ticks := 0, left := 0, drive := -(kickOf s p f j.inward) } s
        else put { j2 with left := j.left - 1 } s
      else put j2 s
    | .coast =>
      if j.kind == 1 then
        if seen then put { j with phase := .brake, ticks := 0, drive := -(kickOf s p f j.inward) }
          (s.bump (R.jmpStatCross p f) 1)
        else if j1.ticks ≥ s.rd (R.jmpCfgKickT p f) + 4 * s.rd (R.jmpCfgBrakeT p f) then jumpEnd p f 3 (focusPark p f s)
        else put j1 s
      else if (if j.inward then rising a.te b.te else falling a.te b.te) then
        let s := s.bump (R.jmpStatCross p f) 1
        if j.left ≤ 1 then put { j with phase := .brake, ticks := 0, left := 0, drive := -(kickOf s p f j.inward) } s
        else put { j1 with left := j.left - 1 } s
      else put j1 s
    | .brake =>
      if j1.ticks < s.rd (R.jmpCfgBrakeT p f) then put j1 s
      else if j.kind == 2 then put { j1 with phase := .land, ticks := 0, drive := 0 } s
      else
        let s := enterMode p (tiltOf f) j.tilt (enterMode p (focusOf f) loopClosed s)
        let s := s.updSurf p f fun x => { x with layer := if j.inward then x.layer - 1 else min 15 (x.layer + 1) }
        if j.left ≤ 1 then put { j1 with kind := 3, phase := .land, ticks := 0, left := 0, sinceLand := none } s
        else
          let s := (s.wr (R.jmpStatElapsed p f) 0)
          put { j1 with phase := .kick, ticks := 0, left := j.left - 1, drive := kickOf s p f j.inward }
            (enterMode p (tiltOf f) loopHold (enterMode p (focusOf f) loopOpen s))
    | .land =>
      let land := if j.kind == 2 && j.inward then falling a.te b.te else rising a.te b.te
      if j.kind == 2 then
        if land then jumpEnd p f 1 (enterMode p (trackOf f) loopClosed s) else put j1 s
      else if !s.bit (R.carStatSettled p) then put { j1 with sinceLand := none } s
      else if land then
        match j.sinceLand with
        | some n =>
          if n + 1 ≥ s.rd (R.jmpSweepRate p f) then jumpEnd p f 1 (enterMode p (trackOf f) loopClosed s)
          else put { j1 with sinceLand := some 0 } s
        | none => put { j1 with sinceLand := some 0 } s
      else put { j1 with sinceLand := j.sinceLand.map (· + 1) } s

/-- The samples of tick k for surface f: valid ones from the slot, held ones otherwise (R154). -/
def takeSample (p : PosIx) (f : Fin 8) (s : State) : State :=
  let old := (s.surfAt p f).last
  let (new, held) : Sample × Nat :=
    match s.pos[p].srv.slot with
    | none => (old, 0xF)
    | some c =>
      let x := nth Sample.zero c.samples f
      let v := fun j => bitAt c.valid (4 * f.val + j)
      ({ fe := if v 0 then x.fe else old.fe, te := if v 1 then x.te else old.te, tlt := if v 2 then x.tlt else old.tlt,
         sum := if v 3 then x.sum else old.sum },
       (if v 0 then 0 else 1) + (if v 1 then 0 else 2) + (if v 2 then 0 else 4) + (if v 3 then 0 else 8))
  let s := s.updSurf p f fun x =>
    { x with prev := old, last := new, tltSum := x.tltSum + new.tlt, tltCount := x.tltCount + 1 }
  let s := if held == 0 then s.clrBitOf (R.srvStatHeld p) f else s.setBitOf (R.srvStatHeld p) f
  setIf (bitAt held 2) (R.loopFlagsHeld p (tiltOf f))
    (setIf (bitAt held 1) (R.loopFlagsHeld p (trackOf f)) (setIf (bitAt held 0) (R.loopFlagsHeld p (focusOf f)) s))

/-- The sample and the latched set-point a loop computes with; the tilt loop takes the mean since it last ran, halves
up (R148). -/
def loopInput (s : State) (p : PosIx) (l : Fin 24) : Int × Int :=
  let x := s.surfAt p ⟨l.val % 8, by omega⟩
  if l.val < 8 then (x.last.fe, x.spFocus)
  else if l.val < 16 then (x.last.te, x.spTrack)
  else (if x.tltCount == 0 then x.last.tlt else roundHalfUp x.tltSum x.tltCount, x.spTilt)

/-- The correct result of a run of loop l at this tick: its core, error, next drive code and flags (Table 5.3). DEDUCED: log 80. -/
def loopRun (s : State) (p : PosIx) (l : Fin 24) : LoopResult :=
  let x := s.loopAt p l
  let keep : Int → LoopResult := fun c =>
    { core := x.core, err := s.rdI (R.loopLastErr p l), code := c, satAcc := false, satInt := false, satOut := false }
  if x.mode == loopOff then { keep 0 with core := .zero }
  else if x.mode == loopHold then keep (s.rdI (R.loopLastCode p l))
  else if x.mode == loopOpen then
    let d := (jumpDrive s p l).getD (s.rdI (R.loopOpenDrive p l))
    { keep (clampOut s p l d) with core := .zero, satOut := clampOut s p l d != d }
  else if x.mode == loopFail then
    keep (if l.val < 8 then s.rdI (R.loopOpenPark p l) else if l.val < 16 then 0 else s.rdI (R.loopLastCode p l))
  else
    let (smp, sp) := loopInput s p l
    loopCompute (loopParams s p l) x.core smp sp

/-- A loop that agreed takes its result (R162, R163). -/
def loopAccept (p : PosIx) (l : Fin 24) (r : LoopResult) (s : State) : State :=
  let s := setIf r.satOut (R.loopFlagsSatOut p l)
    (setIf r.satInt (R.loopFlagsSatInt p l) (setIf r.satAcc (R.loopFlagsSatAcc p l) s))
  ((s.wrI (R.loopLastErr p l) r.err).wrI (R.loopIntInteg p l) r.core.integ).updLoop p l fun x =>
    { x with core := r.core, check := r.core, next := r.code, disagree := 0, mismatched := false }

/-- The first free spare lane of the shared array (R163). DEDUCED: log 96. -/
def freeSpare (s : State) : Option (Fin 2) :=
  if s.spares[0] == .free then some 0 else if s.spares[1] == .free then some 1 else none

/-- A free spare joins position p (R163, R164). -/
def joinSpare (p : PosIx) (s : State) : State :=
  match s.pos[p].srv.spare, freeSpare s with
  | none, some i =>
    ({ (s.updSrv p fun v => { v with spare := some i, votes := 0 }) with spares := s.spares.set i (.joined p) }.set1
      (R.srvStatSpare p)).set1 (R.srvLaneSpare p)
  | _, _ => s

/-- The joined spare no longer takes part: the registers and the engine's own record. -/
def spareOut (p : PosIx) (s : State) : State :=
  ((s.updSrv p fun v => { v with spare := none, votes := 0 }).clr1 (R.srvStatSpare p)).clr1 (R.srvLaneSpare p)

/-- A fence is logged (R164); the spec gives it no reason code. -/
def logFence (p : PosIx) (lane : Nat) (s : State) : State :=
  s.log Config.fenceReason.toNat (srcSrv p) p 0 lane

/-- A loop disagrees at this tick (R163): the code applied now stays, mismatch snuff rises, MISM counts, the loop
goes back to its checkpoint; without a spare the fourth disagreement in a row fails the servo (R165). DEDUCED: log 81. -/
def loopDisagree (p : PosIx) (l : Fin 24) (voted : Bool) (s : State) : State :=
  let n := (s.loopAt p l).disagree + 1
  let s := raiseSnuff p 4 (((s.set1 (R.loopFlagsMism p l)).bump (R.srvMismCount p) 1).wr (R.srvMismLoop p) l)
  let s := s.updLoop p l fun x =>
    { x with core := x.check, next := s.rdI (R.loopLastCode p l), disagree := n, mismatched := true }
  let s := if inJump s p l then jumpAbortNow p ⟨l.val % 8, by omega⟩ s else s
  let s := if voted || (s.pos[p].srv.spare.isNone && (freeSpare s).isNone && n ≥ 4) then
    s.updSrv p fun v => { v with failDue := true } else s
  if voted then s else joinSpare p s

/-- The loops due at tick k (R143). -/
def loopDue (k : Nat) (l : Fin 24) : Bool := l.val < 16 || k % 16 == 2 * (l.val - 16) % 16

/-- A strike of the lane in a place (R164): the places are A, B and the spare. DEDUCED: log 81. -/
def strike (p : PosIx) (place : Nat) (k : Nat) (s : State) : State :=
  let keep := fun (t : List Nat) => (k :: t).filter fun x => k < x + 65536
  s.updSrv p fun v => match place with
    | 0 => { v with strikeA := keep v.strikeA }
    | 1 => { v with strikeB := keep v.strikeB }
    | _ => { v with strikeS := keep v.strikeS }

/-- The strike counts shown in SRV_LANE. -/
def showStrikes (p : PosIx) (s : State) : State :=
  let v := s.pos[p].srv
  ((s.wr (R.srvLaneStrikeA p) v.strikeA.length).wr (R.srvLaneStrikeB p) v.strikeB.length).wr
    (R.srvLaneStrikeS p) v.strikeS.length

/-- Fences after two strikes (R164): a fenced working lane is replaced by the spare, a fenced spare is released and
the other spare joins if it is free. DEDUCED: log 81. -/
def fenceLanes (p : PosIx) (s : State) : State :=
  match s.pos[p].srv.spare with
  | none => s
  | some i =>
    let v := s.pos[p].srv
    if v.strikeS.length ≥ 2 then
      let s := spareOut p (logFence p 2 { s with spares := s.spares.set i .fenced })
      showStrikes p (joinSpare p (s.updSrv p fun v => { v with strikeS := [] }))
    else if v.strikeA.length ≥ 2 || v.strikeB.length ≥ 2 then
      let inB := !(v.strikeA.length ≥ 2)
      let s := { s with spares := s.spares.map fun x => if x == SpareLane.working p inB then SpareLane.fenced else x }
      let s := logFence p (if inB then 1 else 0)
        (s.set1 (if inB then R.srvLaneFenceB p else R.srvLaneFenceA p))
      let s := spareOut p { s with spares := s.spares.set i (.working p inB) }
      showStrikes p (s.updSrv p fun v =>
        if inB then { v with strikeB := v.strikeS, strikeS := [] } else { v with strikeA := v.strikeS, strikeS := [] })
    else s

/-- The one lane of a vote that dissents: 0 A, 1 B, 2 the spare (R164). -/
def loneLane (wrong : Bool × Bool × Bool) : Option Nat :=
  match wrong with
  | (true, false, false) => some 0
  | (false, true, false) => some 1
  | (false, false, true) => some 2
  | _ => none

/-- The strikes of tick k: one for each lane that dissents on any loop due (R164). -/
def strikeTick (p : PosIx) (k : Nat) (wrong : Nat → Bool × Bool × Bool) (s : State) : State :=
  s.forEach [0, 1, 2] fun place s =>
    if allLoops.any fun l => loopDue k l && loneLane (wrong l) == some place then strike p place k s else s

/-- Loop l runs at tick k on the lanes taking part, the spare among them where it joined before this tick. `wrong` says
which lanes gave another result than the right one; two wrong lanes are taken to differ from each other too (R163 to
R165). -/
def loopTick (p : PosIx) (k : Nat) (joined : Bool) (wrong : Bool × Bool × Bool) (l : Fin 24)
    (s : State) : State :=
  if !loopDue k l then s else
  let s := s.wrI (R.loopGainaApplied p l) (gainStep (s.rdI (R.loopGainaApplied p l)) (s.rdI (R.loopGainGain p l)))
  let r := loopRun s p l
  let (a, b, c) := wrong
  let s :=
    if joined then
      if !(a || b || c) || (loneLane wrong).isSome then loopAccept p l r s else loopDisagree p l true s
    else if a || b then loopDisagree p l false s
    else loopAccept p l r s
  if l.val < 16 then s
  else s.updSurf p ⟨l.val % 8, by omega⟩ fun x => { x with tltSum := 0, tltCount := 0 }

/-- Period and periods of the injection (Table 8.12). -/
def injPeriod (s : State) : Nat := max 8 (s.rd R.calInjpPeriod)
def injNper (s : State) : Nat := max 1 (s.rd R.calInjpNper)

/-- The drive code of a loop with the injection added, within the loop's output limits (R225). DEDUCED: log 80. -/
def injected (s : State) (p : PosIx) (l : Fin 24) (code : Int) : Int :=
  if s.bit R.calInjEn && s.rd R.calInjPos == p.val && s.rd R.calInjLoop == l.val then
    clampOut s p l (code + Config.sinTimes (s.rd R.calInjAmp) s.cal.tick (injPeriod s))
  else code

/-- Sums of the injection after the loops of a tick have run, and its end when a write gate has opened (R225). DEDUCED: log 91. -/
def injectTick (p : PosIx) (s : State) : State :=
  if !(s.bit R.calInjEn && s.rd R.calInjPos == p.val) then s
  else if s.cal.abortDue then
    { (s.clr1 R.calInjEn).set1 R.calInjsAborted with cal := { s.cal with abortDue := false } }
  else if s.rd R.calInjsCount ≥ injNper s then s
  else
    let l : Fin 24 := ⟨s.rd R.calInjLoop % 24, by omega⟩
    let k := s.cal.tick
    let n := injPeriod s
    let e := s.rdI (R.loopLastErr p l)
    let u := (s.loopAt p l).next
    let add := fun (f : Fld) (x : Int) (s : State) => s.wrI f (s.rdI f + x)
    let s := add R.calInjeEi (Config.sinTimes e k n) (add R.calInjeEq (Config.cosTimes e k n)
      (add R.calInjuUi (Config.sinTimes u k n) (add R.calInjuUq (Config.cosTimes u k n) s)))
    let s := if (k + 1) % n = 0 then s.bump R.calInjsCount 1 else s
    { s with cal := { s.cal with tick := k + 1 } }

/-- The bank and a waiting gain copy of loop l take effect at the boundary, whether or not the loops run (R149, R150). -/
def loopLatch (p : PosIx) (l : Fin 24) (s : State) : State :=
  let s := s.updLoop p l fun x => { x with bank := s.rd (R.loopCtrlBank p l) }
  if (s.loopAt p l).gainNow then
    (s.wr (R.loopGainaApplied p l) (s.rd (R.loopGainGain p l))).updLoop p l fun x => { x with gainNow := false }
  else s

/-- The PF8 applies the codes it received for this boundary, and holds its last ones where none came (R144, R154). -/
def pf8Boundary (p : PosIx) (s : State) : State :=
  s.updPf8 p fun f => { f with held := f.nextCodes.getD f.held, nextCodes := none }

/-- The drive codes that the controller sends for the next boundary, pickup-major focus, tracking and tilt (R144, R248). -/
def driveCodes (s : State) (p : PosIx) : List Int :=
  allSurfs.flatMap fun f => [focusOf f, trackOf f, tiltOf f].map fun l => injected s p l (s.loopAt p l).next

/-- What each boundary does first to loop l: the code computed last is applied, waiting writes take effect (R145,
R149, R150, R153). DEDUCED: log 79. -/
def loopBoundary (p : PosIx) (l : Fin 24) (s : State) : State :=
  let s := loopLatch p l (s.wrI (R.loopLastCode p l) (injected s p l (s.loopAt p l).next))
  match (s.loopAt p l).pendMode with
  | none => s
  | some m => enterMode p l m s

/-- What each boundary does to surface f: set-points latch (R151), an abort or a start acts (R157, R158). An abort that
finds no running sequence, be it given between GO and this boundary, ends nothing, and the start takes effect (DESIGN
CHOICE: log 82). DEDUCED: log 79. -/
def surfBoundary (p : PosIx) (f : Fin 8) (s : State) : State :=
  let s := s.updSurf p f fun x =>
    { x with spFocus := s.rdI (R.srvSpFocus p f), spTrack := s.rdI (R.srvSpTrack p f), spTilt := s.rdI (R.srvSpTilt p f) }
  let s := if (s.surfAt p f).abortNext then
      if (s.surfAt p f).jump.isSome then jumpAbortNow p f s else s.updSurf p f fun x => { x with abortNext := false }
    else s
  if (s.surfAt p f).goNext then jumpStart p f s else s

/-- |TE - offset| or |FE - offset| beyond its limit, for a closed loop outside a sequence (R166). -/
def beyondLimit (s : State) (p : PosIx) (f : Fin 8) : Bool × Bool :=
  let x := s.surfAt p f
  let free := x.jump.isNone
  (free && (s.loopAt p (trackOf f)).mode == loopClosed &&
      (x.last.te - x.spTrack).natAbs > min 0x4000 (s.rd (R.srvLimOfftrk p)),
   free && (s.loopAt p (focusOf f)).mode == loopClosed &&
      (x.last.fe - x.spFocus).natAbs > min 0x2000 (s.rd (R.srvLimFoclim p)))

/-- Consecutive ticks of surface f with SUM below SUM_MIN while focus is CLOSED (R156). -/
def countLowSum (p : PosIx) (f : Fin 8) (s : State) : State :=
  let x := s.surfAt p f
  let low := (s.loopAt p (focusOf f)).mode == loopClosed && x.last.sum < s.rd (R.jmpTmoSumMin p f)
  s.updSurf p f fun x => { x with lowSum := if low then x.lowSum + 1 else 0 }

/-- The tracking codes applied by closed tracking loops, summed for the centring term (R160). -/
def sumCentre (p : PosIx) (f : Fin 8) (s : State) : State :=
  if (s.loopAt p (trackOf f)).mode == loopClosed then
    s.updSurf p f fun x => { x with centreSum := x.centreSum + s.rdI (R.loopLastCode p (trackOf f)),
                                    centreCount := x.centreCount + 1 }
  else s

/-- A position whose EN is 0 sends zero drive codes and holds every loop in OFF (Table 5.6). -/
def srvOff (p : PosIx) (s : State) : State :=
  let s := s.forEach allLoops fun l s =>
    let s := enterMode p l loopOff (loopLatch p l (s.wr (R.loopLastCode p l) 0))
    s.updLoop p l fun x => { x with next := 0, mismatched := false, disagree := 0 }
  let s := s.forEach allSurfs fun f s =>
    if (s.surfAt p f).jump.isSome || (s.surfAt p f).goNext then jumpEnd p f 5 s else s
  s.updSrv p fun v => { v with running := false }

/-- The link source stays asserted while a servo fault lasts, a lane is being given up, training runs, the link is
DOWN, or its PLL has lost lock (R409). DEDUCED: log 83. -/
def linkFaulty (s : State) (p : PosIx) : Bool :=
  let g := s.pos[p].igl
  g.upErrors ≥ 3 || g.downErrors ≥ 3 || g.degrading.isSome || s.rd (R.iglStatState p) == 1 || s.rd (R.iglStatState p) == 3 ||
    (s.rd (R.iglStatState p) == 2 && !s.bit (R.clkPllLock (7 + p)))

/-- Whether tick's upstream slot is missing or bad, or leaves a sample of a running servo without its mark (R154). -/
def heldTick (s : State) (p : PosIx) : Bool :=
  match s.pos[p].srv.slot with
  | none => true
  | some c => s.bit (R.srvCtrlEn p) && (List.range 32).any fun i => !bitAt c.valid i

/-- The slot counters at a tick (R154, R254): a held tick counts, a tick with no reported downstream error ends its run.
They run while the link carries servo slots or is DOWN. -/
def slotCounts (p : PosIx) (s : State) : State :=
  let up := s.bit (R.iglCtrlEn p) && s.rd (R.iglStatState p) ≥ 2
  let miss := heldTick s p && up
  let s := s.updIgl p fun g =>
    { g with upErrors := if miss then g.upErrors + 1 else 0, downErrors := if g.downSeen then g.downErrors else 0,
             downSeen := false }
  if linkFaulty s p then s else releaseSnuff p 5 s

/-- A tick of position p (R142 to R166). `wrong` gives the lanes found wrong per loop. SRV_STAT.RUN shows the tick, whether or
not the position is enabled. DEDUCED: log 79. -/
def tickPos (p : PosIx) (k : Nat) (wrong : Nat → Bool × Bool × Bool) (s : State) : State :=
  let s := releaseSnuff p 9 (releaseSnuff p 1 (releaseSnuff p 0 (s.set1 (R.srvStatRun p))))
  let s := pf8Boundary p (slotCounts p s)
  if !s.bit (R.srvCtrlEn p) then (srvOff p s).updSrv p fun v => { v with slot := none } else
  let s := s.updSrv p fun v => { v with running := true }
  let s := s.forEach allLoops (loopBoundary p)
  let s := s.forEach allSurfs (surfBoundary p)
  let s := s.forEach allSurfs (takeSample p)
  let s := s.forEach allSurfs (jumpTick p)
  let off := allSurfs.any fun f => (beyondLimit s p f).1
  let foc := allSurfs.any fun f => (beyondLimit s p f).2
  let s := if off then raiseSnuff p 0 s else s
  let s := if foc then raiseSnuff p 1 s else s
  let s := s.forEach allSurfs (countLowSum p)
  let joined := s.pos[p].srv.spare.isSome
  let before := s.pos[p].srv
  let s := s.forEach allLoops fun l s => loopTick p k joined (wrong l) l s
  let s := if joined then strikeTick p k wrong s else s
  let after := s.pos[p].srv
  let struck := after.strikeA != before.strikeA || after.strikeB != before.strikeB || after.strikeS != before.strikeS
  let s := s.updSrv p fun v => { v with votes := if joined && !struck then v.votes + 1 else 0, slot := none }
  let s := if struck then fenceLanes p (showStrikes p s) else s
  let s := if allLoops.any (fun l => (s.loopAt p l).mismatched) || s.bit (R.srvLaneFailed p) || s.pos[p].srv.failDue then s
    else releaseSnuff p 4 s
  injectTick p (s.forEach allSurfs (sumCentre p))

/-- SRV_CTRL.EN (R142, Table 5.6): the loops start or stop at the next boundary. -/
def srvEnable (p : PosIx) (on : Bool) (s : State) : State := s.wr (R.srvCtrlEn p) (if on then 1 else 0)

/-- The spare leaves after 1,024 strike-free voting ticks, and the strikes clear (R164). -/
def spareLeave (p : PosIx) (s : State) : State :=
  match s.pos[p].srv.spare with
  | none => s
  | some i =>
    if s.pos[p].srv.votes < 1024 then s else
    let s := spareOut p { s with spares := s.spares.set i .free }
    showStrikes p (s.updSrv p fun v => { v with strikeA := [], strikeB := [], strikeS := [] })

/-- The servo has failed: every loop enters FAIL at the next boundary, FAILED sets, the mismatch source stays
asserted, and FLT logs a servo fault (R165). -/
def servoFail (p : PosIx) (s : State) : State :=
  if !s.pos[p].srv.failDue then s else
  let s := s.updSrv p fun v =>
    { v with failDue := false, loops := v.loops.map fun x => { x with pendMode := some loopFail } }
  (raiseSnuff p 4 (s.set1 (R.srvLaneFailed p))).log Config.servoReason.toNat (srcSrv p) p 0 (s.rd (R.srvMismLoop p))

/-- A mode waits for the next boundary of loop l; a failure that waits already keeps its place (R165). -/
def pendMode (p : PosIx) (l : Fin 24) (m : Nat) (s : State) : State :=
  (s.wr (R.loopCtrlMode p l) m).updLoop p l fun x =>
    { x with pendMode := if x.pendMode == some loopFail then x.pendMode else some m }

/-- LOOP_CTRL.MODE (R153): at the next boundary, or refused with MODEERR while the surface's sequencer is busy, while
the loop is in FAIL, or for a code that Table 5.3 gives no mode a write may set. -/
def loopModeWrite (p : PosIx) (l : Fin 24) (m : Nat) (s : State) : State :=
  if m ≥ 4 || s.bit (R.jmpStatBusy p (l.val % 8)) || s.rd (R.loopCtrlMode p l) == loopFail then
    s.set1 (R.loopFlagsModeerr p l)
  else pendMode p l m s

/-- LOOP_CTRL.GAIN_NOW (R150). -/
def loopGainNow (p : PosIx) (l : Fin 24) (s : State) : State :=
  if s.rd (R.loopCtrlMode p l) == loopClosed then s.set1 (R.loopFlagsModeerr p l)
  else s.updLoop p l fun x => { x with gainNow := true }

/-- LOOP_COEF (R149): stored in the inactive bank, ignored with BANKERR in the active one. -/
def loopCoefWrite (p : PosIx) (l : Fin 24) (bank : Fin 2) (n : Fin 6) (j : Fin 5) (v : Nat) (s : State) : State :=
  if (s.loopAt p l).bank == bank.val then s.set1 (R.loopFlagsBankerr p l) else s.wr (R.loopCoefCoef p l bank n j) v

/-- SRV_SPs (R151, Table 5.9): one 64-bit write sets all three set-points. -/
def setpointWrite (p : PosIx) (f : Fin 8) (v : Nat) (s : State) : State :=
  ((s.wr (R.srvSpFocus p f) (bitsOf v 0 16)).wr (R.srvSpTrack p f) (bitsOf v 16 16)).wr (R.srvSpTilt p f) (bitsOf v 32 16)

/-- Focus lost (R156): focus opens at PARK, tracking goes OFF and tilt HOLD at the next boundary, FOCLOST sets and the
focus source rises. -/
def focusLost (p : PosIx) (f : Fin 8) (s : State) : State :=
  if (s.surfAt p f).lowSum < 8 then s else
  let fl := focusOf f
  let s := s.wr (R.loopOpenDrive p fl) (s.rd (R.loopOpenPark p fl))
  let s := pendMode p (tiltOf f) loopHold (pendMode p (trackOf f) loopOff (pendMode p fl loopOpen s))
  raiseSnuff p 1 ((s.setBitOf (R.srvStatFoclost p) f).updSurf p f fun x => { x with lowSum := 0 })

/-- SRV_JMPGO (R157): the selected surfaces, on one tick. -/
def srvJmpgo (p : PosIx) (mask : Nat) (s : State) : State :=
  s.forEach allSurfs fun f s => if bitAt mask f then jumpGo p f s else s

/-- JMP_CTRL.ABORT (R158): at the next boundary. -/
def jumpAbort (p : PosIx) (f : Fin 8) (s : State) : State := s.updSurf p f fun x => { x with abortNext := true }

/-- ELAPSED reaches TMO (R158): result 6, focus OPEN at PARK, tracking OFF. -/
def jumpTimeout (p : PosIx) (f : Fin 8) (s : State) : State :=
  if s.bit (R.jmpStatBusy p f) && s.rd (R.jmpStatElapsed p f) ≥ s.rd (R.jmpTmoTmo p f) then
    jumpEnd p f 6 (enterMode p (trackOf f) loopOff (focusPark p f s))
  else s

/-- The mean tracking code of the last 64 ticks in SRV_CENTRE, 0 with no tracking loop closed (R160); how the mean
rounds is left open. -/
def centrePublish (p : PosIx) (s : State) : State :=
  let n := allSurfs.foldl (fun a f => a + (s.surfAt p f).centreCount) 0
  let t := allSurfs.foldl (fun a f => a + (s.surfAt p f).centreSum) 0
  let any := allSurfs.any fun f => (s.loopAt p (trackOf f)).mode == loopClosed
  let s := s.wrI (R.srvCentreCentre p) (if any && n > 0 then openRound 0x50 t n else 0)
  s.forEach allSurfs fun f s => s.updSurf p f fun x => { x with centreSum := 0, centreCount := 0 }

/-- SRV_ENABLE. -/
def execSrvEnable (p : PosIx) (on : Bool) (s : State) : Out := atPos p (srvEnable p on) s
/-- SPARE_LEAVE. -/
def execSpareLeave (p : PosIx) (s : State) : Out := atPos p (spareLeave p) s
/-- SERVO_FAIL. -/
def execServoFail (p : PosIx) (s : State) : Out := atPos p (servoFail p) s
/-- LOOP_MODE_WRITE. -/
def execLoopModeWrite (p : PosIx) (l : Fin 24) (mode : Fin 8) (s : State) : Out := atPos p (loopModeWrite p l mode) s
/-- LOOP_GAIN_NOW. -/
def execLoopGainNow (p : PosIx) (l : Fin 24) (s : State) : Out := atPos p (loopGainNow p l) s
/-- LOOP_COEF_WRITE. -/
def execLoopCoefWrite (p : PosIx) (l : Fin 24) (bank : Fin 2) (n : Fin 6) (j : Fin 5) (value : Nat) (s : State) : Out :=
  atPos p (loopCoefWrite p l bank n j value) s
/-- SETPOINT_WRITE. -/
def execSetpointWrite (p : PosIx) (f : Fin 8) (value : Nat) (s : State) : Out := atPos p (setpointWrite p f value) s
/-- FOCUS_LOST. -/
def execFocusLost (p : PosIx) (f : Fin 8) (s : State) : Out := atPos p (focusLost p f) s
/-- JUMP_GO. -/
def execJumpGo (p : PosIx) (f : Fin 8) (s : State) : Out := atPos p (jumpGo p f) s
/-- SRV_JMPGO. -/
def execSrvJmpgo (p : PosIx) (mask : Nat) (s : State) : Out := atPos p (srvJmpgo p mask) s
/-- JUMP_ABORT. -/
def execJumpAbort (p : PosIx) (f : Fin 8) (s : State) : Out := atPos p (jumpAbort p f) s
/-- JUMP_TIMEOUT. -/
def execJumpTimeout (p : PosIx) (f : Fin 8) (s : State) : Out := atPos p (jumpTimeout p f) s
/-- CENTRE_PUBLISH. -/
def execCentrePublish (p : PosIx) (s : State) : Out := atPos p (centrePublish p) s

end Sys2Proof.Machine
end

