-- ==== Sys2Proof/Machine/Spindle.lean ====
section
/-! DEFINITION. The spindle drive of a position (chapter 6): commands, states, commutation, current and speed loops,
bus thresholds, and the spin-up slot (R482). -/

namespace Sys2Proof.Machine

/-- SPN_STAT.STATE codes (Table 6.2). -/
def spnOff : Nat := 0
def spnObserve : Nat := 1
def spnBrake : Nat := 2
def spnAlign : Nat := 3
def spnRamp : Nat := 4
def spnRun : Nat := 5
def spnStopping : Nat := 6
def spnCoast : Nat := 7
def spnWait : Nat := 8
def spnFault : Nat := 9

def spnState (s : State) (p : PosIx) : Nat := s.rd (R.spnStatState p)

/-- Enter a state. AVALID clears on leaving RUN (R187), and LOCK with it. -/
def spnEnter (p : PosIx) (st : Nat) (s : State) : State :=
  let s := s.wr (R.spnStatState p) st
  if st = spnRun then s else (s.clr1 (R.spnStatAvalid p)).clr1 (R.spnStatLock p)

/-- A spindle reason: loaded into SPN_REASON and logged (R191). -/
def spnReason (p : PosIx) (code : Nat) (s : State) : State :=
  (s.wr (R.spnReasonCode p) code).log code (srcSpn p) p 0 0

/-- One whole duty, in the units of SpnState.duty. -/
def dutyOne : Int := 4294967296 * 10000000

/-- The bridge doing `b` from now on, with no short brake waiting; an accepted coast still comes at the next PWM period. -/
def spnGates (p : PosIx) (b : Bridge) (s : State) : State :=
  s.updSpn p fun n =>
    { n with bridge := b, brakeNext := false, was := if b == n.bridge then n.was else ⟨n.bridge, s.rd (R.spnIphStep p), n.time⟩ }

/-- The bridge's step becomes k at local time t (R171). -/
def spnStepTo (p : PosIx) (k t : Nat) (s : State) : State :=
  (s.updSpn p fun n =>
    { n with lastComm := t, lastDiff := none, was := ⟨n.bridge, s.rd (R.spnIphStep p), t⟩ }).wr (R.spnIphStep p) k

/-- The modulated high side and the steady low side of a step (Table 6.1): phases 0 U, 1 V, 2 W. -/
def stepGates (k : Nat) : Nat × Nat :=
  match k with
  | 0 => (0, 1) | 1 => (0, 2) | 2 => (1, 2) | 3 => (1, 0) | 4 => (2, 0) | _ => (2, 1)

/-- Whether a gate may be on while the bridge does `b` in a step: the modulated phase uses both of its gates. -/
def gateUsed (b : Bridge) (step : Nat) (high : Bool) (phase : Nat) : Bool :=
  match b with
  | .off => false
  | .brake => !high
  | .drive => phase == (stepGates step).1 || (!high && phase == (stepGates step).2)

/-- The dead time in force, in 10 ns (Table 6.10). -/
def deadTime (n : SpnState) : Nat := max 0x0A n.par.deadt

/-- Whether the centre-aligned on-time of the present period covers instant t, in 10 ns, with a margin on either side. -/
def onTime (n : SpnState) (t margin : Nat) : Bool :=
  decide ((2 * (t : Int) - 2500).natAbs * dutyOne < n.duty * 2500 + 2 * (margin : Int) * dutyOne)

/-- One gate output of position p, on at instant t (in 10 ns) of the present PWM period: SPNp_UH, VH, WH where `high`, else
SPNp_UL, VL, WL (R170, R171, R175, Table 6.2). A gate whose phase's other gate may have been on before the bridge last
changed waits for the dead time. -/
def gateOn (s : State) (p : PosIx) (high : Bool) (phase t : Nat) : Bool :=
  let n := s.pos[p].spn
  let step := s.rd (R.spnIphStep p)
  let dead := deadTime n
  let settled := !gateUsed n.was.bridge n.was.step (!high) phase || n.was.time + 10 * dead ≤ n.time + 10 * t
  let past := fun (d : Nat) => match n.cut with
    | some c => decide (c + d ≤ t)
    | none => false
  !outputsHeld s p && settled && match n.bridge with
    | .off => false
    | .brake => !high
    | .drive =>
      if phase == (stepGates step).1 then
        if high then onTime n t 0 && !past 0 else !onTime n t dead || past dead
      else !high && phase == (stepGates step).2

/-- The chopper gate of position p at its output (R184, R438). -/
def chopperOn (s : State) (p : PosIx) : Bool := s.pos[p].spn.chop && !outputsHeld s p

/-- A refused command (R179). DEDUCED: log 85. -/
def spnRefuse (p : PosIx) (s : State) : State := spnReason p 0x0604 (s.set1 (R.spnStatCmderr p))

/-- Gates off and OBSERVE. -/
def spnToObserve (p : PosIx) (s : State) : State :=
  spnEnter p spnObserve (spnGates p .off
    (s.updSpn p fun n => { n with stop := .none, stopAfterBrake := false, waitSlot := false, coastNext := false }))

/-- BRAKE, ending in OFF when a stop is pending. -/
def spnToBrake (p : PosIx) (stopping : Bool) (s : State) : State :=
  spnEnter p spnBrake (spnGates p .brake (s.updSpn p fun n => { n with stopAfterBrake := stopping }))

/-- OFF with every gate off. -/
def spnToOff (p : PosIx) (s : State) : State :=
  packOff p (spnEnter p spnOff (spnGates p .off
    (s.updSpn p fun n => { n with stop := .none, stopAfterBrake := false, waitSlot := false })))

/-- FAULT for a reason, every gate off. -/
def spnToFault (p : PosIx) (code : Nat) (s : State) : State :=
  spnReason p code (spnEnter p spnFault (spnGates p .off
    (s.updSpn p fun n =>
      { n with stop := .none, stopAfterBrake := false, waitSlot := false, coastNext := false, cause := code })))

/-- A speed in 1/16 rpm as an angle rate, in 2^-32 counts per tick. -/
def rateOf (v : Nat) : Nat := (openRound 0x65 ((v * 2 ^ 52 * 8 : Nat)) 9600000000).toNat

/-- RUN, from the speed that SPN_MEAS holds: the loops and the angle counter's rate start from it, and RETRY clears (R182). Where
six event intervals have not yet come that is the last speed measured before, or 0 (DESIGN CHOICE: log 86). DEDUCED: log 85. -/
def spnToRun (p : PosIx) (s : State) : State :=
  let v := s.rd (R.spnMeasSpeed p)
  let s := (spnGates p .drive s).updSpn p fun n =>
    { n with applied := v * 625000, speedInt := 0, demand := 0, currentInt := 0, goodEvents := 0, inWindow := 0,
             pll := { n.pll with rate := rateOf v, integ := rateOf v, tick := n.time, base := none } }
  spnEnter p spnRun (s.wr (R.spnStatRetry p) 0)

/-- The final short brake of STOPPING (R183). -/
def spnFinalBrake (p : PosIx) (s : State) : State :=
  spnGates p .brake (s.updSpn p fun n => { n with stop := .final })

/-- A braking interval of STOPPING with short brake (R183). -/
def spnInterval (p : PosIx) (s : State) : State :=
  spnGates p .brake (s.updSpn p fun n => { n with stop := .interval })

/-- The current limit in force, in the units of SpnState.demand: above 0x0E10 mA acts as that (Table 6.8). -/
def currentLimit (n : SpnState) : Int := (min n.par.ilim 0x0E10 * 655360000000 : Nat)

/-- Whether a spindle command is judged at all: POS_CFG.EN of the position is 1 (R179). -/
def posEnabled (s : State) (p : PosIx) : Bool := s.bit (R.posCfgEn p)

/-- START (Table 6.3, R482): from OFF with a spin-up slot of 1 to 16 the accepted command waits for the slot. -/
def spnStart (p : PosIx) (s : State) : State :=
  let st := spnState s p
  if posEnabled s p && (st == spnOff || st == spnCoast || st == spnStopping) then
    let s := s.wr (R.spnStatRetry p) 0
    if st = spnOff ∧ s.policyOf 0x70 p ≠ 0 then s.updSpn p fun n => { n with waitSlot := true }
    else spnToObserve p s
  else spnRefuse p s

/-- The states in which STOP_REGEN and STOP_SHORT are accepted (Table 6.3). -/
def spnStoppable (st : Nat) : Bool :=
  st == spnObserve || st == spnBrake || st == spnAlign || st == spnRamp || st == spnRun || st == spnWait ||
  st == spnStopping

/-- STOP_REGEN and STOP_SHORT (Table 6.3). A stop cancels a waiting START (R482). -/
def spnStop (p : PosIx) (short : Bool) (s : State) : State :=
  let st := spnState s p
  if !posEnabled s p then spnRefuse p s
  else if st = spnOff ∧ s.pos[p].spn.waitSlot then s.updSpn p fun n => { n with waitSlot := false }
  else if !spnStoppable st then spnRefuse p s
  else if st = spnRun then
    let s := spnEnter p spnStopping s
    if short || s.bit (R.spnStatChopflt p) then spnInterval p s
    else s.updSpn p fun n => { n with stop := .regen, applied := 0, demand := -currentLimit n }
  else if st = spnStopping then
    if short && s.pos[p].spn.stop == .regen then s.updSpn p fun n => { n with brakeNext := true } else s
  else if st = spnBrake then s.updSpn p fun n => { n with stopAfterBrake := true }
  else spnToBrake p true s

/-- COAST (Table 6.3): the change comes at the next PWM period. -/
def spnCoastCmd (p : PosIx) (s : State) : State :=
  let st := spnState s p
  if !posEnabled s p then spnRefuse p s
  else if st = spnOff ∧ s.pos[p].spn.waitSlot then s.updSpn p fun n => { n with waitSlot := false }
  else if st = spnOff ∨ st = spnFault then spnRefuse p s
  else s.updSpn p fun n => { n with coastNext := true }

/-- The bus thresholds in force: written values above the reset values act as the reset values (R184). -/
def spnOv1 (s : State) (p : PosIx) : Nat := min (s.rd (R.spnOvaOv1 p)) 0xC72
def spnOv1Off (s : State) (p : PosIx) : Nat := min (s.rd (R.spnOvaOv1Off p)) 0xC00
def spnOv2 (s : State) (p : PosIx) : Nat := min (s.rd (R.spnOvbOv2 p)) 0xDC7
def spnOv3 (s : State) (p : PosIx) : Nat := min (s.rd (R.spnOvbOv3 p)) 0xEAB

/-- CLEAR (Table 6.3, R186): refused while the bus that caused the fault is not yet below OV1. -/
def spnClear (p : PosIx) (s : State) : State :=
  if posEnabled s p && spnState s p == spnFault &&
      !(s.pos[p].spn.cause == 0x0602 && spnOv1 s p ≤ s.rd (R.spnMeasVbus p)) then spnToOff p s
  else spnRefuse p s

/-- The chopper is declared faulty (R185): regenerative STOPPING changes to short brake at the next PWM period. In RUN the demand
is held at zero or above from now on (R176, spnDemand), so its drive no longer regenerates. DEDUCED: log 86. -/
def chopperFault (p : PosIx) (s : State) : State :=
  if s.bit (R.spnStatChopflt p) then s
  else
    let s := (s.set1 (R.spnStatChopflt p)).updSpn p fun n =>
      { n with chop := false, chopAge := 0, brakeNext := n.brakeNext || n.stop == .regen }
    spnReason p 0x0603 s

/-- The bus sample of a PWM period (R184 to R186). -/
def busSample (p : PosIx) (v : Nat) (s : State) : State :=
  let s := s.wr (R.spnMeasVbus p) v
  let s := if s.bit (R.spnStatChopflt p) then s
    else if spnOv1 s p ≤ v then
      (s.set1 (R.spnStatOv1 p)).updSpn p fun n =>
        { n with chop := true, chopAge := if n.chop then n.chopAge + 1 else 0 }
    else if v ≤ spnOv1Off s p then s.updSpn p fun n => { n with chop := false, chopAge := 0 }
    else s.updSpn p fun n => { n with chopAge := if n.chop then n.chopAge + 1 else 0 }
  let s := if spnOv2 s p ≤ v then
      let s := s.set1 (R.spnStatOv2 p)
      if s.pos[p].spn.chop && 80 ≤ s.pos[p].spn.chopAge then chopperFault p s else s
    else s
  if spnOv3 s p ≤ v then
    let s := s.set1 (R.spnStatOv3 p)
    if spnState s p = spnFault ∧ s.pos[p].spn.cause = 0x0602 then s else spnToFault p 0x0602 s
  else s

/-- Whether the drive follows a current demand, and the demand in 2^-16 10^-7 mA (R175, R176, R181, R183). It is never below zero
while CHOPFLT is set. DEDUCED: log 86. -/
def spnDemand (s : State) (p : PosIx) : Option Int :=
  let st := spnState s p
  let n := s.pos[p].spn
  let d := if s.bit (R.spnStatChopflt p) then max 0 n.demand else n.demand
  if st = spnAlign ∨ st = spnRamp then some (n.par.alignI * 655360000000 : Nat)
  else if st = spnRun ∨ (st = spnStopping ∧ n.stop = .regen) then some d
  else none

/-- The current, in mA, of a sample of SPNp_ISH less the offset sample (R174). -/
def shuntCurrent (a offset : Nat) : Int := openRound 0x60 (((a : Int) - offset) * 225) 128

/-- The current samples and the current loop of a PWM period (R174, R175): the samples of a period whose on-time is
below MINON are discarded; a current that reaches IPEAK turns the high side off from that instant to the period's end, and
is measured from the period's offset sample. DEDUCED: log 86. -/
def currentLoop (p : PosIx) (x : PwmSample) (s : State) : State :=
  let n := s.pos[p].spn
  let s := if n.duty * 2500 < (n.par.minon : Int) * dutyOne then s.set1 (R.spnStatIskip p)
    else s.wrI (R.spnIphCurrent p) (shuntCurrent x.s1 x.s2)
  let s := if (n.par.ipeak : Int) ≤ shuntCurrent x.peak x.s2 then
      (s.set1 (R.spnStatIpeak p)).updSpn p fun n => { n with peaks := n.peaks + 1, cut := some x.peakAt }
    else s.updSpn p fun n => { n with peaks := 0, cut := none }
  match spnDemand s p with
  | none => s.updSpn p fun n => { n with duty := 0, currentInt := 0 }
  | some d =>
    let d := clampI (-currentLimit n) (currentLimit n) d
    let e := d - s.rdI (R.spnIphCurrent p) * 655360000000
    s.updSpn p fun n =>
      { n with currentInt := n.currentInt + e
               duty := clampI 0 dutyOne ((n.par.kp : Int) * e + (n.par.ki : Int) * (n.currentInt + e)) }

/-- The phase advance entry in force (R173): by 375 rpm of measured speed, entry 15 above, 0xF0 at most. DEDUCED: log 86. -/
def phaseAdvance (s : State) (p : PosIx) : Nat :=
  let i := min 15 (s.rd (R.spnMeasSpeed p) / 6000)
  let v := match i % 4 with
    | 0 => s.rd (R.spnAdvAdv0 p (i / 4))
    | 1 => s.rd (R.spnAdvAdv1 p (i / 4))
    | 2 => s.rd (R.spnAdvAdv2 p (i / 4))
    | _ => s.rd (R.spnAdvAdv3 p (i / 4))
  min v 0xF0

/-- The measured speed, from the last six event intervals (R176), in 1/16 rpm. -/
def speedOf (s : State) (p : PosIx) (iv : List Nat) : Nat :=
  (openRound 0x61 960000000000 ((s.rd (R.spnCfgPoles p) * iv.sum : Nat) : Int)).toNat

/-- The spindle angle at local time t, in 2^-32 counts: the counter of the last tick carried on at its rate. -/
def angleAt (s : State) (p : PosIx) (t : Nat) : Int :=
  let l := s.pos[p].spn.pll
  ((s.rd (R.spnAngleRev p) * 1048576 + s.rd (R.spnAngleFrac p)) * 2 ^ 32 + l.sub : Nat) +
    (l.rate : Int) * ((t : Int) - l.tick) / 800

/-- An event in RUN at local time t reaches the angle counter's PLL (R187): each event is expected 2^20 / (6 POLES) counts after
the one before. The phase error sets the rate through the gains of a second-order loop, which the spec gives by bandwidth
only; it never turns the counter back. 48 errors within 512 counts make the angle valid. DEDUCED: log 86. -/
def pllEvent (p : PosIx) (t : Nat) (s : State) : State :=
  let a := angleAt s p t
  let k := 6 * s.rd (R.spnCfgPoles p)
  match s.pos[p].spn.pll.base with
  | none => s.updSpn p fun n => { n with pll := { n.pll with base := some (a, 1) } }
  | some (b, i) =>
    let err := (b - a) * k + (i : Int) * 2 ^ 52
    let s := s.updSpn p fun n =>
      let integ := n.pll.integ + Config.pllIntegral err k
      { n with goodEvents := n.goodEvents + if err.natAbs ≤ 512 * 2 ^ 32 * k then 1 else 0
               pll := { n.pll with base := some (b, i + 1), integ := integ
                                   rate := (integ + Config.pllProportional err k).toNat } }
    if 48 ≤ s.pos[p].spn.goodEvents then s.set1 (R.spnStatAvalid p) else s

/-- SPN_ANGLE at a tick of a spindle in RUN (R187): the counter moves on by its rate. -/
def angleTick (p : PosIx) (s : State) : State :=
  if spnState s p != spnRun then s else
  let l := s.pos[p].spn.pll
  let a := (s.rd (R.spnAngleRev p) * 1048576 + s.rd (R.spnAngleFrac p)) * 2 ^ 32 + l.sub + l.rate
  let c := a / 2 ^ 32
  ((s.updSpn p fun n => { n with pll := { l with sub := a % 2 ^ 32, tick := l.tick + 800 } }).wr
    (R.spnAngleRev p) (c / 1048576)).wr (R.spnAngleFrac p) (c % 1048576)

/-- A commutation event at local time t (R172, R181, R187): its interval, the speed once six intervals have come (until then
SPN_MEAS keeps the value it has, DESIGN CHOICE: log 86), the event that the next commutation follows, and in RAMP the handover:
HANDOVER events in step order, at whatever speeds, the last of them at 300 rpm or more (DESIGN CHOICE: log 86).
DEDUCED: log 86. -/
def spnEvent (p : PosIx) (t : Nat) (s : State) : State :=
  let n := s.pos[p].spn
  let step := s.rd (R.spnIphStep p)
  let iv := if n.lastEvent = 0 then n.intervals else ((t - n.lastEvent) :: n.intervals).take 6
  let s := if iv.length = 6 then s.wr (R.spnMeasSpeed p) (speedOf s p iv) else s
  let two := nth 0 iv 0 + nth (nth 0 iv 0) iv 1
  let ordered := n.inOrder = 0 ∨ (n.lastStep + 1) % 6 = step
  let s := s.updSpn p fun n =>
    { n with intervals := iv, lastEvent := t, lastStep := step, inOrder := if ordered then n.inOrder + 1 else 1 }
  let st := spnState s p
  if st = spnRamp then
    if max 1 n.par.handover ≤ s.pos[p].spn.inOrder ∧ 300000000 ≤ s.pos[p].spn.rampSpeed then
      spnToRun p (s.updSpn p fun n => { n with due := some (t, two) })
    else s
  else if st = spnRun then
    pllEvent p t (s.updSpn p fun n => { n with due := some (t, two) })
  else
    let s := s.updSpn p fun n => { n with due := some (t, two) }
    if s.rd (R.spnMeasSpeed p) < 9600 then spnFinalBrake p s else s

/-- Three times the floating phase less the neutral, in codes (R172). -/
def floatDiff (s : State) (p : PosIx) (x : PwmSample) : Int :=
  let step := s.rd (R.spnIphStep p)
  let f : Nat := if step % 3 = 0 then x.bw else if step % 3 = 1 then x.bv else x.bu
  if s.bit (R.spnCfgNeutral p) then 3 * (f : Int) - (x.bu + x.bv + x.bw : Nat) else 3 * ((f : Int) - x.bn)

/-- The back-EMF sample of a PWM period: blanking, and the first sign change in the expected direction (R172). -/
def backEmf (p : PosIx) (x : PwmSample) (s : State) : State :=
  let n := s.pos[p].spn
  let st := spnState s p
  if ¬(st = spnRamp ∨ st = spnRun ∨ (st = spnStopping ∧ n.stop = .regen)) then s
  else
    let now := n.time + 10 * s.rd (R.spnSmpT1 p)
    let t60 := (nth 0 n.intervals 0 + nth (nth 0 n.intervals 0) n.intervals 1) / 2
    if (now - n.lastComm) * 256 < s.rd (R.spnCfgBlank p) * t60 then
      s.updSpn p fun n => { n with lastDiff := none }
    else
      let d := floatDiff s p x
      let s := s.updSpn p fun n => { n with lastDiff := some d }
      match n.lastDiff with
      | none => s
      | some d0 =>
        let falling := s.rd (R.spnIphStep p) % 2 = 0
        let crossed := if falling then decide (0 ≤ d0 ∧ d < 0) else decide (d0 < 0 ∧ 0 ≤ d)
        if crossed && n.lastEvent ≤ n.lastComm then
          let a : Int := d0.natAbs
          let b : Int := d.natAbs
          spnEvent p (openRound 0x64 (((now - 25000 : Nat) : Int) * (a + b) + 25000 * a) (a + b)).toNat s
        else s

/-- The open-loop schedule of RAMP for one PWM period (R181): the speed rises at OL_RATE to 600 rpm, and each whole
step of the schedule steps the bridge. -/
def rampStep (p : PosIx) (s : State) : State :=
  if spnState s p ≠ spnRamp then s
  else
    let n := s.pos[p].spn
    let v := min 600000000 (n.rampSpeed + 25 * n.par.olRate)
    let ph := n.rampPhase + v * 6 * s.rd (R.spnCfgPoles p)
    if 2400000000000 ≤ ph then
      spnStepTo p ((s.rd (R.spnIphStep p) + 1) % 6) n.time
        (s.updSpn p fun n => { n with rampSpeed := v, rampPhase := ph - 2400000000000 })
    else s.updSpn p fun n => { n with rampSpeed := v, rampPhase := ph }

/-- Changes that wait for the PWM period: coast (Table 6.3, R189) before short brake (R183, R185). -/
def pwmPending (p : PosIx) (s : State) : State :=
  let n := s.pos[p].spn
  if n.coastNext then
    spnEnter p spnCoast (spnGates p .off (s.updSpn p fun n =>
      { n with stop := .none, stopAfterBrake := false, waitSlot := false, coastNext := false }))
  else if n.brakeNext then
    if n.stop = .regen then spnInterval p s else s.updSpn p fun n => { n with brakeNext := false }
  else s

/-- One PWM period of the spindle (R171 to R175, R184 to R186). -/
def spnPwmPeriod (p : PosIx) (x : PwmSample) (s : State) : State :=
  let s := s.updSpn p fun n => { n with time := n.time + 25000, cut := none }
  backEmf p x (rampStep p (currentLoop p x (busSample p x.vbus (pwmPending p s))))

/-- When the commutation after an event falls: T60 / 2 less the phase advance now in force later, T60 the mean of two intervals
that sum to `two` (R172, R173). -/
def commTime (s : State) (p : PosIx) (t two : Nat) : Nat :=
  (openRound 0x62 (((t * 960 + (240 - phaseAdvance s p) * two : Nat)) : Int) 960).toNat

/-- A commutation at its scheduled time: the step number rises by one, modulo 6 (R171, R172). -/
def commutate (p : PosIx) (s : State) : State :=
  match s.pos[p].spn.due with
  | none => s
  | some (t, two) =>
    let s' := s.updSpn p fun n => { n with due := none }
    if s.pos[p].spn.bridge = .drive then spnStepTo p ((s.rd (R.spnIphStep p) + 1) % 6) (commTime s p t two) s' else s'

/-- The target in force, in rpm (R177, R178): the degraded speed while it is requested. -/
def spnTarget (s : State) (p : PosIx) : Nat :=
  if s.pos[p].spn.degraded then s.rd (R.spnSpdDegraded p)
  else max 0x03E8 (min 0x1518 (s.rd (R.spnSpdTarget p)))

/-- The applied target one loop period on: at most ACCEL rpm/s nearer the target (R177). -/
def applyTarget (cur target accel : Nat) : Nat :=
  if cur ≤ target then min target (cur + accel * 1024) else max target (cur - accel * 1024)

/-- LOCK (R177). -/
def speedLock (p : PosIx) (s : State) : State :=
  let t := spnTarget s p * 10000000
  let v := s.rd (R.spnMeasSpeed p) * 625000
  let d := (v - t) + (t - v)
  let s := s.updSpn p fun n => { n with inWindow := if d * 2000 ≤ t then n.inWindow + 1 else 0 }
  if 64 ≤ s.pos[p].spn.inWindow then s.set1 (R.spnStatLock p)
  else if t < d * 500 then s.clr1 (R.spnStatLock p) else s

/-- The parameters that act from this speed-loop period on (R190). -/
def spnLatch (p : PosIx) (s : State) : State :=
  s.updSpn p fun n => { n with par :=
    { olRate := s.rd (R.spnRampOlRate p), handover := s.rd (R.spnStartHandover p), alignI := s.rd (R.spnIlimAlignI p),
      ilim := s.rd (R.spnIlimIlim p), ipeak := s.rd (R.spnProtIpeak p), minon := s.rd (R.spnProtMinon p),
      kp := s.rd (R.spnIloopKp p), ki := s.rd (R.spnIloopKi p), deadt := s.rd (R.spnGateDeadt p) } }

/-- One period of the speed loop (R176, R177, R183, R190). In regenerative STOPPING the demand is at most -ILIM, the lowest that
R175 admits. -/
def speedLoop (p : PosIx) (s : State) : State :=
  let s := spnLatch p s
  let st := spnState s p
  let regen := st = spnStopping ∧ s.pos[p].spn.stop = .regen
  if ¬(st = spnRun ∨ regen) then s
  else
    let v : Int := (s.rd (R.spnMeasSpeed p) * 625000 : Nat)
    let ap := if regen then 0
      else applyTarget s.pos[p].spn.applied (spnTarget s p * 10000000) (s.rd (R.spnRampAccel p))
    let e := (ap : Int) - v
    let lim := currentLimit s.pos[p].spn
    let lo : Int := if s.bit (R.spnStatChopflt p) then 0 else -lim
    let s := s.updSpn p fun n =>
      { n with applied := ap, speedInt := n.speedInt + e
               demand := if regen then -lim else clampI lo lim ((s.rd (R.spnSloopKp p) : Int) * 256 * e
                 + (s.rd (R.spnSloopKi p) : Int) * (n.speedInt + e)) }
    if regen then if s.rd (R.spnMeasSpeed p) < 9600 then spnFinalBrake p s else s
    else speedLock p s

/-- The end of an OBSERVE window (R180). -/
def observeEnd (p : PosIx) (x : CatchSpin) (s : State) : State :=
  if spnState s p ≠ spnObserve then s
  else if 4 ≤ x.forward ∧ 9600 ≤ x.speed then
    let n := s.pos[p].spn
    let last := max 1 (n.time - x.since)
    let s := spnStepTo p (x.step % 6) n.time (s.wr (R.spnMeasSpeed p) x.speed)
    spnToRun p (s.updSpn p fun n =>
      { n with intervals := List.replicate 6 x.t60, lastEvent := last, lastStep := x.step % 6,
               due := some (last, 2 * x.t60), inOrder := 0 })
  else if 3 ≤ x.reverse then spnToBrake p false (s.set1 (R.spnStatReverse p))
  else spnToBrake p false s

/-- The end of BRAKE (R180). -/
def brakeEnd (p : PosIx) (s : State) : State :=
  if spnState s p ≠ spnBrake then s
  else if s.pos[p].spn.stopAfterBrake then spnToOff p s
  else spnEnter p spnAlign (spnGates p .drive (spnStepTo p 5 s.pos[p].spn.time s))

/-- The end of ALIGN (R181): RAMP from step 0. -/
def alignEnd (p : PosIx) (s : State) : State :=
  if spnState s p ≠ spnAlign then s
  else
    let s := (spnStepTo p 0 s.pos[p].spn.time s).updSpn p fun n =>
      { n with rampSpeed := 0, rampPhase := 0, inOrder := 0, intervals := [], lastEvent := 0, due := none, currentInt := 0 }
    spnEnter p spnRamp s

/-- The locked-rotor timer expires (R182). DEDUCED: log 85. -/
def lockedRotor (p : PosIx) (s : State) : State :=
  let st := spnState s p
  if ¬(st = spnRamp ∨ st = spnRun) then s
  else
    let s := s.set1 (R.spnStatLocked p)
    if s.rd (R.spnStatRetry p) < 3 then spnEnter p spnWait (spnGates p .off s)
    else wakeFailed p 0x0601 (spnToFault p 0x0601 s)

/-- The 1 s WAIT ends: a retry begins with catch-spin (R182). DEDUCED: log 7, 85. -/
def waitEnd (p : PosIx) (s : State) : State :=
  if spnState s p ≠ spnWait then s
  else spnToObserve p (s.wr (R.spnStatRetry p) (s.rd (R.spnStatRetry p) + 1))

/-- The ends of the phases of STOPPING (R183). -/
def stopNoEvent (p : PosIx) (s : State) : State :=
  if spnState s p = spnStopping ∧ s.pos[p].spn.stop = .regen then spnFinalBrake p s else s
def brakeIntervalEnd (p : PosIx) (s : State) : State :=
  if spnState s p = spnStopping ∧ s.pos[p].spn.stop = .interval then
    spnGates p .off (s.updSpn p fun n => { n with stop := .window })
  else s
def windowEnd (p : PosIx) (x : CatchSpin) (s : State) : State :=
  if spnState s p = spnStopping ∧ s.pos[p].spn.stop = .window then
    if x.forward < 4 ∨ x.speed < 9600 then spnFinalBrake p s else spnInterval p s
  else s
def finalBrakeEnd (p : PosIx) (s : State) : State :=
  if spnState s p = spnStopping ∧ s.pos[p].spn.stop = .final then spnToOff p s else s

/-- 256 consecutive periods at IPEAK (R175). -/
def ipeakFault (p : PosIx) (s : State) : State :=
  if 256 ≤ s.pos[p].spn.peaks then
    wakeFailed p 0x0605 (spnToFault p 0x0605 (s.updSpn p fun n => { n with peaks := 0 }))
  else s

/-- A write to SPN_SPD.TARGET (R178). -/
def speedTargetWrite (p : PosIx) (rpm : Nat) (s : State) : State :=
  (s.wr (R.spnSpdTarget p) rpm).updSpn p fun n => { n with degraded := false }

/-- The spin-up slot of a waiting START opens (R482). -/
def spinupSlotOpen (p : PosIx) (s : State) : State :=
  let slot := s.policyOf 0x70 p
  if spnState s p = spnOff ∧ s.pos[p].spn.waitSlot ∧
      (slot = 0 ∨ s.rd R.timeNowNs / 1000000000 % 16 = slot - 1) then spnToObserve p s
  else s

/-- The link requests the degraded speed (R178). -/
def requestDegraded (p : PosIx) (s : State) : State := s.updSpn p fun n => { n with degraded := true }

/-- PWRFAIL_N falls (R189): COAST at the next PWM period from whatever state, no braking. -/
def spnPowerFail (p : PosIx) (s : State) : State :=
  s.updSpn p fun n => { n with waitSlot := false, coastNext := true, brakeNext := false }

/-- SPN reset to OFF with every gate off (R189). -/
def spnReset (p : PosIx) (s : State) : State :=
  { s with regs := RegFile.resetRange s.regs (posBase p + 0x40000) (posBase p + 0x60000) }.updSpn p fun _ => .reset

def execSpnStart (p : PosIx) (s : State) : Out := atPos p (spnStart p) s
def execSpnStopRegen (p : PosIx) (s : State) : Out := atPos p (spnStop p false) s
def execSpnStopShort (p : PosIx) (s : State) : Out := atPos p (spnStop p true) s
def execSpnCoast (p : PosIx) (s : State) : Out := atPos p (spnCoastCmd p) s
def execSpnClear (p : PosIx) (s : State) : Out := atPos p (spnClear p) s
def execSpnPwmPeriod (p : PosIx) (x : PwmSample) (s : State) : Out := atPos p (spnPwmPeriod p x) s
def execCommutation (p : PosIx) (s : State) : Out := atPos p (commutate p) s
def execChopperFeedbackTimeout (p : PosIx) (s : State) : Out := atPos p (chopperFault p) s
def execIpeakFault (p : PosIx) (s : State) : Out := atPos p (ipeakFault p) s
def execSpeedLoop (p : PosIx) (s : State) : Out := atPos p (speedLoop p) s
def execObserveEnd (p : PosIx) (x : CatchSpin) (s : State) : Out := atPos p (observeEnd p x) s
def execBrakeEnd (p : PosIx) (s : State) : Out := atPos p (brakeEnd p) s
def execAlignEnd (p : PosIx) (s : State) : Out := atPos p (alignEnd p) s
def execLockedRotorTimeout (p : PosIx) (s : State) : Out := atPos p (lockedRotor p) s
def execWaitEnd (p : PosIx) (s : State) : Out := atPos p (waitEnd p) s
def execStopNoEventTimeout (p : PosIx) (s : State) : Out := atPos p (stopNoEvent p) s
def execBrakeIntervalEnd (p : PosIx) (s : State) : Out := atPos p (brakeIntervalEnd p) s
def execObservationWindowEnd (p : PosIx) (x : CatchSpin) (s : State) : Out := atPos p (windowEnd p x) s
def execFinalBrakeEnd (p : PosIx) (s : State) : Out := atPos p (finalBrakeEnd p) s
def execSpeedTargetWrite (p : PosIx) (rpm : Nat) (s : State) : Out := atPos p (speedTargetWrite p rpm) s
def execSpinupSlotOpen (p : PosIx) (s : State) : Out := atPos p (spinupSlotOpen p) s

end Sys2Proof.Machine
end

