-- ==== Sys2Proof/Machine/Link.lean ====
section
/-! DEFINITION. The Iglin link of a position and the PF8 behind it (chapter 9): training, servo and status slots,
snuff, the control channel, lane degrade, wick packets. -/

namespace Sys2Proof.Machine

/-- IGL_STAT.STATE codes. -/
def lnkOff : Nat := 0
def lnkTraining : Nat := 1
def lnkActive : Nat := 2
def lnkDown : Nat := 3

def lnkState (s : State) (p : PosIx) : Nat := s.rd (R.iglStatState p)

/-- A link reason: loaded into IGL_REASON and logged (R266). -/
def lnkReason (p : PosIx) (code : Nat) (s : State) : State :=
  (s.wr (R.iglReasonCode p) code).log code (srcIgl p) p 0 0

/-- IGL_EVT shows the head of its queue (Table 9.11). -/
def showIglEvt (p : PosIx) (s : State) : State :=
  let s := s.wr (R.iglEvtOvf p) (if s.pos[p].igl.evtLost then 1 else 0)
  match s.pos[p].igl.events with
  | e :: _ => (((s.wr (R.iglEvtValid p) 1).wr (R.iglEvtCode p) e.code).wr (R.iglEvtMask p) e.mask).wr (R.iglEvtData p) e.data
  | [] => (((s.wr (R.iglEvtValid p) 0).wr (R.iglEvtCode p) 0).wr (R.iglEvtMask p) 0).wr (R.iglEvtData p) 0

/-- An event queued in IGL_EVT, lost when the 32-entry queue is full. -/
def iglEvent (p : PosIx) (code mask data : Nat) (s : State) : State :=
  showIglEvt p (s.updIgl p fun g => if g.events.length ≥ 32 then { g with evtLost := true }
    else { g with events := g.events ++ [{ code := code, mask := mask, data := data }] })

/-- IGL_CTRL.EN (Table 9.10): the link's PLL runs while it is 1 (Table 15.2); 0 stops the transmitters. -/
def linkEnable (p : PosIx) (on : Bool) (s : State) : State :=
  if on then s.set1 (R.iglCtrlEn p)
  else linkStop p s

/-- IGL_CTRL.TRAIN (R261): ignored while EN is 0; the snuff latch is held by the link source. DEDUCED: log 92. -/
def linkTrain (p : PosIx) (s : State) : State :=
  if !s.bit (R.iglCtrlEn p) then s else
  let s := raiseSnuff p 5 (((s.wr (R.iglStatState p) lnkTraining).wr (R.iglStatLanes p) 0).clr1 (R.iglStatDegraded p))
  s.updIgl p fun g => { g with wickAddr := [], upErrors := 0, downErrors := 0, downSeen := false, degrading := none,
                               aligned := 0, alignSent := false, symNext := [] }

/-- The link goes DOWN for a reason; every wake of the pack fails (R504). -/
def linkDown (p : PosIx) (code : Nat) (s : State) : State :=
  wakeFailed p code (lnkReason p code (((s.wr (R.iglStatState p) lnkDown).wr (R.iglStatLanes p) 0).clr1
    (R.iglStatDegraded p)))

/-- The lanes of a mask. -/
def lanesOf (mask : Nat) : List Nat := (List.range 4).filter fun l => bitAt mask l

/-- What training measured and chose, in the registers (Table 9.10). -/
def trainShow (p : PosIx) (x : Training) (s : State) : State :=
  let s := (s.wr (R.iglDelayRtt p) x.rtt).wr (R.iglDelayDdown p) x.ddown
  let s := (List.range 4).foldl (fun s l =>
    (s.wr (R.iglLaneTxpre p l) (nth 0 x.tx l)).wr (R.iglLaneRxpre p l) (nth 0 x.rx l)) s
  s.updPf8 p fun f => { f with ddown := x.ddown }

/-- The end of training (R259, R261, R262). The link runs on the lanes that pass; three lanes, whether one failed or
one was excluded, are three-lane operation. DEDUCED: log 92. -/
def trainingDone (p : PosIx) (x : Training) (s : State) : State :=
  if lnkState s p != lnkTraining || !s.bit (R.clkPllLock (7 + p)) then s else
  let on := (lanesOf (15 - s.rd (R.iglCtrlLaneDis p) % 16))
  let ok := on.filter fun l => bitAt x.pass l
  let s := if ok.length < on.length then s.set1 (R.iglStatTrainfail p) else s
  if ok.length < 3 then linkDown p 0x0905 s
  else
    let s := trainShow p x s
    if x.id != 0x50460008 || x.ver % 65536 != 0x0100 then linkDown p 0x0906 s
    else
      let s := (s.wr (R.iglStatState p) lnkActive).wr (R.iglStatLanes p) ((ok.map (2 ^ ·)).foldl (· + ·) 0)
      let s := releaseSnuff p 5 s
      if ok.length = 4 then s
      else requestDegraded p (lnkReason p 0x0901 (s.set1 (R.iglStatDegraded p)))

/-- The bytes of a block that was received with a valid header. -/
def blockGet : Block → Option (List Byte)
  | .bytes l => some (slice l 0 15)
  | _ => none

/-- Whether lane l gives none of its two blocks up: both were received well, and the lane has not failed. -/
def laneGood (s : State) (p : PosIx) (blocks : List Block) (l : Nat) : Bool :=
  (blockGet (nth .missing blocks (2 * l))).isSome && (blockGet (nth .missing blocks (2 * l + 1))).isSome &&
    s.pos[p].igl.degrading != some l

/-- The 15 bytes of part k, reconstructed from parity where lane `bad` is missing (R248). -/
def partBytes (blocks : List Block) (bad : Option Nat) (k : Nat) : List Byte :=
  let at_ := fun i => (blockGet (nth .missing blocks i)).getD (List.replicate 15 0)
  if bad == some (k / 2) then
    let b := k % 2
    (((List.range 3).filter fun l => l != k / 2).map fun l => at_ (2 * l + b)).foldl xorBytes (at_ (6 + b))
  else at_ k

/-- The 84 content bytes of the upstream data slot, none where it cannot be formed; true when a part was
reconstructed (R248). -/
def slotBytes (s : State) (p : PosIx) (blocks : List Block) : Option (List Byte × Bool) :=
  let bad := (List.range 3).filter fun l => !laneGood s p blocks l
  let all := fun (b : Option Nat) => ((List.range 6).map fun k => (partBytes blocks b k).drop 1).flatten
  match bad with
  | [] => some (all none, false)
  | [l] => if s.rd (R.iglStatLanes p) == 15 && laneGood s p blocks 3 then some (all (some l), true) else none
  | _ => none

/-- The samples and marks of an upstream slot's content (R248). -/
def slotContent (c : List Byte) : SlotContent :=
  let w := fun s j => toSigned 16 (leAt c (8 * s + 2 * j) 2)
  { samples := (List.range 8).map fun s => { fe := w s 0, te := w s 1, tlt := w s 2, sum := leAt c (8 * s + 6) 2 },
    valid := leAt c 64 4 }

/-- The upstream servo data slot (R248, R254): reconstruction, the content check, and the samples for the next tick. -/
def upstreamSlot (p : PosIx) (blocks : List Block) (s : State) : State :=
  if lnkState s p != lnkActive then s else
  let s := (List.range 8).foldl (fun s i =>
    if nth .missing blocks i == .badHeader then s.bump (R.iglLaneBadhdr p (i / 2)) 1 else s) s
  match slotBytes s p blocks with
  | none => (s.bump (R.iglSvupErr p) 1).updSrv p fun v => { v with slot := none }
  | some (c, rec) =>
    let s := if rec then s.bump (R.iglSvupRecon p) 1 else s
    if leAt c 69 4 == crc32c (c.take 69) then s.updSrv p fun v => { v with slot := some (slotContent c) }
    else (s.bump (R.iglSvupErr p) 1).updSrv p fun v => { v with slot := none }

/-- Three held ticks, or three downstream slots in error, in a row (R154, R254): the link source rises, SERVOFLT sets and
0x0903 is logged, whether or not an earlier fault still stands there. -/
def servoLinkFault (p : PosIx) (s : State) : State :=
  let g := s.pos[p].igl
  if g.upErrors ≥ 3 || g.downErrors ≥ 3 then
    lnkReason p 0x0903 (raiseSnuff p 5 (s.set1 (R.iglStatServoflt p)))
  else s

/-- A wick underrun of pickups in a mask (R251): the engines that pour on them record the gate criterion as failed. -/
def underrunSeen (p : PosIx) (mask : Nat) (s : State) : State :=
  s.forEach allEng fun e s => match s.eng[e].home with
    | some (q, f) =>
      if q == p && bitAt mask f then s.updEng e fun x =>
        if x.gate then { x with gateLost := true } else { x with poured := x.poured.mapIdx fun i y => if i + 1 = x.poured.length then { y with gateLost := true } else y }
      else s
    | none => s

/-- An upstream SNUFF (R255): the latch sets, and the source and pickups go to IGL_EVT. -/
def snuffBlock (p : PosIx) (source mask : Nat) (s : State) : State :=
  let s := iglEvent p (0x10 + source) mask 0 s
  let s := if source = 2 ∨ source = 3 then s.set1 (R.iglStatPf8flt p) else s
  if source = 1 then pulseSnuff p 6 s else raiseSnuff p 6 s

/-- Requests leave in order while fewer than eight are outstanding (R256). -/
def creqSend (p : PosIx) : Nat → State → State
  | 0, s => s
  | n + 1, s =>
    match s.pos[p].igl.waiting with
    | [] => s
    | c :: t =>
      if s.pos[p].igl.out.length ≥ 8 || s.bit (R.iglStatCtrlflt p) then s
      else creqSend p n (s.updIgl p fun g =>
        { g with waiting := t, out := g.out ++ [{ c with seq := g.seq, tries := 1 }], seq := (g.seq + 1) % 256,
                 tx := { g.tx with ctrl := g.tx.ctrl ++ [g.seq] } })

/-- A control request of a requester (R258). -/
def creq (p : PosIx) (op addr data : Nat) (owner : CreqOwner) (s : State) : State :=
  creqSend p 8 (s.updIgl p fun g =>
    { g with waiting := g.waiting ++ [{ seq := 0, op := op, addr := addr, data := data, tries := 0, owner := owner }] })

/-- IGL_CCMD.GO (Table 9.11): refused with 0x0907 while a request of firmware is outstanding. -/
def controlRequest (p : PosIx) (op addr : Nat) (s : State) : State :=
  if s.bit (R.iglCstatBusy p) then lnkReason p 0x0907 (s.set1 (R.iglCstatErr p)) else
  let s := (s.wr (R.iglCcmdOp p) op).wr (R.iglCcmdAddr p) addr
  let s := (((s.set1 (R.iglCstatBusy p)).wr (R.iglCstatResult p) 0).wr (R.iglCstatTries p) 1).wr (R.iglCstatPstat p) 0
  creq p (op % 16) (addr % 2 ^ 24) (s.rd (R.iglCdataData p)) .firmware s

/-- The end of a request: 1 done, 2 refused by the PF8, 3 attempts exhausted. A table write of an engine counts only
when it is done. -/
def creqEnd (p : PosIx) (c : Creq) (result status data : Nat) (s : State) : State :=
  match c.owner with
  | .firmware =>
    let s := ((s.clr1 (R.iglCstatBusy p)).wr (R.iglCstatResult p) result).wr (R.iglCstatPstat p) status
    if result = 1 ∧ c.op = 1 then s.wr (R.iglCdataData p) data else s
  | .engine e => if result = 1 ∧ c.addr ≥ 0x1000 then s.updEng e fun x => { x with uploads := x.uploads - 1 } else s
  | .link => s
  | .cal => s

/-- A register write that the PF8 has executed (Table 9.6). DEDUCED: log 93. -/
def pf8Write (addr data : Nat) (f : Pf8State) : Pf8State :=
  let pu := (addr - 0x100) / 0x20
  let wk := (addr - 0x1000) / 0x80
  if addr = 8 then { f with ddown := data }
  else if addr = 0x14 then { f with fault := andNotBits f.fault data }
  else if addr = 0x20 then { f with lanesDropped := some (data % 4) }
  else if 0x100 ≤ addr ∧ pu < 8 then
    match (addr - 0x100) % 0x20 with
    | 0 => { f with zone := setNth f.zone pu (data % 64) }
    | 4 => { f with mode := setNth f.mode pu (data % 4) }
    | 8 => { f with sa := setNth f.sa pu data }
    | _ => f
  else if 0x1000 ≤ addr ∧ wk < 16 then { f with wick := Assoc.put addr data f.wick }
  else f

/-- The lane-change ALIGN blocks go out after the PF8's answer to DEGRADE (R263); they reseed the scramblers (R244). -/
def sendAlign (p : PosIx) (s : State) : State :=
  s.updIgl p fun g =>
    let seed := fun l => if bitAt (s.rd (R.iglStatLanes p)) l && g.degrading != some l then 0x12345670 + l else nth 0 g.txScr l
    { g with txScr := (List.range 4).map seed, tx := { g.tx with align := true } }

/-- A control response (R256): it completes the outstanding request of its SEQ and OP. -/
def crsp (p : PosIx) (seq op status data : Nat) (s : State) : State :=
  match s.pos[p].igl.out.find? fun c => c.seq == seq && c.op == op with
  | none => s
  | some c =>
    let s := s.updIgl p fun g => { g with out := g.out.filter fun x => x.seq != seq }
    let s := if status = 0 ∧ op = 2 then s.updPf8 p (pf8Write c.addr c.data) else s
    let s := creqEnd p c (if status = 0 then 1 else 2) status data s
    let s := if c.owner == .link && c.addr == 0x20 && s.pos[p].igl.degrading.isSome then
        sendAlign p (s.updIgl p fun g => { g with alignSent := true, aligned := 0 })
      else s
    creqSend p 8 s

/-- No response within 2 µs (R257): the request goes again with its SEQ; after the seventh attempt the channel stops
and every outstanding request completes with RESULT 3. DEDUCED: log 7. -/
def creqTimeout (p : PosIx) (seq : Nat) (s : State) : State :=
  match s.pos[p].igl.out.find? fun c => c.seq == seq with
  | none => s
  | some c =>
    if c.tries < 7 then
      let s := s.bump (R.iglCretryCount p) 1
      let s := if c.owner == .firmware then s.wr (R.iglCstatTries p) (c.tries + 1) else s
      s.updIgl p fun g => { g with out := g.out.map fun x => if x.seq == seq then { x with tries := x.tries + 1 } else x,
                                   tx := { g.tx with ctrl := g.tx.ctrl ++ [seq] } }
    else
      let l := s.pos[p].igl.out
      let s := lnkReason p 0x0904 (s.set1 (R.iglStatCtrlflt p))
      let s := s.updIgl p fun g => { g with out := [] }
      l.foldl (fun s c => creqEnd p c 3 0 0 s) s

/-- Lock events reach the engines that serve the pickups of a mask (R101, R257). -/
def lockSeen (p : PosIx) (mask : Nat) (on : Nat) (s : State) : State :=
  s.forEach allEng fun e s => match s.eng[e].home with
    | some (q, f) =>
      if !(q == p && bitAt mask f) then s else
      let s := s.wr (R.trStatLocked e) on
      if on = 0 && s.bit (R.rdStatBusy e) then s.set1 (R.rdStatLock e) else s
    | none => s

/-- Layers in use whose values were measured further than RECAL_DT from the pack temperature are queued (R237). -/
def recalCheck (p : PosIx) (s : State) : State :=
  let t := s.packs[p].temp
  let old := (s.packs[p].tempOf.filter fun e => 10 * (t - e.2).natAbs > 16 * s.policyOf 0x22 p).map (·.1)
  old.foldl (fun s l => queueRecal p l 255 0x3E s) s

/-- Whether the pack temperature holds back pours: from THERM_PACK on, until 2.0 °C below it (Table 11.6). -/
def packHot (s : State) (p : PosIx) (t : Int) : Bool :=
  let lim : Int := s.policyOf 0x60 p
  10 * t ≥ 16 * lim || (s.packs[p].hot && 10 * t > 16 * (lim - 20))

/-- A temperature that the PF8 reports (R232, R257). -/
def tempSeen (p : PosIx) (data : Nat) (s : State) : State :=
  let s := (s.set1 (R.calTempValid p)).wr (R.calTempTemp p) data
  let t := toSigned 16 data
  let hot := packHot s p t
  recalCheck p (s.updPack p fun k => { k with temp := t, hot := hot })

/-- A PF8 event (R257): lock to the engines, temperature to CAL_TEMPp, every one but temperature to IGL_EVT. -/
def cevt (p : PosIx) (code mask data : Nat) (s : State) : State :=
  if code = 3 then tempSeen p data s
  else
    let s := iglEvent p code mask data s
    if code = 1 then lockSeen p mask 1 s else if code = 2 then lockSeen p mask 0 s else s

/-- A lane fails (R263, R264). DEDUCED: log 92. -/
def laneFail (p : PosIx) (l : Fin 4) (s : State) : State :=
  if lnkState s p != lnkActive || !bitAt (s.rd (R.iglStatLanes p)) l || s.pos[p].igl.degrading == some l.val then s
  else
    let s := raiseSnuff p 5 (s.set1 (R.iglStatLanefail p))
    if s.bit (R.iglStatDegraded p) || s.pos[p].igl.degrading.isSome then linkDown p 0x0902 s
    else
      let s := s.updIgl p fun g => { g with degrading := some l, aligned := 0, alignSent := false }
      lnkReason p 0x0901 (requestDegraded p (creq p 2 0x20 l .link s))

/-- An upstream status block (R249): the copy of the lowest lane whose CRC holds. A reported laser or actuator fault
is a PF8 snuff source while it is reported (Table 3.5); a lane on which the far end has lost block lock has failed (R263). -/
def statusBlock (p : PosIx) (copies : List (Fin 4 × List Byte)) (s : State) : State :=
  let good := copies.filter fun c => leAt c.2 0 1 == 0x33 && leAt c.2 12 4 == crc32c (slice c.2 0 12)
  match (List.range 4).findSome? fun l => good.find? fun c => c.1.val == l with
  | none => s
  | some (_, b) =>
    let n := leAt b 3 1
    let s := s.bump (R.iglSvdnErr p) n
    let s := if n = 0 then s else s.updIgl p fun g => { g with downErrors := g.downErrors + n, downSeen := true }
    let fl := leAt b 4 2
    let s := s.updPf8 p fun f => { f with fault := fl, underrun := leAt b 6 1 }
    let s := if fl = 0 then releaseSnuff p 6 s else raiseSnuff p 6 (s.set1 (R.iglStatPf8flt p))
    let s := underrunSeen p (leAt b 6 1) s
    s.forEach (List.finRange 4) fun l s => if bitAt (leAt b 2 1) l then s else laneFail p l s

/-- The periodic ALIGN block on every active lane reseeds its scrambler (R244, R245). -/
def alignSend (p : PosIx) (s : State) : State := if lnkState s p == lnkActive then sendAlign p s else s

/-- The lane change is complete (R263): three-lane operation begins, and the link source releases. DEDUCED: log 92. -/
def laneChange (p : PosIx) (l : Nat) (s : State) : State :=
  let s := (s.clrBitOf (R.iglStatLanes p) l).set1 (R.iglStatDegraded p)
  let s := s.updIgl p fun g => { g with degrading := none, aligned := 0, alignSent := false }
  if linkFaulty s p then s else releaseSnuff p 5 s

/-- An ALIGN block from the PF8 (R244, R245, R263). -/
def alignReceived (p : PosIx) (l : Fin 4) (s : State) : State :=
  if lnkState s p != lnkActive then s else
  let s := s.updIgl p fun g => { g with rxScr := setNth g.rxScr l (0x12345670 + l) }
  match s.pos[p].igl.degrading with
  | none => s
  | some d =>
    if !s.pos[p].igl.alignSent || d = l then s else
    let s := s.updIgl p fun g => { g with aligned := setBit g.aligned l }
    let rest := (lanesOf (s.rd (R.iglStatLanes p))).filter fun x => x != d
    if rest.all fun x => bitAt s.pos[p].igl.aligned x then laneChange p d s else s

/-- A wick packet at the PF8 (R73, R74, R251, R255): `good`, its CRC holds and it is in time. The laser is driven from the
entries that its codes name, at its power scale. DEDUCED: log 93. -/
def pf8Wick (p : PosIx) (i : Nat) (good first last : Bool) (symcnt pscale : Nat) (codes : List Nat) (s : State) : State :=
  s.updPf8 p fun f =>
    if f.ignoreWick then f else
    let open_ := nth false f.gate i
    if !good || (open_ && !first && symcnt != nth 0 f.nextSym i) then
      { f with gate := setNth f.gate i false, underrun := setBit f.underrun i }
    else if !open_ && !first then f
    else
      let f := { f with gate := setNth f.gate i (!last), nextSym := setNth f.nextSym i ((symcnt + codes.length) % 2 ^ 32),
                        code := setNth f.code i (codes.getLast?.getD 0), scale := setNth f.scale i pscale }
      if first then { f with bank := setNth f.bank i (1 - nth 0 f.bank i) } else f

/-- The content of the downstream data slot of tick k (R248): the loops' codes, the low byte of tick k + 1, the CRC. -/
def downstreamContent (s : State) (p : PosIx) : List Byte :=
  let b := ((driveCodes s p).flatMap fun c => leBytes 2 (ofSigned 16 c)) ++ leBytes 1 (s.rd (R.srvTickTick p))
  b ++ leBytes 4 (crc32c b) ++ List.replicate 31 0

/-- The downstream servo data slot at the PF8 (R144, R145, R248, R254): the codes that it received wait for the boundary of
the tick they name; after three slots in error or missing it parks until three valid ones have come. `flips` is what the
lanes turned of the content sent, none where the slot is missing; an inactive link sends none. DEDUCED: log 93. -/
def downstreamSlot (p : PosIx) (flips : Option (List Byte)) (s : State) : State :=
  let sent := downstreamContent s p
  let got := if lnkState s p == lnkActive then flips.map fun x => xorBytes sent (slice x 0 84) else none
  s.updPf8 p fun f =>
    match got.bind fun c => if leAt c 49 4 == crc32c (slice c 0 49) then some c else none with
    | none =>
      let bad := f.bad + 1
      { f with bad := bad, good := 0, parked := f.parked || bad ≥ 3,
               gate := if bad ≥ 3 then List.replicate 8 false else f.gate }
    | some c =>
      let good := f.good + 1
      { f with bad := 0, good := good, parked := f.parked && good < 3,
               nextCodes := some ((List.range 24).map fun i => toSigned 16 (leAt c (2 * i) 2)) }

/-- LINK_ENABLE. -/
def execLinkEnable (p : PosIx) (on : Bool) (s : State) : Out := atPos p (linkEnable p on) s
/-- LINK_TRAIN. -/
def execLinkTrain (p : PosIx) (s : State) : Out := atPos p (linkTrain p) s
/-- TRAINING_DONE. -/
def execTrainingDone (p : PosIx) (x : Training) (s : State) : Out := atPos p (trainingDone p x) s
/-- UPSTREAM_SERVO_SLOT. -/
def execUpstreamServoSlot (p : PosIx) (blocks : List Block) (s : State) : Out := atPos p (upstreamSlot p blocks) s
/-- SERVO_LINK_FAULT. -/
def execServoLinkFault (p : PosIx) (s : State) : Out := atPos p (servoLinkFault p) s
/-- STATUS_BLOCK. -/
def execStatusBlock (p : PosIx) (copies : List (Fin 4 × List Byte)) (s : State) : Out := atPos p (statusBlock p copies) s
/-- SNUFF_BLOCK. -/
def execSnuffBlock (p : PosIx) (source mask : Fin 256) (s : State) : Out := atPos p (snuffBlock p source mask) s
/-- CONTROL_REQUEST. -/
def execControlRequest (p : PosIx) (op addr : Nat) (s : State) : Out := atPos p (controlRequest p op addr) s
/-- CRSP. -/
def execCrsp (p : PosIx) (seq op status data : Nat) (s : State) : Out := atPos p (crsp p seq op status data) s
/-- CREQ_TIMEOUT. -/
def execCreqTimeout (p : PosIx) (seq : Nat) (s : State) : Out := atPos p (creqTimeout p seq) s
/-- CEVT. -/
def execCevt (p : PosIx) (code mask data : Nat) (s : State) : Out := atPos p (cevt p code mask data) s
/-- LANE_FAIL. -/
def execLaneFail (p : PosIx) (l : Fin 4) (s : State) : Out := atPos p (laneFail p l) s
/-- ALIGN_SEND. -/
def execAlignSend (p : PosIx) (s : State) : Out := atPos p (alignSend p) s
/-- ALIGN_RECEIVED. -/
def execAlignReceived (p : PosIx) (l : Fin 4) (s : State) : Out := atPos p (alignReceived p l) s
/-- DOWNSTREAM_SERVO_SLOT. -/
def execDownstreamServoSlot (p : PosIx) (flips : Option (List Byte)) (s : State) : Out := atPos p (downstreamSlot p flips) s

end Sys2Proof.Machine
end

