-- ==== Sys2Proof/Machine/Pours.lean ====
section
/-! DEFINITION. What casting is built from: the ledger queue, casts and ranks, assignment and padding, the tundish,
re-pour and failure, and the ends of writes (chapters 2, 3 and 11). -/

namespace Sys2Proof.Machine

/-- User codewords of a rank and of a cast. -/
def rankCw : Nat := 96
def castCw : Nat := 12288

/-- A logical rank at its first assignment, in its home slot. -/
def rankFresh (n : Nat) : Rank :=
  { n := n, assigned := 0, pads := 0, valids := [], tiles := [], fill := List.replicate 6 0, force := false,
    begun := false, idle := false, phase := .filling, slot := homeSlot n, prev := homeSlot n, reason := 0, repour := 0,
    posted := 0, passed := 0, judged := 0, cipher := [], frames := [], bad := 0, abandoned := false }

/-- Bits lo up to, not including, hi. -/
def maskOf (lo hi : Nat) : Nat := 2 ^ hi - 2 ^ lo

/-- User codewords lo to hi - 1 of a rank assigned, as padding or as data whose last codeword holds `valid` bytes. -/
def assignIn (lo hi : Nat) (pad : Bool) (valid : Nat) (force : Bool) (r : Rank) : Rank :=
  { r with assigned := hi, pads := if pad then orBits r.pads (maskOf lo hi) else r.pads,
           valids := if !pad && valid < 4096 then r.valids ++ [(hi - 1, valid)] else r.valids,
           force := r.force || (force && !pad) }

/-- User codewords u to u + cnt - 1 of cast m assigned (R63 to R67). -/
def assignCw (p : PosIx) (m u cnt : Nat) (pad : Bool) (valid : Nat) (force : Bool) (s : State) : State :=
  let ks := (List.range 128).filter fun i => u < rankCw * (i + 1) && rankCw * i < u + cnt
  ks.foldl (fun s i =>
    let n := 128 * m + i
    let lo := max u (rankCw * i) - rankCw * i
    let hi := min (u + cnt) (rankCw * (i + 1)) - rankCw * i
    let s := if (rankOf s p n).isSome then s
      else updCast p m (fun c => { c with ranks := c.ranks ++ [rankFresh n] }) s
    let last := rankCw * i + hi == u + cnt
    updRanks p n (assignIn lo hi pad (if last then valid else 4096) force) s) s

/-- The end of the last data codeword of frame k, in bytes of its tile. -/
def dataEnd (r : Rank) (k : Nat) : Nat :=
  ((List.range 16).foldl (fun e c => if 16 * k + c < r.assigned && !bitAt r.pads (16 * k + c) then c + 1 else e) 0) * 4096

/-- Whether every byte assigned to a rank is staged. -/
def rankStaged (r : Rank) : Bool := (List.range 6).all fun k => dataEnd r k ≤ nth 0 r.fill k

/-- The moments of R67 at which a rank becomes ready. -/
def rankDue (r : Rank) : Bool :=
  r.phase == .filling && r.assigned > 0 && rankStaged r && (r.assigned == rankCw || r.force || r.idle)

/-- A rank becomes ready when it is due (R67): its unassigned rest is padded and the append point moves on. -/
def readyRank (p : PosIx) (n : Nat) (s : State) : State :=
  match rankOf s p n with
  | none => s
  | some r =>
    if !rankDue r then s else
    let s := updRanks p n (fun r => { assignIn r.assigned rankCw (r.assigned < rankCw) 4096 false r with phase := .ready }) s
    let m := n / 128
    if s.packs[p].open_ == some m then
      let a := max s.packs[p].append (rankCw * (n % 128 + 1))
      if a ≥ castCw then updCast p m (fun c => { c with filled := true }) (s.updPack p fun k => { k with open_ := none, append := 0 })
      else s.updPack p fun k => { k with append := a }
    else s

/-- Every rank of a cast is looked at again. -/
def readyCast (p : PosIx) (m : Nat) (s : State) : State :=
  match castOf s p m with
  | none => s
  | some c => c.ranks.foldl (fun s r => readyRank p r.n s) s

/-- Whether cast m may open (R49, R50, R64): never opened, not recorded, not barred, its riser not nearly full, its
home slots not dead. DEDUCED: log 52. -/
def castMayOpen (s : State) (p : PosIx) (m : Nat) : Bool :=
  let k := s.packs[p]
  m < casts && !k.casts.any (fun c => c.m == m) && !k.recorded.contains m && !k.barred.contains m &&
  riserLeft s p (castLayer m) ≥ 128 &&
  !k.dead.any fun d => d.1 == castLayer m && homeSlot (128 * m) ≤ d.2 && d.2 < homeSlot (128 * m) + 128

/-- Cast m opens and becomes the open cast (R63); CAST_OPEN is appended. -/
def openCast (p : PosIx) (m : Nat) (s : State) : State :=
  let c : Cast := { m := m, ranks := [], filled := false, opened := s.rd R.timeNowNs, first := none, failed := none,
                    digest := none, recSeq := none, verified := false, closed := false, visit := false }
  jappend p (.castOpen m (castLayer m) p.val)
    (s.updPack p fun k => { k with casts := k.casts ++ [c], open_ := some m, append := 0 })

/-- The open cast's append point moves; at its end the cast is filled. -/
def appendTo (p : PosIx) (m a : Nat) (s : State) : State :=
  if a ≥ castCw then updCast p m (fun c => { c with filled := true }) (s.updPack p fun k => { k with open_ := none, append := 0 })
  else s.updPack p fun k => { k with append := a }

/-- The open cast is padded up to user codeword u (R65 to R67). -/
def padTo (p : PosIx) (u : Nat) (s : State) : State :=
  match s.packs[p].open_ with
  | none => s
  | some m =>
    let a := s.packs[p].append
    if u ≤ a then s else readyCast p m (appendTo p m u (assignCw p m a (u - a) true 4096 false s))

/-- Tiles of mirror region 0, mounted packs, a pack's share, and the tiles it holds (R61). A pack is mounted until its UNMOUNT
has released its tiles. -/
def tundishTiles (s : State) : Nat := if mirOn s 0 then mirSize s 0 / 65536 else 0
def holdsShare (k : PackState) : Bool := k.status == .mounted || (k.status == .unmounting && !k.goOff)
def mountedPacks (s : State) : Nat := (allPos.filter fun p => holdsShare s.packs[p]).length
def tundishShare (s : State) : Nat := tundishTiles s / max 1 (mountedPacks s)
def tilesHeld (s : State) (p : PosIx) : Nat :=
  ((s.packs[p].casts.map fun c => (c.ranks.map fun r => r.tiles.length).foldl (· + ·) 0)).foldl (· + ·) 0

/-- A free tile of mirror region 0 that is opened for staging; none where it cannot be. DEDUCED: log 59. -/
def takeTile (t : Nat) (s : State) : Option State :=
  if tileOk s t && inMir s 0 (t * 65536) && (sealGet s t).state == tileFree then some (tileOpenAct t (sealGet s t) s)
  else none

/-- Both copies of a tile are released (R62). -/
def freeTile (t : Nat) (s : State) : State :=
  let r := sealGet s t
  if r.use > 0 then s else sealPut t { r with state := tileFree } s

/-- Bytes staged at a byte offset of rank n, within one data frame (R61, R352). A new frame takes tile `t`; codewords
of padding before the offset are zero-filled; `fin` zero-fills the last codeword. None where the bytes cannot yet be
staged: bytes before them are outstanding, the pack's share is full, or the tile is not free. -/
def stageAt (who : Requester) (p : PosIx) (n off : Nat) (l : List Byte) (fin : Bool) (t : Nat) (s : State) : Option State :=
  (rankOf s p n).bind fun r =>
  let k := off / 65536
  let at_ := off % 65536
  let have_ := nth 0 r.fill k
  let gap := (List.range 16).all fun c =>
    !(have_ ≤ 4096 * c && 4096 * c + 4096 ≤ at_) || bitAt r.pads (16 * k + c)
  if k ≥ 6 || at_ < have_ || at_ + l.length > 65536 || !(at_ = have_ || (have_ % 4096 = 0 && at_ % 4096 = 0 && gap)) then none
  else
    let got := match Assoc.get k r.tiles with
      | some t => some (t, s)
      | none => if tilesHeld s p ≥ tundishShare s then none else (takeTile t s).map fun s => (t, s)
    got.bind fun (t, s) =>
      let tail := if fin then (4096 - (at_ + l.length) % 4096) % 4096 else 0
      let (ok, s) := sealingWrite who t have_ (List.replicate (at_ - have_) 0 ++ l ++ List.replicate tail 0) s
      if !ok then none else
      let first := !r.begun
      some (updRanks p n (fun r => { r with tiles := Assoc.put k t r.tiles, fill := setNth r.fill k (at_ + l.length + tail),
                                            begun := r.begun || first }) s)

/-- A committed journal entry of the pack of position p. -/
def inJournal (s : State) (p : PosIx) (g : JBody → Bool) : Bool :=
  s.journal.entries.any fun e => e.tag == s.packs[p].tag && g e.body
/-- An entry appended and not yet committed. -/
def inPending (s : State) (p : PosIx) (g : JBody → Bool) : Bool :=
  s.journal.pend.any fun e => e.tag == s.packs[p].tag && g e.body

/-- Whether rank n is cast and its RANK_CAST entry is committed (R68). -/
def rankDone (s : State) (p : PosIx) (n : Nat) : Bool :=
  s.packs[p].recorded.contains (n / 128) ||
  (((rankOf s p n).map (·.phase)) == some RankPhase.cast && inJournal s p fun b => match b with
    | .rankCast m .. => m == n
    | _ => false)

/-- User codewords u0 up to u1 of the volume become padding in ranks not yet assembled. -/
def padCw (p : PosIx) (u0 u1 : Nat) (s : State) : State :=
  if u1 ≤ u0 then s else
  ((List.range ((u1 - 1) / rankCw - u0 / rankCw + 1)).map (u0 / rankCw + ·)).foldl (fun s n =>
    let lo := max u0 (n * rankCw) - n * rankCw
    let hi := min u1 ((n + 1) * rankCw) - n * rankCw
    updRanks p n (fun r => if r.phase == .filling || r.phase == .ready then
      { r with pads := orBits r.pads (maskOf lo hi), valids := r.valids.filter fun v => !(lo ≤ v.1 && v.1 < hi) } else r) s) s

/-- The codeword in which the staged bytes of a write end is filled with zeros; its VALID counts the staged bytes. -/
def sealTail (p : PosIx) (a : Nat) (s : State) : State :=
  if a % 4096 = 0 then s else
  let n := a / rankBytes
  let s := updRanks p n (fun r => { r with valids := (r.valids.filter fun v => v.1 != a % rankBytes / 4096) ++ [(a % rankBytes / 4096, a % 4096)] }) s
  (stageAt (.hqi 0) p n (a % rankBytes) [] true 0 s).getD s

/-- Every cast of a range is looked at for ranks that became ready. -/
def readyRange (p : PosIx) (a len : Nat) (s : State) : State := (castsOf a len).foldl (fun s m => readyCast p m s) s

/-- The part of a write's range that is not staged becomes padding, listed with cause 6 (R310, Table 11.3). DEDUCED: log 58. -/
def padUnstaged (p : PosIx) (a len moved reason : Nat) (s : State) : State :=
  if moved ≥ len then s else
  let s := sealTail p (a + moved) s
  let s := padCw p ((a + moved + 4095) / 4096) ((a + len + 4095) / 4096) s
  readyRange p a len (uncastAdd p (a + moved) (len - moved) 6 reason s)

/-- What stopping a command does to its work (Table 11.1): a write keeps what is staged and pads the rest. -/
def stopWork (t : Tag) (reason : Nat) (s : State) : State :=
  match t.work with
  | .write p a len moved _ => padUnstaged p a len moved reason s
  | _ => s

/-- Whether a write has its end (R59, R68, R92): every byte staged, its ASSIGN entries committed and, with FORCE, its
ranks cast and journalled. -/
def writeDone (s : State) (t : Tag) : Bool :=
  match t.work with
  | .write p vaddr len moved force =>
    !t.done && moved ≥ len && !inPending s p (fun b => match b with | .assign _ _ _ a => a == t.aseq | _ => false) &&
      (!force || (ranksOf vaddr len).all (rankDone s p))
  | _ => false

/-- Whether a FORCE write waits for a cast that has failed (R89), whether or not all its data has come. -/
def writeFailed (s : State) (t : Tag) : Bool :=
  match t.work with
  | .write p vaddr len _ force => !t.done && force && (castsOf vaddr len).any (castFailedAt s p)
  | _ => false

/-- FORCE writes whose cast has failed complete with class 2 (R89), other writes that have their end with class 0. -/
def endWrites (s : State) : State :=
  let s := (s.hqi.tags.filter (writeFailed s)).foldl (fun s t => finish t.num 2 0x0409 (workResult t) (stopWork t 0x0409 s)) s
  (s.hqi.tags.filter (writeDone s)).foldl (fun s t => match t.work with
    | .write p vaddr len _ _ => finish t.num 0 0 (writeResult p vaddr len) s
    | _ => s) s

/-- The verdicts of a rank on a layer, by surface (R88): `failed` failed verify, `judged` had a verdict. A surface that fails
twice in succession is queued for recalibration; one without a verdict keeps what its last one was. -/
def noteVerify (p : PosIx) (layer judged failed : Nat) (s : State) : State :=
  let again := ((List.range 8).filter fun f => bitAt failed f && s.packs[p].failed2.contains (f, layer)).foldl setBit 0
  let now := ((List.range 8).filter (bitAt failed)).map fun f => (f, layer)
  let s := s.updPack p fun k => { k with failed2 := (k.failed2.filter fun e => e.2 != layer || !bitAt judged e.1) ++ now }
  if again = 0 then s else queueRecal p layer again 0x1E s

/-- Records packed into segments in order (R53): 32 slots each, a record wholly within one, a WRAPPED_KEY alone in its own
(R459). -/
def addSeg (segs : List (List LRec)) (r : LRec) : List (List LRec) :=
  match segs.getLast? with
  | some g => if r.body.type = 3 || g.length ≥ 32 || g.any (fun x => x.body.type == 3) then segs ++ [[r]] else segs.dropLast ++ [g ++ [r]]
  | none => [[r]]
def packSegs (l : List LRec) : List (List LRec) := l.foldl addSeg []
def segCount (l : List LRec) : Nat := (packSegs l).length

/-- The 4,096 bytes of a segment: the slots after its last record are zero (R53). -/
def segBytes (g : List LRec) : List Byte := slice ((g.map LRec.bytes).flatten) 0 4096

/-- Whether a pause of a completion queue holds the pour of a position (R290): one of its writes completes to that queue. The pour
is paused as a whole. -/
def pourPaused (s : State) (p : PosIx) : Bool := s.hqi.tags.any fun t => !t.done && !t.orphan && cqPaused s t && match t.work with
  | .write q _ _ _ _ => q == p
  | _ => false

/-- Whether every read or verify of a position that has not ended waits for a paused completion queue (R290), and there is one. -/
def readsPaused (s : State) (p : PosIx) : Bool :=
  let l := s.hqi.tags.filter fun t => !t.done && !t.orphan && match t.work with
    | .read q _ _ _ _ _ _ _ => q == p
    | _ => false
  !l.isEmpty && l.all (cqPaused s)

/-- Whether a trigger of R93 calls for a ledger pour. -/
def ledgerDue (s : State) (p : PosIx) : Bool :=
  let k := s.packs[p]
  let waiting := (k.lq.filter fun r => r.body.type == 4).length
  !k.lq.isEmpty && (k.flushDue || waiting ≥ max 1 (s.policyOf 0x03 p) || 4 * tilesHeld s p > 3 * tundishShare s ||
    k.status == .unmounting || k.lq.any fun r => r.body.type != 4 && r.body.type != 5)

end Sys2Proof.Machine
end

