-- ==== Sys2Proof/Machine/Admission.lean ====
section
/-! DEFINITION. Admission (R306 to R312, R338): the checks in their order, sequence numbers, and the assignment of
writes (R64 to R67). -/

namespace Sys2Proof.Machine

/-- n bytes of an entry are zero. -/
def zeros (e : List Byte) (at_ n : Nat) : Bool := leAt e at_ n == 0

/-- The CSP bytes that a queue-management command lists, as (byte, count) (Table 10.7). -/
def qmListed : Nat → List (Nat × Nat)
  | 1 => [(32, 3), (36, 7)] | 2 => [(32, 3), (36, 5)] | 3 => [(32, 2)] | 4 => [(32, 2)] | 5 => [(32, 3)]
  | 6 => [(32, 4)] | 7 => [(32, 1), (34, 8)] | _ => []

/-- A queue-management command (Table 10.6). -/
def isQm (op : Nat) : Bool := 1 ≤ op && op ≤ 7

/-- Check 1: reserved bytes and flags (R275, R285). -/
def check1 (e : List Byte) : Option Nat :=
  let op := leAt e 0 1
  let common := zeros e 4 12 && zeros e 29 3 && zeros e 56 7 && leAt e 63 1 % 128 == 0 && leAt e 28 1 ≤ 2 && leAt e 1 1 / 16 == 0
  let unlisted := (List.range 24).all fun i => zeros e (32 + i) 1 || (qmListed op).any fun r => r.1 ≤ 32 + i && 32 + i < r.1 + r.2
  let qm := zeros e 24 4 && zeros e 28 1 && (op ≤ 2 || zeros e 16 8) && unlisted
  if common && (!isQm op || qm) then none else some 0x0115

/-- Opcodes listed (Table 11.1), those of F0 alone, and those that may be aborted. -/
def opKnown (op : Nat) : Bool :=
  (1 ≤ op && op ≤ 0x0B) || (0x10 ≤ op && op ≤ 0x15) || op == 0x20 || op == 0x21 || (0x80 ≤ op && op ≤ 0x85)
def opF0 (op : Nat) : Bool := op == 7 || op == 0x0A || op == 0x0B || (0x10 ≤ op && op ≤ 0x14) || op == 0x20 || op == 0x21
def opAbortable (op : Nat) : Bool := op == 8 || op == 9 || op == 0x20 || (0x80 ≤ op && op ≤ 0x85)

/-- Check 2: opcode and queue (R306). -/
def check2 (f : FnIx) (sqid op : Nat) : Option Nat :=
  if !opKnown op then some 0x0202
  else if (op < 0x80) != (sqid == 0) then some 0x010B
  else if opF0 op && f.val != 0 then some 0x010B
  else none

/-- Pages of one pack (Table 11.7). DEDUCED: log 64. -/
def packPage (page : Nat) : Bool := page == 2 || page == 6

/-- A position number that a command names; on GET_LOG for a pack page its byte 33 (R307, R332). -/
def posField (t : Tag) : Option Nat :=
  if opHasAddr t.op then some (posOfAddr (t.csp 32 8))
  else if opHasPos t.op then some (t.csp 32 1)
  else if t.op == 8 && packPage (t.csp 32 1) then some (t.csp 33 1)
  else none

/-- Whether the part offers a position and the option bytes enable it (R2, R307). -/
def posUsable (s : State) (n : Nat) : Bool := n < 8 && (s.part == .oa824 || n < 4) && bitAt (s.rd R.lampOptPosEn) n

/-- Whether position n is granted to a function; F0 holds every position (R307). -/
def granted (s : State) (f : FnIx) (n : Nat) : Bool := f.val == 0 || bitAt s.fns[f].grant n

/-- Check 3: position (R307). A log page of a position not granted reads as zeros instead (R332). -/
def check3 (s : State) (t : Tag) : Option Nat :=
  match posField t with
  | none => none
  | some n => if !posUsable s n then some 0x0201 else if t.op != 8 && !granted s t.fn n then some 0x0203 else none

/-- A FORMAT of position p admitted and not ended. -/
def formatAdmitted (s : State) (p : PosIx) : Bool :=
  s.hqi.tags.any fun t => t.op == 0x13 && t.posNamed == some p && t.aseq > 0 && !t.done

/-- Check 4: pack state (Table 11.12). -/
def check4 (s : State) (t : Tag) : Option Nat :=
  match t.posNamed with
  | none => none
  | some p =>
    let k := s.packs[p]
    let op := t.op
    let data := 0x80 ≤ op && op ≤ 0x83
    let write := op == 0x80 || op == 0x81
    if op == 0x10 then none
    else if k.status != .mounted then some 0x0402
    else if (k.fmt.isSome || formatAdmitted s p) && op != 0x11 && op != 0x12 then some 0x0408
    else if k.blank && (data || op == 0x15) then some 0x0407
    else if k.keyGone && data then some 0x040E
    else if k.san && op == 0x14 then some 0x0408
    else if !k.blank && op == 0x13 then some 0x0406
    else if (k.roReason != 0 || k.roMount) && write then some 0x0405
    else none

/-- Flags that each command takes (Table 11.2). DEDUCED: log 51. -/
def flagsOf (op : Nat) : Nat :=
  if op == 0x80 || op == 0x81 then 3 else if op == 0x82 then 6 else if op == 0x83 then 4 else if op == 0x84 || op == 0x85 then 8 else 0

/-- Volume address of a data command, and whether READ has DECOMP, a write COMPRESS. -/
def Tag.vaddr (t : Tag) : Nat := t.csp 32 8 % 2 ^ 45
def Tag.decomp (t : Tag) : Bool := t.op == 0x82 && bitAt t.flags 1
def Tag.compress (t : Tag) : Bool := (t.op == 0x80 || t.op == 0x81) && bitAt t.flags 1

/-- Volume bytes that a READ or VERIFY names. -/
def Tag.span (t : Tag) : Nat :=
  if t.op == 0x83 then t.csp 40 8 else if t.decomp then 4096 * t.csp 40 4 else t.dlen

/-- Whether a command's length lies within its limits (R311, R319, R331, R332). DEDUCED: log 51. -/
def lengthOk (t : Tag) : Bool :=
  let n := t.dlen
  match t.op with
  | 0x08 => 1 ≤ n && n ≤ 1048576
  | 0x0A => n % 16 == 0 && 16 ≤ n && n ≤ 1024
  | 0x80 => 1 ≤ n && n ≤ 16777216
  | 0x81 => 1 ≤ n && n ≤ 16777216
  | 0x82 => 1 ≤ n && n ≤ 16777216 && (if t.decomp then 1 ≤ t.csp 40 4 && t.csp 40 4 ≤ 4608 else t.csp 40 4 == n)
  | 0x83 => 1 ≤ t.csp 40 8 && t.csp 40 8 ≤ 2 ^ 40
  | 0x84 => n ≤ 16777216 && 1 ≤ t.csp 40 4 && t.csp 40 4 ≤ 16777216
  | 0x85 => n ≤ 16777216 && 1 ≤ t.csp 40 4 && t.csp 40 4 ≤ 16777216
  | _ => true

/-- Whether a command's controller address is one it may name, for `n` bytes (R58, R311, R319). DEDUCED: log 51. -/
def addrOk (t : Tag) (n : Nat) : Bool :=
  let a := t.vaddr
  !opHasAddr t.op || (t.csp 32 8 < 2 ^ 48 && match t.op with
  | 0x80 => a == 0
  | 0x81 => a % rankBytes == 0 && a + n ≤ volBytes
  | 0x15 => true
  | _ => a + n ≤ volBytes && (!t.decomp || a % 4096 == 0))

/-- A log page is known (Table 11.7), and open to a function (R332). -/
def pageKnown (page : Nat) : Bool := page ≤ 8

/-- EVENT_WAIT commands of a function that wait (R333). -/
def eventWaits (s : State) (f : FnIx) : Nat := (s.hqi.tags.filter fun t => t.fn == f && t.work == .event && !t.done).length

/-- Check 5: flags, parameter values, lengths and addresses (R311 and the commands' own ranges). DEDUCED: log 51. -/
def check5 (s : State) (t : Tag) : Option Nat :=
  let op := t.op
  if andNotBits t.flags (flagsOf op) != 0 || (op == 0x82 && t.flags == 6) then some 0x0209
  else if op == 0x0B && !(1 ≤ t.csp 32 1 && t.csp 32 1 ≤ 15) then some 0x0211
  else if op == 0x12 && !((t.csp 33 1 == 1 || t.csp 33 1 == 2) && t.csp 34 1 ≤ 2) then some 0x0211
  else if op == 0x14 && !(t.csp 33 1 == 1 || t.csp 33 1 == 2) then some 0x0211
  else if op == 8 && !pageKnown (t.csp 32 1) then some 0x020E
  else if op == 8 && t.fn.val != 0 && t.csp 32 1 > 4 then some 0x010B
  else if op == 9 && eventWaits s t.fn ≥ 4 then some 0x020D
  else if !lengthOk t then some 0x0208
  else if !addrOk t (if op == 0x81 then t.dlen else t.span) then some 0x0206
  else none

/-- The first byte from lo on that no interval covers, at most hi. -/
def coverTo (l : List (Nat × Nat)) (hi : Nat) : Nat → Nat → Nat
  | 0, lo => lo
  | n + 1, lo =>
    if hi ≤ lo then lo else
    match l.find? fun x => x.1 ≤ lo && lo < x.2 with
    | some x => coverTo l hi n x.2
    | none => lo

/-- Whether every byte of a range of one rank was assigned (R310): its cast is recorded, the byte is assigned in a cast
that has not failed, its RANK_CAST entry is kept, or log page 0x02 lists it. -/
def rankAssigned (s : State) (p : PosIx) (n lo hi : Nat) : Bool :=
  let k := s.packs[p]
  k.recorded.contains (n / 128) || inJournal s p (fun b => match b with | .rankCast m .. => m == n | _ => false) ||
    let own := match castOf s p (n / 128), rankOf s p n with
      | some c, some r => if c.failed.isNone then [(n * rankBytes, n * rankBytes + 4096 * r.assigned)] else []
      | _, _ => []
    let listed := k.uncast.map fun u => (u.addr % 2 ^ 45, u.addr % 2 ^ 45 + u.len)
    coverTo (own ++ listed) hi (k.uncast.length + 2) lo ≥ hi

/-- Whether every byte of a volume range was assigned. -/
def assigned (s : State) (p : PosIx) (a len : Nat) : Bool :=
  (ranksOf a len).all fun n => rankAssigned s p n (max a (n * rankBytes)) (min (a + len) ((n + 1) * rankBytes))

/-- Whether a cast has opened. -/
def castOpened (s : State) (p : PosIx) (m : Nat) : Bool :=
  s.packs[p].casts.any (fun c => c.m == m) || s.packs[p].recorded.contains m

/-- Check 6: overlap (R310). -/
def check6 (s : State) (t : Tag) (len : Nat) : Option Nat :=
  match t.posNamed with
  | none => none
  | some p =>
    let a := t.vaddr
    if t.op == 0x81 then
      if (castsOf a len).any fun m => castOpened s p m &&
          !(s.packs[p].open_ == some m && m * castBytes + 4096 * s.packs[p].append ≤ max a (m * castBytes)) then some 0x0205 else none
    else if (t.op == 0x82 || t.op == 0x83) && !assigned s p a t.span then some 0x0207
    else none

/-- The lowest number from m on that a test accepts, among n. -/
def lowestFrom (ok : Nat → Bool) : Nat → Nat → Option Nat
  | 0, _ => none
  | n + 1, m => if ok m then some m else lowestFrom ok n (m + 1)

/-- The cast that R64 chooses for an APPEND. -/
def nextCast (s : State) (p : PosIx) : Option Nat := lowestFrom (castMayOpen s p) casts 0

/-- Whether an APPEND of cnt codewords starts at the append point (R65). -/
def runsOn (s : State) (p : PosIx) (m cnt : Nat) : Bool :=
  s.packs[p].append + cnt ≤ castCw || castMayOpen s p (m + 1)

/-- Where an APPEND of cnt codewords starts: its cast, and whether the open cast is left (R64, R65). -/
def appendCast (s : State) (p : PosIx) (cnt : Nat) : Option (Nat × Bool) :=
  match s.packs[p].open_ with
  | some m => if runsOn s p m cnt then some (m, false) else (nextCast s p).map fun n => (n, true)
  | none => (nextCast s p).map fun n => (n, true)

/-- The checks of R312 beyond the pack's state: 0x040F for an APPEND, 0x0411 for a PLACE. DEDUCED: log 52. -/
def checkOpen (s : State) (t : Tag) (len : Nat) : Option Nat :=
  match t.posNamed with
  | none => none
  | some p =>
    if t.op == 0x80 then (if (appendCast s p ((len + 4095) / 4096)).isNone then some 0x040F else none)
    else if t.op == 0x81 then
      (if (castsOf t.vaddr len).any fun m => s.packs[p].open_ != some m && !castMayOpen s p m then some 0x0411 else none)
    else none

/-- Codewords assigned from the append point of the open cast on, running on into the next cast (R65, R66). -/
def assignRun (p : PosIx) (m u cnt valid : Nat) (force : Bool) (s : State) : State :=
  let here := min cnt (castCw - u)
  let rest := cnt - here
  let s := appendTo p m (u + here) (assignCw p m u here false (if rest = 0 then valid else 4096) force s)
  if rest = 0 then s
  else appendTo p (m + 1) rest (assignCw p (m + 1) 0 rest false valid force (openCast p (m + 1) s))

/-- One ASSIGN entry for each cast that the data of a write touches (R92). -/
def assignEntries (p : PosIx) (a len aseq : Nat) (s : State) : State :=
  (castsOf a len).foldl (fun s m =>
    let lo := max a (m * castBytes)
    let hi := min (a + len) ((m + 1) * castBytes)
    jappend p (.assign m lo (hi - lo) aseq) s) s

/-- The VALID of the codeword that holds the last byte of len bytes (R65). -/
def lastValid (len : Nat) : Nat := if len % 4096 = 0 then 4096 else len % 4096

/-- An APPEND of len bytes takes its range (R64, R65): its volume address. -/
def assignAppend (p : PosIx) (len : Nat) (force : Bool) (s : State) : Nat × State :=
  let cnt := (len + 4095) / 4096
  match appendCast s p cnt with
  | none => (0, s)
  | some (m, fresh) =>
    let s := if fresh then openCast p m (padTo p castCw s) else s
    let u := s.packs[p].append
    (m * castBytes + 4096 * u, assignRun p m u cnt (lastValid len) force s)

/-- A PLACE of len bytes takes its range (R66). DEDUCED: log 52. -/
def assignPlace (p : PosIx) (a len : Nat) (force : Bool) (s : State) : State :=
  let m := a / castBytes
  let u := a % castBytes / 4096
  let s := if s.packs[p].open_ == some m then s else openCast p m (padTo p castCw s)
  assignRun p m u ((len + 4095) / 4096) (lastValid len) force (padTo p u s)

/-- The assignment of an admitted write of len bytes (R309): its work, with its first volume byte. DEDUCED: log 52. -/
def assignWrite (n : Nat) (len : Nat) (s : State) : State :=
  match tagOf s n with
  | none => s
  | some t =>
    match t.posNamed with
    | none => s
    | some p =>
      let force := bitAt t.flags 0
      let (a, s) := if t.op == 0x80 then assignAppend p len force s else (t.vaddr, assignPlace p t.vaddr len force s)
      let s := assignEntries p a len t.aseq s
      updTag n (fun t => { t with work := .write p a len 0 force }) s

/-- The next admission sequence number (R309), and the policy that governs the command from here on (R331). DEDUCED: log 53. -/
def issueAseq (n : Nat) (s : State) : State :=
  let a := s.hqi.aseq
  let s := s.updHqi fun h => { h with aseq := a + 1, aseqEnd := if a + 1 < h.aseqEnd then h.aseqEnd else h.aseqEnd + 2 ^ 32 }
  updTag n (fun t => { t with aseq := a, policy := s.policy }) s

/-- The elements of a scatter list as (address, length), where it keeps R276 for a total of `left` bytes. DEDUCED: log 54. -/
def sglPieces : List (List Byte) → Nat → Option (List (Nat × Nat))
  | [], left => if left = 0 then some [] else none
  | e :: t, left =>
    if left = 0 then some []
    else if leAt e 8 4 = 0 || leAt e 12 4 != 0 || leAt e 8 4 > left then none
    else (sglPieces t (left - leAt e 8 4)).map fun l => (leAt e 0 8, leAt e 8 4) :: l

/-- The pieces of host memory that a data pointer names (R276); none where it breaks the rule. DEDUCED: log 54. -/
def dataPieces (e : List Byte) (sgl : List (List Byte)) : Option (List (Nat × Nat)) :=
  match leAt e 28 1 with
  | 0 => if zeros e 16 8 && zeros e 24 4 then some [] else none
  | 1 => if leAt e 24 4 = 0 then none else some [(leAt e 16 8, leAt e 24 4)]
  | _ => if leAt e 16 8 % 16 = 0 then sglPieces (sgl.take 65536) (leAt e 24 4) else none

/-- Whether a command's data pointer keeps R276; a queue-management command has none (R285), DISCARD_RANGE takes none
(R319). DEDUCED: log 54. -/
def pointerOk (t : Tag) : Bool := isQm t.op || (t.ptrOk && (t.op != 0x15 || leAt t.sqe 28 1 == 0))

/-- Commands that recovery mode accepts (R441). -/
def recoveryOk (t : Tag) : Bool := t.op == 0x20 || t.op == 0x21 || (t.op == 8 && t.csp 32 1 == 0)

/-- Checks 1 to 6 of R308 for a command whose write, if it is one, has len bytes. -/
def admitChecks (s : State) (t : Tag) (len : Nat) : Option Nat :=
  check1 t.sqe <|> check2 t.fn t.sqid t.op <|> check3 s t <|> check4 s t <|> check5 s t <|>
    (if t.compress then none else check6 s t len <|> checkOpen s t len)

/-- What an admitted command's work is (R308, R309, R322): a write takes its range, a pack that UNMOUNT names takes no
new command. DEDUCED: log 54. -/
def admitWork (n : Nat) (s : State) : State :=
  match tagOf s n with
  | none => s
  | some t =>
    let work := fun (w : Work) (s : State) => updTag n (fun t => { t with work := w }) s
    match t.posNamed with
    | some p =>
      if t.op == 0x80 || t.op == 0x81 then assignWrite n t.dlen s
      else if t.op == 0x82 || t.op == 0x83 then work (.read p t.vaddr t.span 0 (t.op == 0x83) 0 0 0) s
      else if t.op == 0x11 then work (.pack p) (s.updPack p fun k => { k with status := .unmounting, owner := some n })
      else work (.pack p) s
    | none =>
      if t.op == 9 then work .event s
      else if t.op == 0x84 || t.op == 0x85 then work .job s
      else s

/-- Admission of a consumed command (R308, R309, R441, R474). An INLINE write is admitted once its stream is complete
(R400). DEDUCED: log 50. -/
def admitTag (n : Nat) (s : State) : State :=
  match tagOf s n with
  | none => s
  | some t =>
    if s.bit R.fltStatFatal then takeCompletion n (finish n 6 0x0F01 0 s)
    else if s.bit R.lampStatRecovery && !recoveryOk t then refuse n 0x0E06 (s.log 0x0E06 srcLamp noPos 0 0)
    else match admitChecks s t t.dlen with
    | some r => refuse n r s
    | none =>
      match t.posNamed with
      | some p =>
        if t.compress && pointerOk t then updTag n (fun t => { t with work := .inline p }) s
        else
          let s := issueAseq n s
          if pointerOk t then admitWork n s else finish n 5 0x0114 0 s
      | none =>
        let s := issueAseq n s
        if pointerOk t then admitWork n s else finish n 5 0x0114 0 s

/-- A consumed command that has not been admitted or refused. -/
def unadmitted (t : Tag) : Bool := t.aseq == 0 && !t.taken && !t.done && !t.orphan && t.work == .none

/-- Firmware takes the consumed commands in order, as many as `k` (R308, R433). DEDUCED: log 50. -/
def admitNext : Nat → State → State
  | 0, s => s
  | k + 1, s =>
    let l := s.hqi.tags.filter unadmitted
    match l.find? fun t => l.all fun u => t.stamp ≤ u.stamp with
    | some t => if fwUp s then admitNext k (admitTag t.num s) else s
    | none => s

/-- Every consumed command is taken while firmware runs. DEDUCED: log 50. -/
def admitAll (s : State) : State := admitNext (s.hqi.tags.filter unadmitted).length s

end Sys2Proof.Machine
end

