-- ==== Sys2Proof/Machine/Detector.lean ====
section
/-! DEFINITION. The detector and the decoder as functions of equaliser outputs (R109, R110, R114): survivors for tentative
decisions, the 4-ary max-log-MAP recursions, log-likelihood ratios, and layered normalised min-sum decoding. -/

namespace Sys2Proof.Machine

/-- The least of a list of metrics, 0 for none. -/
def minOf (l : List Int) : Int := l.min?.getD 0

/-- The index of the least metric, the lowest of equals. -/
def argMin (l : List Int) : Nat := l.findIdx (· == minOf l)

/-- The expected output of the branch from symbols a = x[k-2] and b = x[k-1] to c = x[k], in 1/(64 × 4,096) (R109): amplitudes
in 1/64, target coefficients in 1/256. -/
def branchOut (amp tgt : List Int) (a b c : Nat) : Int :=
  16 * (nth 0 tgt 0 * nth 0 amp c + nth 0 tgt 1 * nth 0 amp b + nth 0 tgt 2 * nth 0 amp a)

/-- One symbol of the 16 survivors, by state 4 × x[k-1] + x[k]: each takes the best branch into its state. An erased symbol,
with no output, gives every branch the metric 0. The last 17 symbols of each are kept. -/
def survivors (amp tgt : List Int) (y : Option Int) (paths : List (Int × List Nat)) : List (Int × List Nat) :=
  (List.range 16).map fun st =>
    let b := st / 4
    let c := st % 4
    let into := (List.range 4).map fun a =>
      let p := nth (0, []) paths (4 * a + b)
      (p.1 + (match y with | some y => (y - branchOut amp tgt a b c) ^ 2 | none => 0), p.2)
    let best := nth (0, []) into (argMin (into.map (·.1)))
    (best.1, (c :: best.2).take 17)

/-- The symbol n symbols back on the best survivor. DEDUCED: log 98. -/
def survivorAt (n : Nat) (paths : List (Int × List Nat)) : Option Nat :=
  (nth (0, []) paths (argMin (paths.map (·.1)))).2[n]?

/-- What the detector works on: amplitudes, target, ratio scale, the output of each symbol, none of an erased one, and the a
priori ratios of its two bits. -/
structure DetIn where
  amp : List Int
  tgt : List Int
  scale : Nat
  y : Nat → Option Int
  prior : Nat → Int × Int

/-- The metric of a branch at symbol k: the branch metric scaled, and the a priori ratio of each bit that is 1. Unit: one ratio
is 64 × (llrUnit + 1). DEDUCED: log 100. -/
def branchCost (d : DetIn) (k a b c : Nat) : Int :=
  (match d.y k with
    | some y => d.scale * (y - branchOut d.amp d.tgt a b c) ^ 2
    | none => 0) +
  64 * (Config.llrUnit + 1 : Nat) * (levelHi c * (d.prior k).1 + levelLo c * (d.prior k).2)

/-- State metrics after symbol k from those before it, and before it from those after. -/
def forwardStep (d : DetIn) (k : Nat) (m : List Int) : List Int :=
  (List.range 16).map fun st => minOf ((List.range 4).map fun a => nth 0 m (4 * a + st / 4) + branchCost d k a (st / 4) (st % 4))
def backwardStep (d : DetIn) (k : Nat) (m : List Int) : List Int :=
  (List.range 16).map fun st => minOf ((List.range 4).map fun c => nth 0 m (4 * (st % 4) + c) + branchCost d k (st / 4) (st % 4) c)

/-- The forward metrics before each of n symbols from k on, and the backward metrics after each. -/
def forwards (d : DetIn) : Nat → Nat → List Int → List (List Int)
  | 0, _, _ => []
  | n + 1, k, m => m :: forwards d n (k + 1) (forwardStep d k m)
def backwards (d : DetIn) : Nat → Nat → List Int → List (List Int)
  | 0, _, _ => []
  | n + 1, k, m =>
    let rest := backwards d n (k + 1) m
    (match rest with
      | [] => m
      | r :: _ => backwardStep d (k + 1) r) :: rest

/-- The least metric of each level at symbol k, given the metrics before and after it. -/
def levelCosts (d : DetIn) (k : Nat) (before after : List Int) : List Int :=
  (List.range 4).map fun c => minOf (((List.range 4).map fun a => (List.range 4).map fun b =>
    nth 0 before (4 * a + b) + branchCost d k a b c + nth 0 after (4 * b + c)).flatten)

/-- The detector's ratio of a bit from its two metrics, without what the a priori ratio brought: positive favours 0. -/
def ratioOf (zero one prior : Int) : Int := openRound 0x98 (one - zero) (64 * (Config.llrUnit + 1 : Nat)) - prior

/-- The two ratios of symbol k (R110). -/
def ratiosAt (d : DetIn) (k : Nat) (before after : List Int) : Int × Int :=
  let c := levelCosts d k before after
  let m := fun i j => min (nth 0 c i) (nth 0 c j)
  (ratioOf (m 0 1) (m 2 3) (d.prior k).1, ratioOf (m 0 3) (m 1 2) (d.prior k).2)

/-- The ratios of a window of 256 symbols from w on, with 64 symbols of warm-up on each side (R109). DEDUCED: log 100. -/
def windowRatios (d : DetIn) (w : Nat) : List (Int × Int) :=
  let lo := w - min w 64
  let n := w + 320 - lo
  let flat := List.replicate 16 (0 : Int)
  let f := (forwards d n lo flat).drop (w - lo)
  let b := (backwards d n lo flat).drop (w - lo)
  (List.range 256).map fun i => ratiosAt d (w + i) (nth flat f i) (nth flat b i)

/-- The ratios of slot symbols 0 to 315,999, window by window from the slot's start. -/
def slotRatios (d : DetIn) : List (Int × Int) := ((List.range 1235).map fun i => windowRatios d (256 * i)).flatten

/-- A ratio held within ±lim. -/
def clipTo (lim : Int) (x : Int) : Int := clampI (-lim) lim x

/-- The state of the decoder of one codeword: a ratio per bit, and per check of H its messages to the bits it covers. -/
structure Ldpc where
  bits : List Int
  msgs : List (List Int)

/-- The columns of block row i with their shifts, and the bits that check r of that row covers (R42). -/
def rowBlocks (i : Nat) : List (Nat × Nat) := (List.range 100).filterMap fun j => (ldpcShift i j).map fun s => (j, s)
def checkBits (i r : Nat) : List Nat := (rowBlocks i).map fun x => 384 * x.1 + (r + x.2) % 384

/-- A check's message to the bit at place n: the sign of the product of the others' signs, their least magnitude scaled by
NORM / 16, held to 8 bits (R114). DEDUCED: log 100. -/
def checkMsg (norm : Nat) (q : List Int) (n : Nat) : Int :=
  let o := q.eraseIdx n
  let mag := (o.map Int.natAbs).min?.getD 0
  let m := clipTo 127 (openRound 0x99 (norm * mag : Nat) 16)
  if (o.filter (· < 0)).length % 2 = 0 then m else -m

/-- One check of a layer: its bits lose its old messages and take the new ones. -/
def checkNode (norm i r : Nat) (x : Ldpc) : Ldpc :=
  let at_ := checkBits i r
  let old := nth [] x.msgs (384 * i + r)
  let q := at_.mapIdx fun n v => nth 0 x.bits v - nth 0 old n
  let new := q.mapIdx fun n _ => checkMsg norm q n
  { bits := (List.zip at_ (List.zipWith (· + ·) q new)).foldl (fun l b => l.set b.1 b.2) x.bits,
    msgs := x.msgs.set (384 * i + r) new }

/-- One iteration: block rows 0 to 13 in order (R114). -/
def ldpcRound (norm : Nat) (x : Ldpc) : Ldpc :=
  (List.range 14).foldl (fun x i => (List.range 384).foldl (fun x r => checkNode norm i r x) x) x

/-- The decided bits: a ratio that favours neither value decides 0. DESIGN CHOICE: log 100. -/
def decided (l : List Int) (i : Nat) : Bool := nth 0 l i < 0

/-- Iterations until the syndrome is zero or none is left, with how many were used. DEDUCED: log 100. -/
def ldpcRun (norm : Nat) : Nat → Nat → Ldpc → Ldpc × Nat
  | 0, used, x => (x, used)
  | n + 1, used, x =>
    let x := ldpcRound norm x
    if ldpcOk (decided x.bits) then (x, used + 1) else ldpcRun norm n (used + 1) x

/-- What the decoder makes of the 38,400 channel ratios of a codeword within an iteration limit: the final ratios and the
iterations used. -/
def ldpcDecode (norm limit : Nat) (l : List Int) : List Int × Nat :=
  let (x, n) := ldpcRun norm limit 0 { bits := l, msgs := List.replicate 5376 (List.replicate 100 0) }
  (x.bits, n)

/-- The 4,128 information bytes of decided bits (R39). -/
def bytesOf8 (v : Nat → Bool) (n : Nat) : List Byte :=
  (List.range n).map fun b => BitVec.ofNat 8 ((List.range 8).foldl (fun x i => 2 * x + (if v (8 * b + i) then 1 else 0)) 0)

end Sys2Proof.Machine
end

