-- ==== Sys2Proof/Machine/Frames.lean ====
section
/-! DEFINITION. What a pour records: header and metadata derived from the pour descriptor, the levels of a frame or of ledger
segments, the wick packets that carry them, the order of pours and blank slots, and what lies on the neighbouring lands
(R31, R45, R63, R71, R73, R76, R77). -/

namespace Sys2Proof.Machine

/-- The metadata of codeword c of a pour descriptor's frame, or of the c-th segment of its ledger pour (Table 2.8): every field
from the descriptor (R71). A ledger segment's POSN names role and index 0, its VALID 4,096. DEDUCED: log 102. -/
def pourMeta (d : List Byte) (c : Nat) : List Byte :=
  let reloc := bitsOf (dFlags d) 1 1
  let enc := bitsOf (dFlags d) 0 1
  if dLedger d then metaBytes (dVaddr d + c) 0 (dSlot d) (dRole d) 0 0 (dLayer d) 1 reloc enc 4096 (dTag d)
  else
    let pad := dPad d c
    metaBytes (dVaddr d + (if dRole d < 6 then 4096 * (16 * dRole d + c) else 0)) (dRank d) (dSlot d) (dRole d) (if pad then 1 else 0)
      c (dLayer d) 0 reloc enc (if pad then 0 else dValid d c) (dTag d)

/-- The header that a poured frame is to carry (Table 2.7), with the POURTIME stamped when its gate opened. -/
def intended (d : List Byte) (time : Nat) : List Byte :=
  headerBytes (dLayer d) (dSurf d) (dSlot d) (dRank d) (dRole d) (dRepour d) (dArea d) time (dTag d)

/-- The user bytes of codeword c of a frame as recorded: the rank's ciphertext or parity, a ledger segment's records, the zero
bytes of a test frame (R220). -/
def pourUser (s : State) (p : PosIx) (d : List Byte) (c : Nat) : List Byte :=
  if dLedger d then
    match s.packs[p].lpour with
    | some l => segBytes (nth [] (packSegs l.recs) (dVaddr d + c - l.seg))
    | none => List.replicate 4096 0
  else if dIsRank d then ((rankOf s p (dRank d)).bind fun r => r.cipher[16 * dRole d + c]?).getD (List.replicate 4096 0)
  else List.replicate 4096 0

/-- The information bytes of codeword c of a frame, or of the c-th segment of a ledger pour. -/
def pourInfo (s : State) (p : PosIx) (d : List Byte) (c : Nat) : List Byte := infoBytes (pourUser s p d c) (pourMeta d c)

/-- The levels that a pour records in its slot; what it leaves untouched reads as level 0 (R33, R34, R52). -/
def pourLevels (s : State) (p : PosIx) (d : List Byte) (time : Nat) : List Nat :=
  if dLedger d then
    List.replicate (19750 * dSeg d) 0 ++
      ((List.range (dNseg d)).map fun c => segmentLevels (dVaddr d + c) (pourInfo s p d c)).flatten ++
      List.replicate (19750 * (16 - dSeg d - dNseg d)) 0
  else frameLevels (dLayer d) (dSlot d) (intended d time) ((List.range 16).map (pourInfo s p d))

/-- The stretches of the slot that a pour's write gate covers, as (first symbol, symbols): preamble to postamble, or each
segment on its own (R71, R73). -/
def pourSpans (d : List Byte) : List (Nat × Nat) :=
  if dLedger d then (List.range (dNseg d)).map fun c => (19750 * (dSeg d + c), 19750) else [(128, 315744)]

/-- The wick packet that engine e sends next (R251): its first slot symbol, its number of codes, and whether it opens and ends a
stretch; none once all is sent. -/
def nextWick (d : List Byte) (sent : Nat) : Option (Nat × Nat × Bool × Bool) :=
  ((pourSpans d).find? fun x => sent < x.1 + x.2).map fun x =>
    let at_ := max sent x.1
    let n := min 384 (x.1 + x.2 - at_)
    (at_, n, at_ == x.1, at_ + n == x.1 + x.2)

/-- The 6-bit wick codes of n slot symbols from `at_` on, within the stretch that holds them (R73). -/
def wickOf (s : State) (p : PosIx) (d : List Byte) (time at_ n : Nat) : List Nat :=
  match (pourSpans d).find? fun x => x.1 ≤ at_ && at_ < x.1 + x.2 with
  | some x => ((wickCodes 0 (((pourLevels s p d time).drop x.1).take x.2)).drop (at_ - x.1)).take n
  | none => []

/-- Whether the ranks of a cast have all been poured in their home slots, as far as they are below rank n (R63). -/
def pouredBefore (c : Cast) (n : Nat) : Bool :=
  c.failed.isSome || (c.ranks.all fun r => r.n ≥ n || r.repour > 0 || (r.phase != .filling && r.phase != .ready && r.phase != .assembled))

/-- Whether rank r is next in its pack's pour order (R63, R87): in its home slot after every rank and cast before it, in the
riser in ascending order within its visit, with FORCE data at once. DEDUCED: log 72. -/
def pourTurn (s : State) (p : PosIx) (r : Rank) : Bool :=
  let k := s.packs[p]
  if r.repour > 0 then
    r.force || (((castOf s p (r.n / 128)).map fun c => c.ranks.all fun x =>
      x.n ≥ r.n || x.force || x.repour = 0 || x.phase != .assembled).getD false)
  else
    (k.casts.takeWhile fun c => c.m != r.n / 128).all (fun c => c.failed.isSome || (c.ranks.length == 128 && pouredBefore c (2 ^ 32))) &&
    (((castOf s p (r.n / 128)).map fun c => pouredBefore c r.n).getD false)

/-- Whether a slot of a layer is known to hold a recording (R31): a riser slot consumed, a home slot of a recorded cast whose
rank was not moved, or the slot of a rank that has been poured. -/
def slotRecorded (s : State) (p : PosIx) (layer f : Nat) : Bool :=
  let k := s.packs[p]
  let rise := riserBase layer ≤ f && f < riserBase layer + riserUsed s p layer
  let home := homeBase layer ≤ f && f < homeBase layer + layerRanks
  let n := layer * layerRanks + (f - homeBase layer)
  let poured := (k.casts.map (·.ranks)).flatten.any fun r =>
    rankLayer r.n == layer && r.slot == f && (r.phase == .pouring || r.phase == .awaiting || r.phase == .cast)
  rise || (home && k.recorded.contains (n / 128) && (Assoc.get n k.moved).isNone) || poured

/-- Whether the controller has established a slot as blank, for all it knows (R31). -/
def slotBlank (s : State) (p : PosIx) (layer f : Nat) : Bool :=
  !s.packs[p].dead.contains (layer, f) && !slotRecorded s p layer f &&
    !s.packs[p].burnt.any fun x => x.1 == layer && x.2.1 ≤ f && f < x.2.2

/-- The rank in the tundish whose frame on surface f lies, or is being poured, in a slot of a layer, with that frame's
descriptor and POURTIME. -/
def rankAt (s : State) (p : PosIx) (f layer slot : Nat) : Option (Rank × List Byte × Nat) :=
  (s.packs[p].casts.map (·.ranks)).flatten.findSome? fun r =>
    match Assoc.get f r.frames with
    | some (d, t) => if dLayer d == layer && dSlot d == slot && !r.tiles.isEmpty then some (r, d, t) else none
    | none => none

/-- The slots that the stretch beside a frame touches (R75). -/
def besideSlots (layer slot : Nat) (later : Bool) : List Nat :=
  ((List.range 316000).map fun k => (Config.beside layer slot k later).1).eraseDups

/-- The source that the controller chooses for a neighbour of a frame (R77): 0 known data, 1 known blank, 2 side spot. A number
that is no frame slot's stands for a zone guard. -/
def neighbourChoice (s : State) (p : PosIx) (f layer slot : Nat) (later : Bool) : Nat :=
  let l := besideSlots layer slot later
  if l.all fun x => (rankAt s p f layer x).isSome then 0
  else if l.all fun x => x ≥ layerSlots || slotBlank s p layer x then 1
  else 2

/-- The level recorded beside symbol k of a slot, from the neighbour frame's descriptor and bytes (R76). -/
def besideLevel (s : State) (p : PosIx) (f layer slot k : Nat) (later : Bool) : Nat :=
  let b := Config.beside layer slot k later
  match rankAt s p f layer b.1 with
  | some (_, d, t) => nth 0 (pourLevels s p d t) b.2
  | none => 0

end Sys2Proof.Machine
end

