-- ==== Sys2Proof/Machine/Channel.lean ====
section
/-! DEFINITION. The read channel from samples to erasures (chapter 4), in read mode and for verify: interpolation and timing,
gain, equaliser and its adaptation, sync acquisition, defects, erasures, the blank test, and the wobble. -/

namespace Sys2Proof.Machine

/-- Key of a slot symbol of a stream. -/
def symKey (stream k : Nat) : Nat := stream * 2 ^ 20 + k

/-- Runs in rising order, overlapping or touching ones joined. -/
def insertRun (r : Nat × Nat) : List (Nat × Nat) → List (Nat × Nat)
  | [] => [r]
  | x :: t => if r.1 ≤ x.1 then r :: x :: t else x :: insertRun r t
def joinRuns : List (Nat × Nat) → List (Nat × Nat)
  | [] => []
  | r :: t =>
    match joinRuns t with
    | [] => [r]
    | x :: u => if x.1 ≤ r.1 + r.2 then (r.1, max (r.1 + r.2) (x.1 + x.2) - r.1) :: u else r :: x :: u
def unionRuns (l : List (Nat × Nat)) : List (Nat × Nat) := joinRuns ((l.filter fun r => r.2 > 0).foldr insertRun [])

/-- The taps of engine e, in order, and the amplitude of a level (Tables 4.14 and 4.15). -/
def taps (s : State) (e : EngIx) : List Int := (List.range 29).map fun i => s.rdI (R.eqTapTap e i)
def amplitude (s : State) (e : EngIx) : Nat → Int
  | 0 => s.rdI (R.detLvlA0 e)
  | 1 => s.rdI (R.detLvlA1 e)
  | 2 => s.rdI (R.detLvlA2 e)
  | _ => s.rdI (R.detLvlA3 e)

/-- num/den rounded to a neighbouring integer, for a divisor of either sign. -/
def openDiv (site : Nat) (num den : Int) : Int := if den < 0 then openRound site (-num) (-den) else openRound site num den

/-- A corrected sample of a stream, 0 where none came. -/
def sampleAt (q : SlotRead) (stream : Nat) (k : Int) : Int :=
  if k < 0 then 0 else (Assoc.get (symKey stream k.toNat) q.xs).getD 0

/-- The raw samples that the interpolator weighs for slot symbol k of a stream, the phase's whole symbols applied. -/
def window (q : SlotRead) (stream : Nat) (k : Int) : List Nat :=
  (List.range 16).map fun (i : Nat) =>
    let at_ := k + q.ph / 65536 / 64 + i - 7
    if at_ < 0 then 0 else (Assoc.get (symKey stream at_.toNat) q.raw).getD 0

/-- The interpolated sample of slot symbol k of a stream at the loop's phase, in 1/64 of a code (R102). -/
def interpolated (q : SlotRead) (stream : Nat) (k : Int) : Int :=
  Config.interpolate (q.ph / 65536 % 64).toNat (window q stream k)

/-- Gain and offset applied (R103): the measured levels 0 and 3 land on A0 and A3. The side streams take both. DEDUCED: log 98. -/
def gained (s : State) (e : EngIx) (q : SlotRead) (v : Int) : Int :=
  let a0 := amplitude s e 0
  if q.m0 = q.m3 then Config.noGain v
  else a0 + openDiv 0x94 ((v * 4096 - q.m0) * (a0 - amplitude s e 3)) (q.m0 - q.m3)

/-- What the side filter sees of a neighbour at symbol k (R100, R105, R108): its side-spot sample, aligned, or in cast mode
the amplitude of its known symbol. On even layers the inner land is the earlier neighbour. -/
def besideInput (s : State) (e : EngIx) (q : SlotRead) (stream : Nat) (k : Nat) : Int :=
  let align := if stream = 1 then s.rdI (R.eqCfgAlignIn e) else s.rdI (R.eqCfgAlignOut e)
  let d := q.desc
  let later := (stream == 1) == (dLayer d % 2 == 1)
  let src := if later then q.nbr / 4 else q.nbr % 4
  match q.cast, s.eng[e].home with
  | true, some (p, f) =>
    if src = 0 then amplitude s e (besideLevel s p f (dLayer d) (dSlot d) k later)
    else if src = 1 then amplitude s e 0
    else gained s e q (interpolated q stream (k + align))
  | _, _ => gained s e q (interpolated q stream (k + align))

/-- The 29 samples that the taps weigh for symbol k (R105); the side streams count as zero without SIDE_EN. -/
def tapInputs (s : State) (e : EngIx) (q : SlotRead) (k : Nat) : List Int :=
  let side := s.bit (R.eqCfgSideEn e)
  ((List.range 15).map fun (i : Nat) => sampleAt q 0 ((k : Int) + 7 - i)) ++
  ((List.range 7).map fun (i : Nat) => if side then sampleAt q 1 ((k : Int) + 3 - i) else 0) ++
  ((List.range 7).map fun (i : Nat) => if side then sampleAt q 2 ((k : Int) + 3 - i) else 0)

/-- The equaliser output in 1/(64 × 4,096) (R105). DEDUCED: log 76. -/
def equalise (s : State) (e : EngIx) (q : SlotRead) (k : Nat) : Int :=
  (List.zipWith (fun a b => a * b) (taps s e) (tapInputs s e q k)).foldl (fun a b => a + b) 0

/-- The output for the trailing stream of deep read: the main taps on its samples (R135). -/
def trailing (s : State) (e : EngIx) (q : SlotRead) (k : Nat) : Int :=
  (List.zipWith (fun a b => a * b) ((taps s e).take 15)
    ((List.range 15).map fun (i : Nat) => sampleAt q 3 ((k : Int) + 7 - i))).foldl (fun a b => a + b) 0

/-- Amplitudes of levels 0 to 3 and the target coefficients of engine e. -/
def amps (s : State) (e : EngIx) : List Int := (List.range 4).map (amplitude s e)
def targets (s : State) (e : EngIx) : List Int := [s.rdI (R.detTgtG0 e), s.rdI (R.detTgtG1 e), s.rdI (R.detTgtG2 e)]

/-- The pattern whose accepted mark covers slot symbol k, with the symbol's place in it. -/
def markAt (x : SyncState) (k : Nat) : Option (Nat × Nat) :=
  match x.head with
  | some h => if h ≤ k && k < h + 24 then some (4, k - h) else blockMark
  | none => blockMark
where
  blockMark := (x.starts.find? fun b => !x.flown.contains b.1 && b.2 ≤ k + 24 && k < b.2).map fun b => (b.1 % 4, k + 24 - b.2)

/-- The level of a symbol of the training field, which follows the run wherever that starts (R103), or in a ledger slot of a
segment's run (R126). -/
def trainLevel (ledger : Bool) (q : SlotRead) (k : Nat) : Option Nat :=
  if ledger then (if 32 ≤ k % 19750 && k % 19750 < 166 then some (runSym (k % 19750 - 32)) else none)
  else match q.run0 with
    | some r => if r + 1024 ≤ k && k < r + 1536 then training[k - (r + 1024)]? else none
    | none => none

/-- The known level of slot symbol k: training, or an accepted sync pattern (R106). -/
def knownLevel (ledger : Bool) (q : SlotRead) (k : Nat) : Option Nat :=
  trainLevel ledger q k <|> (markAt q.sync k).map fun m => nth 0 (syncSyms m.1) m.2

/-- The level that adaptation takes symbol k for: known, or as the detector tentatively decided. -/
def levelAt (ledger : Bool) (q : SlotRead) (k : Nat) : Nat :=
  ((knownLevel ledger q k) <|> (Assoc.get k q.dec)).getD 0

/-- The target output r[k] in 1/(64 × 4,096) (R109). -/
def targetOut (s : State) (e : EngIx) (ledger : Bool) (q : SlotRead) (k : Nat) : Int :=
  let l := fun (j : Nat) => levelAt ledger q (k - j)
  branchOut (amps s e) (targets s e) (l 2) (l 1) (l 0)

/-- Agreement of 24 sliced outputs, first symbol first, with pattern i. DEDUCED: log 76. -/
def agree (bits : List Bool) (i : Nat) : Nat :=
  ((List.range 24).filter fun j => (nth false bits j) == bitAt (syncPattern i) (23 - j)).length

/-- The pattern with the highest count alone, and that count (R120). -/
def candidate (bits : List Bool) : Option (Nat × Nat) :=
  let c := (List.range 5).map (agree bits)
  let m := c.foldl max 0
  match (List.range 5).filter fun i => nth 0 c i == m with
  | [i] => some (i, m)
  | _ => none

/-- The nearest candidate of a window, then the higher count, then the earlier (R122). -/
def betterOf (old : Option (Nat × Nat × Nat)) (dist count pos : Nat) : Option (Nat × Nat × Nat) :=
  match old with
  | none => some (dist, count, pos)
  | some (d, c, p) => if dist < d || (dist == d && count > c) then some (dist, count, pos) else some (d, c, p)

/-- The next block's window; in a ledger slot the first block of a segment has its own (R126). Blocks missed in a row count on
from segment to segment (R124). -/
def nextBlock (ledger : Bool) (expect : Nat) (x : SyncState) : SyncState :=
  let b := x.block + 1
  if ledger && b % 16 == 0 then { x with block := b, expect := 19750 * (b / 16) + 166, half := 64, best := none }
  else { x with block := b, expect := expect, half := 12, best := none }

/-- A loss of sync at E(b) of block b (R124). A ledger slot realigns at the start of the next segment (R126). -/
def loseSync (ledger : Bool) (x : SyncState) : SyncState :=
  let b := x.block
  if ledger then
    let seg := b / 16 + 1
    { x with losses := x.losses + 1, ers := x.ers ++ [(1200 * b, 1200 * (16 * seg - b))],
             holes := x.holes ++ [(x.expect, 19750 * seg - x.expect)], block := 16 * seg, expect := 19750 * seg + 166, half := 64,
             misses := 0, best := none }
  else { x with losses := x.losses + 1, lostAt := some x.expect, best := none }

/-- A window of a data block is decided (R122, R124, R126). -/
def decideBlock (ledger : Bool) (x : SyncState) : SyncState :=
  let b := x.block
  match x.best with
  | some (_, _, m) => nextBlock ledger (m + 1224) { x with starts := x.starts ++ [(b, m + 24)], misses := 0 }
  | none =>
    if x.misses ≥ 3 then loseSync ledger x
    else
      nextBlock ledger (x.expect + 1224)
        { x with flown := x.flown ++ [b], ers := x.ers ++ [(1200 * b, 1200)], starts := x.starts ++ [(b, x.expect + 24)],
                 misses := x.misses + 1 }

/-- The header window is decided (R123). -/
def decideHeader (x : SyncState) : SyncState :=
  match x.best with
  | some (_, _, m) => { x with hdr := true, head := some m, expect := m + 384, half := 12, best := none }
  | none => { x with hdr := true, expect := 2048, half := 64, best := none }

/-- The count is reset at the end of the sync field of eighth e (R125): the first block whose nominal start is at or after that
point takes a ±12 window. -/
def realignAt (e : Nat) (x : SyncState) : SyncState :=
  match x.lostAt with
  | none => x
  | some l =>
    let at_ := 39500 * e + 4000
    let b := (at_ - 2048 + 1223) / 1224
    let p0 := 1200 * x.block
    if at_ < 2048 || b ≥ x.upto || b < x.block then x
    else { x with lostAt := none, ers := x.ers ++ [(p0, 1200 * b - p0)], holes := x.holes ++ [(l, 2048 + 1224 * b - l)], block := b,
                  expect := 2048 + 1224 * b, half := 12, misses := 0, best := none, realign := x.realign ++ [(e, 1200 * b)] }

/-- The first sync field detected after the loss has ended by symbol k (R125). -/
def realignBy (fields : List Nat) (k : Nat) (x : SyncState) : SyncState :=
  match x.lostAt with
  | none => x
  | some l =>
    match (fields.filter fun e => l ≤ 39500 * e + 4000 && 39500 * e + 4000 ≤ k).min? with
    | some e => realignAt e x
    | none => x

/-- A position of a window is a candidate: accepted for now, or rejected and counted, REJECT saturating (R121, R122). The
header's window counts no rejection. DEDUCED: log 103. -/
def weigh (want centre c : Nat) (cand : Option (Nat × Nat)) (x : SyncState) : SyncState :=
  match cand with
  | some (i, n) =>
    if i == want then { x with best := betterOf x.best ((centre : Int) - c).natAbs n c } else rejected
  | none => rejected
where
  rejected := if x.hdr then { x with reject := min 255 (x.reject + 1) } else x

/-- Sync acquisition takes the equaliser output of slot symbol k (R120 to R126). `a0`, `a3`: amplitudes of levels 0 and 3 in
the output's unit; an output midway between them counts as level 0 (DESIGN CHOICE: log 103). A candidate is a position whose 24
outputs agree with one pattern alone at least `thr` times. -/
def syncStep (ledger : Bool) (thr : Nat) (a0 a3 : Int) (fields : List Nat) (k : Nat) (y : Int) (x : SyncState) : SyncState :=
  let ys := (y :: x.ys).take 24
  let x := realignBy fields k { x with ys := ys }
  if k < 23 then x else
  let c := k - 23
  let bits := ys.reverse.map fun v => decide ((v - a3).natAbs < (v - a0).natAbs)
  let cand := (candidate bits).filter fun m => m.2 ≥ thr
  let x := if cand.isSome then { x with anyMark := true } else x
  if x.lostAt.isSome || x.block ≥ x.upto then x else
  let centre := if x.hdr then x.expect else 1664
  let half := if x.hdr then x.half else 64
  if c + half < centre || centre + half < c then x else
  let x := weigh (if x.hdr then x.block % 4 else 4) centre c cand x
  if c < centre + half then x
  else if x.hdr then realignBy fields k (decideBlock ledger x)
  else decideHeader x

/-- The address word of eighth e has been read: it confirms the realignment at that eighth, or undoes it (R125). -/
def realignWord (e : Nat) (ok : Bool) (x : SyncState) : SyncState :=
  match x.realign.find? fun r => r.1 == e with
  | none => x
  | some r =>
    let x := { x with realign := x.realign.filter fun r => r.1 != e }
    if ok then x else { x with bad := true, ers := x.ers ++ [(r.2, 1200 * x.upto - r.2)] }

/-- The end of a slot: what is still lost, or still unconfirmed, stays erased to the end (R125). -/
def syncEnd (x : SyncState) : SyncState :=
  let x := match x.lostAt with
    | some l => { x with ers := x.ers ++ [(1200 * x.block, 1200 * (x.upto - x.block))], holes := x.holes ++ [(l, 316000 - l)] }
    | none => x
  { x with bad := x.bad || !x.realign.isEmpty, ers := x.ers ++ x.realign.map fun r => (r.2, 1200 * x.upto - r.2) }

/-- One raw main-spot sample at the defect detector (R112). A symbol joins the running mean when it leaves the window
unflagged. -/
def defectStep (w lo hi k v : Nat) (d : Defect) : Defect :=
  let win := (k, v, false) :: d.win
  let old := win.drop w
  let ref := ((old.filter fun x => !x.2.2).map (·.2.1) ++ d.ref).take 4096
  let win := win.take w
  let sum := (win.map (·.2.1)).foldl (· + ·) 0
  let rs := ref.foldl (· + ·) 0
  let out := win.length == w && ref.length > 0 && (128 * sum * ref.length < lo * rs * w || hi * rs * w < 128 * sum * ref.length)
  if out then { win := win.map fun x => (x.1, x.2.1, true), ref := ref,
                hits := (win.filter fun x => !x.2.2).map (·.1) ++ d.hits }
  else { win := win, ref := ref, hits := d.hits }

/-- The flagged runs of a slot in slot symbols, widened by EXT on each side (R112). -/
def defectRuns (s : State) (e : EngIx) (q : SlotRead) : List (Nat × Nat) :=
  let ext := s.rd (R.defCfgExt e)
  unionRuns (q.flags.hits.map fun k => (k - ext, k + ext + 1 - (k - ext)))

/-- Data symbols that a run of slot symbols covers, by the block starts (R43). -/
def toData (starts : List (Nat × Nat)) (r : Nat × Nat) : List (Nat × Nat) :=
  starts.filterMap fun b =>
    let lo := max r.1 b.2
    let hi := min (r.1 + r.2) (b.2 + 1200)
    if lo < hi then some (1200 * b.1 + (lo - b.2), hi - lo) else none

/-- The block starts of the nominal layout (Table 2.5, R52). -/
def nominalStarts (ledger : Bool) : List (Nat × Nat) :=
  (List.range 256).map fun b => (b, if ledger then 19750 * (b / 16) + 166 + 1224 * (b % 16) + 24 else 2048 + 1224 * b + 24)

/-- Slot symbols that a run of data symbols covers. -/
def toSlot (starts : List (Nat × Nat)) (r : Nat × Nat) : List (Nat × Nat) :=
  starts.filterMap fun b =>
    let lo := max r.1 (1200 * b.1)
    let hi := min (r.1 + r.2) (1200 * b.1 + 1200)
    if lo < hi then some (b.2 + (lo - 1200 * b.1), hi - lo) else none

/-- The slag list in force, each run clipped at the last data symbol (Table 4.3); only a read has one. -/
def slagRuns (s : State) (e : EngIx) (q : SlotRead) : List (Nat × Nat) :=
  if q.cast then [] else s.eng[e].slag.map fun r => (r.1, min r.2 (307200 - r.1))

/-- The erased data symbols of a slot (R111, R113). -/
def erasures (s : State) (e : EngIx) (q : SlotRead) : List (Nat × Nat) :=
  let x := syncEnd q.sync
  unionRuns (x.ers ++ ((defectRuns s e q ++ q.symErs).map (toData x.starts)).flatten ++ slagRuns s e q)

/-- Whether slot symbol k lies in one of some runs. -/
def inRuns (l : List (Nat × Nat)) (k : Nat) : Bool := l.any fun r => r.1 ≤ k && k < r.1 + r.2

/-- Whether slot symbol k makes no update to taps, timing, gain or offset (R111): for any of the six causes. -/
def erasedAt (s : State) (e : EngIx) (q : SlotRead) (k : Nat) : Bool :=
  let x := q.sync
  inRuns q.symErs k || inRuns x.holes k || (x.lostAt.map fun l => decide (l ≤ k)).getD false ||
  q.flags.hits.any (fun h => h ≤ k + s.rd (R.defCfgExt e) && k ≤ h + s.rd (R.defCfgExt e)) ||
  x.starts.any (fun b => x.flown.contains b.1 && b.2 ≤ k && k < b.2 + 1200) ||
  inRuns (((slagRuns s e q).map (toSlot x.starts)).flatten) k

/-- The timing loop takes the error of symbol k (R102): Mueller and Müller's, from the outputs and targets of two symbols, in
proportion and integral; the acquisition gains act for the first 768 symbols of the run, and before it. DEDUCED: log 98. -/
def timing (e : EngIx) (ledger : Bool) (k : Nat) (s : State) : State :=
  let q := s.eng[e].slot
  let y := fun (j : Nat) => (Assoc.get j q.ys).getD 0
  let err := y k * targetOut s e ledger q (k - 1) - y (k - 1) * targetOut s e ledger q k
  let acq := !ledger && match q.run0 with | some r => k < r + 768 | none => true
  let kp := if acq then s.rd (R.trCfgKpAcq e) else s.rd (R.trCfgKpTrk e)
  let ki := if acq then s.rd (R.trCfgKiAcq e) else s.rd (R.trCfgKiTrk e)
  let step := fun (g : Nat) => openRound 0x93 (g * err) (2 ^ 36)
  s.updEng e fun x => { x with slot := { x.slot with ph := x.slot.ph + step kp, fr := x.slot.fr + step ki } }

/-- Gain and offset track on a decision for level 0 or 3 with a time constant of 4,096 symbols (R103). DEDUCED: log 98. -/
def trackGain (e : EngIx) (ledger : Bool) (k : Nat) (s : State) : State :=
  s.updEng e fun x =>
    let q := x.slot
    let v := 4096 * (Assoc.get k q.vs).getD 0
    let l := levelAt ledger q k
    { x with slot := if l = 0 then { q with m0 := q.m0 + openRound 0x96 (v - q.m0) 4096 }
                     else if l = 3 then { q with m3 := q.m3 + openRound 0x96 (v - q.m3) 4096 } else q }

/-- One LMS update on symbol k (R106); how the steps round is left open. DEDUCED: log 76, 77. -/
def adapt (e : EngIx) (ledger : Bool) (k : Nat) (s : State) : State :=
  if s.bit (R.eqCfgFreeze e) then s else
  let q := s.eng[e].slot
  let err := (Assoc.get k q.ys).getD 0 - targetOut s e ledger q k
  let ins := tapInputs s e q k
  let n := s.rd (R.eqCfgLeak e)
  (List.range 29).foldl (fun s i =>
    let t := s.rdI (R.eqTapTap e i)
    let mu := if i < 15 then s.rd (R.eqCfgMuMain e) else s.rd (R.eqCfgMuSide e)
    let d := openRound 0x91 (-(err * nth 0 ins i)) ((4096 * 2 ^ mu : Nat) : Int)
    let l := if n = 0 then 0 else openRound 0x92 (nth 0 s.eng[e].seed i - t) ((2 ^ (n + 15) : Nat) : Int)
    let v := t + d + l
    let c := clampI (-8192) 8191 v
    setIf (c != v) (R.eqStatClamp e) (s.wrI (R.eqTapTap e i) c)) s

/-- Whether symbol k can be taken for adaptation once the equaliser has done every symbol before `next`: a training symbol at
once; one at or behind the window that is open only when that is decided; a sync mark's at once; any other when its
decision is in, 16 symbols late (R106). -/
def updatable (ledger : Bool) (q : SlotRead) (k : Nat) : Bool :=
  let x := q.sync
  let open_ := if !x.hdr then 1600 ≤ k else x.block < x.upto && x.lostAt.isNone && x.expect ≤ k + x.half
  k < q.next && ((trainLevel ledger q k).isSome || (!open_ && ((markAt x k).isSome || k + 16 < q.next)))

/-- Symbols are taken for adaptation in order, as many as can be. -/
def catchUp (e : EngIx) (ledger : Bool) : Nat → State → State
  | 0, s => s
  | n + 1, s =>
    let q := s.eng[e].slot
    let k := q.upd
    if !updatable ledger q k then s else
    let s := if erasedAt s e q k || k = 0 then s else adapt e ledger k (trackGain e ledger k (timing e ledger k s))
    catchUp e ledger n (s.updEng e fun x => { x with slot := { x.slot with upd := k + 1 } })

/-- The mean of the interpolated samples of one level over the last 256 symbols of the run (R103), in 1/(64 × 4,096). -/
def runMean (q : SlotRead) (r level : Nat) : Int :=
  let ks := ((List.range 256).map fun i => r + 768 + i).filter fun k => runSym (k - r) == level
  let l := ks.filterMap fun k => Assoc.get k q.vs
  if l.isEmpty then (if level = 0 then q.m0 else q.m3) else openRound 0x97 (4096 * l.foldl (· + ·) 0) l.length

/-- What the preamble brings at symbol k (R103): the run is found, and at its end gain and offset are set. -/
def preamble (k : Nat) (q : SlotRead) : SlotRead :=
  if k = 240 then
    let l := (List.range 176).map fun i => (Assoc.get (symKey 0 (64 + i)) q.raw).getD 0
    { q with run0 := some (max 80 (min 176 (Config.runStart l))) }
  else match q.run0 with
    | some r => if k = r + 1024 then { q with m0 := runMean q r 0, m3 := runMean q r 3 } else q
    | none => q

/-- The corrected samples of symbol k of every stream are formed (R102, R103). -/
def correct (e : EngIx) (k : Nat) (s : State) : State :=
  let q := s.eng[e].slot
  let v := interpolated q 0 k
  let xs := Assoc.put (symKey 0 k) (gained s e q v) q.xs
  let xs := if s.bit (R.eqCfgSideEn e) then
      Assoc.put (symKey 2 k) (besideInput s e q 2 k) (Assoc.put (symKey 1 k) (besideInput s e q 1 k) xs) else xs
  let xs := if nth 0 q.recvd 3 = 0 then xs else Assoc.put (symKey 3 k) (gained s e q (interpolated q 3 k)) xs
  s.updEng e fun x => { x with slot := { x.slot with vs := Assoc.put k v q.vs, xs := xs } }

/-- The injected noise of symbol k in 1/(64 × 4,096): SIGMA / 4,096 of the span A(0) - A(3), from the generator seeded from
NOISE_CTRL.SEED; none in cast mode (R138). -/
def noiseAt (s : State) (e : EngIx) (k : Nat) : Int :=
  if !s.bit (R.mrgCtrlNoiseEn e) || s.bit (R.castCtrlEn e) then 0
  else openRound 0x95 (s.rd (R.noiseCtrlSigma e) * (amplitude s e 0 - amplitude s e 3) * Config.gauss (max 1 (s.rd (R.noiseCtrlSeed e))) k) (2 ^ 16)

/-- The output as the detector takes it: in deep read the mean of the main and the trailing stream's (R135), with noise. -/
def detectorInput (s : State) (e : EngIx) (q : SlotRead) (k : Nat) (y : Int) : Int :=
  (if nth 0 q.recvd 3 = 0 then y else openRound 0x9A (y + trailing s e q k) 2) + noiseAt s e k

/-- The channel takes slot symbol k (R102 to R106, R109, R120). -/
def stepSym (e : EngIx) (ledger : Bool) (k : Nat) (s : State) : State :=
  let s := s.updEng e fun x => { x with slot := if ledger then x.slot else preamble k x.slot }
  let s := if k = 0 then (List.range 8).foldl (fun s i => correct e i s) s else correct e (k + 7) s
  let q := s.eng[e].slot
  let y := equalise s e q k
  let z := detectorInput s e q k y
  let paths := survivors (amps s e) (targets s e) (if erasedAt s e q k then none else some z) q.paths
  let dec := match survivorAt 16 paths with
    | some l => if k < 16 then q.dec else Assoc.put (k - 16) l q.dec
    | none => q.dec
  let thr := max 0x10 (min 0x18 (s.rd (R.syncCfgThr e)))
  let sync := syncStep ledger thr (4096 * amplitude s e 0) (4096 * amplitude s e 3) q.fields k y q.sync
  let q := { q with next := k + 1, ph := q.ph + q.fr, ys := Assoc.put k y q.ys, zs := Assoc.put k z q.zs, paths := paths,
                    dec := dec, sync := sync }
  catchUp e ledger 2048 (s.updEng e fun x => { x with slot := q })

/-- The defect detector goes on over the samples that are in (R112). `lower`: how far step 2 lowers LO (Table 4.7). -/
def scanDefects (e : EngIx) (lower : Nat) : Nat → State → State
  | 0, s => s
  | n + 1, s =>
    let q := s.eng[e].slot
    if nth 0 q.recvd 0 ≤ q.scan then s else
    let w := max 1 (s.rd (R.defCfgWin e))
    let fl := match Assoc.get (symKey 0 q.scan) q.raw with
      | some v => defectStep w (s.rd (R.defCfgLo e) - lower) (s.rd (R.defCfgHi e)) q.scan v q.flags
      | none => q.flags
    scanDefects e lower n (s.updEng e fun x => { x with slot := { x.slot with scan := q.scan + 1, flags := fl } })

/-- Whether the samples and flags that symbol k needs are in: of the main stream with the defect detector's window and
widening, of the side streams where they count. -/
def symReady (s : State) (e : EngIx) (q : SlotRead) (k : Nat) : Bool :=
  let have_ := fun (st : Nat) (i : Int) => i + 64 < (nth 0 q.recvd st : Nat)
  have_ 0 (k + s.rd (R.defCfgWin e) + s.rd (R.defCfgExt e)) &&
    (!s.bit (R.eqCfgSideEn e) || q.cast || (have_ 1 (k + s.rdI (R.eqCfgAlignIn e)) && have_ 2 (k + s.rdI (R.eqCfgAlignOut e))))

/-- The channel takes the symbols that are ready, or with `all` every symbol up to the slot's end. -/
def advance (e : EngIx) (ledger all : Bool) : Nat → State → State
  | 0, s => s
  | n + 1, s =>
    let q := s.eng[e].slot
    if q.next ≥ 316000 || !(all || symReady s e q q.next) then s else advance e ledger all n (stepSym e ledger q.next s)

/-- TR_STAT.PHASE follows the interpolator (Table 4.12). -/
def showPhase (e : EngIx) (s : State) : State := s.wr (R.trStatPhase e) (s.eng[e].slot.ph / 65536 % 64).toNat

/-- The rest of a slot is taken: samples that have not come count as erased. -/
def finishSlot (e : EngIx) (ledger : Bool) (lower : Nat) (s : State) : State :=
  let s := scanDefects e lower 316000 s
  let s := s.updEng e fun x =>
    let n := nth 0 x.slot.recvd 0
    { x with slot := { x.slot with symErs := if n < 316000 then x.slot.symErs ++ [(n, 316000 - n)] else x.slot.symErs } }
  showPhase e (advance e ledger true 316000 s)

/-- Numbers in [a, b) that are c modulo 16. -/
def countMod (a b c : Nat) : Nat := (b + 15 - c) / 16 - (a + 15 - c) / 16

/-- Erased symbols of codeword c: interleaved in a frame (R43), a segment's own in a ledger slot (R52). -/
def erasOf (ledger : Bool) (l : List (Nat × Nat)) (c : Nat) : Nat :=
  (l.map fun r => if ledger then min (r.1 + r.2) (19200 * (c + 1)) - max r.1 (19200 * c)
    else countMod r.1 (r.1 + r.2) c).foldl (· + ·) 0

/-- The blank test's result: 3 blank, 4 written, 5 undetermined (R127). The slag list is laid out by the nominal layout, since
no mark gives another. -/
def blankResult (s : State) (e : EngIx) (ledger : Bool) (q : SlotRead) : Nat :=
  let main := q.raw.filter fun x => x.1 < 316000
  let ref := ((main.filter fun x => x.1 < 128).map (·.2)).foldl (· + ·) 0
  let n := (main.filter fun x => x.1 < 128).length
  let out := unionRuns (defectRuns s e q ++ ((slagRuns s e q).map (toSlot (nominalStarts ledger))).flatten)
  let excluded : Nat := (out.map fun r => min (r.1 + r.2) 316000 - r.1).foldl (· + ·) 0
  let dark := main.filter fun x => x.2 * 128 * n < s.rd (R.blankCfgLvl e) * ref && !inRuns out x.1
  if 4 * excluded > 316000 then 5
  else if dark.length < s.rd (R.blankCfgMarks e) && !q.sync.anyMark then 3
  else 4

/-- What the channel gives of data symbol p of a slot: its slot symbol, none where its block never started. -/
def dataSym (x : SyncState) (p : Nat) : Option Nat := (Assoc.get (p / 1200) x.starts).map fun b => b + p % 1200

/-- The scrambler bits of a slot's data symbols (R44, R52): of a frame, or of sixteen ledger segments from number g on. -/
def maskBits (ledger : Bool) (layer slot g : Nat) : List Nat :=
  if ledger then ((List.range 16).map fun i => scrBits (segSeed (g + i)) 38400).flatten else scrBits (frameSeed layer slot) 614400

/-- How the sixteen codewords of a slot lie in its data symbols: symbol j of codeword c, and back (R43, R52). -/
def symOfCw (ledger : Bool) (c j : Nat) : Nat := if ledger then 19200 * c + j else 16 * j + c
def cwOfSym (ledger : Bool) (p : Nat) : Nat × Nat := if ledger then (p / 19200, p % 19200) else (p % 16, p / 16)

end Sys2Proof.Machine
end

