-- ==== Sys2Proof/Machine/Codewords.lean ====
section
/-! DEFINITION. From the detector's outputs to codewords and figures (chapter 4): ratios of data symbols, global passes, the
codeword checks, raw symbol errors, and the sums of the margin block. -/

namespace Sys2Proof.Machine

/-- Fields of a read descriptor (Table 4.6); SLOT, LOC, AREA, LRANK, VADDR and PACKTAG lie as in a pour descriptor. -/
def rStep (d : List Byte) : Nat := leAt d 5 1 % 8
def rFlag (d : List Byte) (b : Nat) : Bool := bitAt (leAt d 7 1) b
def rLedger (d : List Byte) : Bool := rFlag d 2
def rBlank (d : List Byte) : Bool := rFlag d 3
def rCapture (d : List Byte) : Bool := rFlag d 5
def rOut (d : List Byte) : Nat := leAt d 64 8
def rCapt (d : List Byte) : Nat := leAt d 56 8

/-- Surface, layer and zone of a read descriptor's slot. -/
def rPlace (d : List Byte) : Nat × Nat × Nat := (dSurf d, dLayer d, zoneOf (dLayer d) (dSlot d))

/-- The metadata that codeword c of a descriptor's frame is expected to carry, with PAD and VALID as read (R115). DEDUCED: log 75. -/
def expectedMeta (d : List Byte) (c : Nat) (got : List Byte) : List Byte :=
  let role := roleOf (dSurf d) (dSlot d)
  let pad := if bitAt (leAt got 16 1) 4 then 1 else 0
  let fl := fun b => if rFlag d b then 1 else 0
  if rLedger d then
    metaBytes (leAt d 16 8 + c) 0 (dSlot d) (leAt got 16 1 / 32) pad (leAt got 16 1 % 16) (dLayer d) 1 (fl 1) (fl 0) (leAt got 18 2) (dTag d)
  else
    metaBytes (leAt d 16 8 + (if role < 6 then 4096 * (16 * role + c) else 0)) (dRank d) (dSlot d) role pad c (dLayer d) 0
      (fl 1) (fl 0) (leAt got 18 2) (dTag d)

/-- Whether the metadata agrees (R115): with NOCHK only SLOT, the layer and LEDGER are compared. -/
def metaOk (d : List Byte) (c : Nat) (got : List Byte) : Bool :=
  leAt got 18 2 ≤ 4096 &&
  if rFlag d 4 then leAt got 12 4 == dSlot d && leAt got 17 1 / 16 == dLayer d && bitAt (leAt got 17 1) 2 == rLedger d
  else got == expectedMeta d c got

/-- The iteration limit and the passes of a step (R114, Table 4.7). -/
def iterLimit (s : State) (e : EngIx) (step : Nat) : Nat :=
  if step = 0 then max 1 (min 0x14 (s.rd (R.ldpcCfgIterMax e))) else max 1 (min 0x3C (s.rd (R.ldpcCfgIterExt e)))
def passLimit (s : State) (e : EngIx) (step : Nat) : Nat :=
  max 1 (min 4 (if step = 0 then s.rd (R.ldpcCfgGlobal e) else s.rd (R.ldpcCfgGlobalExt e)))

/-- A codeword in the decoder: the ratios it was last given, those it ended with, iterations of the last pass, passes used,
and whether its syndrome is zero. -/
structure CwDec where
  given : List Int
  final : List Int
  iter : Nat
  passes : Nat
  ok : Bool
  deriving DecidableEq, Repr

/-- A codeword that no pass has decoded. -/
def CwDec.none : CwDec := { given := [], final := [], iter := 0, passes := 0, ok := false }

/-- The information bytes decided. -/
def CwDec.info (x : CwDec) : List Byte := bytesOf8 (decided x.final) 4128

/-- The 38,400 ratios of a codeword from those of the data symbols (R43). -/
def cwRatios (ledger : Bool) (l : List (Int × Int)) (c : Nat) : List Int :=
  ((List.range 19200).map fun j => let r := nth (0, 0) l (symOfCw ledger c j); [r.1, r.2]).flatten

/-- What the decoder has found out about the bits of data symbol p beyond what it was given (R110). -/
def extrinsic (ledger : Bool) (l : List (Nat × CwDec)) (p : Nat) : Int × Int :=
  let (c, j) := cwOfSym ledger p
  match Assoc.get c l with
  | some x => (nth 0 x.final (2 * j) - nth 0 x.given (2 * j), nth 0 x.final (2 * j + 1) - nth 0 x.given (2 * j + 1))
  | none => (0, 0)

/-- One pass: codewords whose syndrome is not yet zero are decoded from the detector's ratios (R110, R114). -/
def decodePass (ledger : Bool) (norm limit : Nat) (chan : (Nat → Int × Int) → List (Int × Int)) (l : List (Nat × CwDec)) :
    List (Nat × CwDec) :=
  let r := chan (extrinsic ledger l)
  l.map fun x =>
    if x.2.ok then x else
    let given := cwRatios ledger r x.1
    let (final, n) := ldpcDecode norm limit given
    (x.1, { given := given, final := final, iter := n, passes := x.2.passes + 1, ok := ldpcOk (decided final) })

/-- At most n passes. -/
def decodePasses (ledger : Bool) (norm limit : Nat) (chan : (Nat → Int × Int) → List (Int × Int)) :
    Nat → List (Nat × CwDec) → List (Nat × CwDec)
  | 0, l => l
  | n + 1, l => decodePasses ledger norm limit chan n (decodePass ledger norm limit chan l)

/-- The data symbol that slot symbol k carries. -/
def dataAt (x : SyncState) (k : Nat) : Option Nat :=
  (x.starts.find? fun b => b.2 ≤ k && k < b.2 + 1200).map fun b => 1200 * b.1 + (k - b.2)

/-- Ratios of data symbol p with the sign inverted where the scrambler bit is 1 (R110). -/
def unmask (mask : List Nat) (p : Nat) (r : Int × Int) : Int × Int :=
  (if nth 0 mask (2 * p) = 1 then -r.1 else r.1, if nth 0 mask (2 * p + 1) = 1 then -r.2 else r.2)

/-- The detector over a slot's outputs, with the decoder's ratios as a priori input. -/
def detOf (s : State) (e : EngIx) (q : SlotRead) (mask : List Nat) (ers : List (Nat × Nat)) (prior : Nat → Int × Int) : DetIn :=
  let out := (ers.map (toSlot q.sync.starts)).flatten
  { amp := amps s e, tgt := targets s e, scale := s.rd (R.detLlrScale e),
    y := fun k => if inRuns out k || inRuns q.symErs k then none else Assoc.get k q.zs,
    prior := fun k => ((dataAt q.sync k).map fun p => unmask mask p (prior p)).getD (0, 0) }

/-- The ratios that the channel delivers for the 307,200 data symbols (R110, R111): 0 for an erased one. -/
def channelRatios (s : State) (e : EngIx) (q : SlotRead) (mask : List Nat) (ers : List (Nat × Nat)) (prior : Nat → Int × Int) :
    List (Int × Int) :=
  let l := slotRatios (detOf s e q mask ers prior)
  let lim : Int := min 31 (s.rd (R.detLlrClip e)) 
  (List.range 307200).map fun p =>
    match dataSym q.sync p with
    | some k => if inRuns ers p then (0, 0) else let r := nth (0, 0) l k; unmask mask p (clipTo lim r.1, clipTo lim r.2)
    | none => (0, 0)

/-- Ratios combined with those stored (R130, Table 4.7). -/
def combine (old new : List (Int × Int)) : List (Int × Int) :=
  if old.isEmpty then new else List.zipWith (fun a b => (clipTo 31 (a.1 + b.1), clipTo 31 (a.2 + b.2))) old new

/-- The level of symbol j of codeword c whose bits are v. -/
def cwLevel (ledger : Bool) (mask v : List Nat) (c j : Nat) : Nat :=
  let p := symOfCw ledger c j
  grayLevel (xorBits (nth 0 v (2 * j)) (nth 0 mask (2 * p))) (xorBits (nth 0 v (2 * j + 1)) (nth 0 mask (2 * p + 1)))

/-- The level of slot symbol k, from the codewords taken as decoded, and as known or tentatively decided elsewhere. -/
def slotLevel (ledger : Bool) (q : SlotRead) (mask : List Nat) (truth : List (Nat × List Nat)) (k : Nat) : Nat :=
  match dataAt q.sync k with
  | none => levelAt ledger q k
  | some p =>
    let (c, j) := cwOfSym ledger p
    match Assoc.get c truth with
    | some v => cwLevel ledger mask v c j
    | none => levelAt ledger q k

/-- Raw symbol errors of a codeword: its data symbols whose tentative decision differs from the level given for them (R78, R137).
DEDUCED: log 100. -/
def symErrors (ledger : Bool) (q : SlotRead) (level : Nat → Nat) (c : Nat) : Nat :=
  ((List.range 19200).filter fun j =>
    match (dataSym q.sync (symOfCw ledger c j)).bind fun k => Assoc.get k q.dec with
    | some l => l != level j
    | none => false).length

/-- The sums of the margin block over one codeword (R137, R139): unerased symbols, Σ e² and Σ r² in 1/2^36, and the two sums of
log2 p in Q32.32. -/
structure CwSums where
  n : Nat
  e2 : Nat
  r2 : Nat
  a : Int
  b : Int
  deriving DecidableEq, Repr

/-- Target output of slot symbol k on given levels, in 1/(64 × 4,096). -/
def levelOut (s : State) (e : EngIx) (level : Nat → Nat) (k : Nat) : Int :=
  branchOut (amps s e) (targets s e) (level (k - 2)) (level (k - 1)) (level k)

/-- Unerased slot symbols of codeword c with their outputs. -/
def cwSyms (ledger : Bool) (q : SlotRead) (ers : List (Nat × Nat)) (c : Nat) : List (Nat × Int) :=
  (List.range 19200).filterMap fun j =>
    let p := symOfCw ledger c j
    if inRuns ers p then none else (dataSym q.sync p).bind fun k => (Assoc.get k q.zs).map fun z => (k, z)

/-- One step of the forward recursion over the 16 states (R139): uniform symbol priors and a Gaussian branch likelihood. An
erased symbol weighs every branch alike. -/
def sirStep (amp tgt : List Int) (variance : Nat) (y : Option Int) (m : List Int) : List Int :=
  (List.range 16).map fun st => Config.log2Sum ((List.range 4).map fun a =>
    nth 0 m (4 * a + st / 4) - 2 ^ 33 + match y with
      | some y => Config.gaussLog2 ((y - branchOut amp tgt a (st / 4) (st % 4)).natAbs ^ 2) variance
      | none => 0)

/-- log2 p(y[k] | y[0 … k-1]) of symbols k on, n of them, from the state metrics before them. -/
def sirRun (amp tgt : List Int) (variance : Nat) (y : Nat → Option Int) : Nat → Nat → List Int → List Int
  | 0, _, _ => []
  | n + 1, k, m =>
    let m2 := sirStep amp tgt variance (y k) m
    (Config.log2Sum m2 - Config.log2Sum m) :: sirRun amp tgt variance y n (k + 1) m2

/-- The margin sums of the codewords given with their bits; `sir`: the recursion runs. DEDUCED: log 100. -/
def marginSums (s : State) (e : EngIx) (ledger sir : Bool) (q : SlotRead) (mask : List Nat) (ers : List (Nat × Nat))
    (truth : List (Nat × List Nat)) : List (Nat × CwSums) :=
  let level := slotLevel ledger q mask truth
  let per := truth.map fun x => (x.1, (cwSyms ledger q ers x.1).map fun y => (y.1, y.2, levelOut s e level y.1))
  let sq := fun (l : List (Nat × Int × Int)) => (l.map fun y => (y.2.1 - y.2.2).natAbs ^ 2).foldl (· + ·) 0
  let n := (per.map fun x => x.2.length).foldl (· + ·) 0
  let variance := (per.map fun x => sq x.2).foldl (· + ·) 0 / max 1 n
  let past := if sir then sirRun (amps s e) (targets s e) variance (detOf s e q mask ers fun _ => (0, 0)).y 316000 0
      (List.replicate 16 (-(2 ^ 34 : Int))) else []
  per.map fun x => (x.1,
    { n := x.2.length, e2 := sq x.2, r2 := (x.2.map fun y => y.2.2.natAbs ^ 2).foldl (· + ·) 0,
      a := if sir then (x.2.map fun y => nth 0 past y.1).foldl (· + ·) 0 else 0,
      b := if sir then (x.2.map fun y => Config.gaussLog2 ((y.2.1 - y.2.2).natAbs ^ 2) variance).foldl (· + ·) 0 else 0 })

/-- The longest run of true values. -/
def longestRun : Nat → List Bool → Nat
  | n, [] => n
  | n, true :: t => max n (longestRun (n + 1) t)
  | n, false :: t => max n (longestRun 0 t)

end Sys2Proof.Machine
end

