-- ==== Sys2Proof/Machine/Casting.lean ====
section
/-! DEFINITION. Casting (chapter 3): assembly, the cast mode of the beam engines, verdicts, the journal's commits,
riser visits, ledger pours and the release of tiles. -/

namespace Sys2Proof.Machine

/-- Whether engine e is powered: its registers answer (R418). -/
def engReady (s : State) (e : EngIx) : Bool := bitAt (s.rd R.pwrEngrdyRdy) e

/-- A command written to a register of engine e: an unpowered block answers with a bus error (R418). -/
def engWrite (e : EngIx) (f : State → State) (s : State) : State :=
  if engReady s e then f s else { clkReason 0x0D04 noPos (engBase e) e s with resp := .busError 0x0D04 }

/-- Control requests of engine e for a pickup that go on while others wait (R258). -/
def engCreq (p : PosIx) (e : EngIx) (addr data : Nat) (s : State) : State := creq p 2 addr data (.engine e) s

/-- The zone preset, sent when a descriptor names another zone than the one last preset (R101); the PF8 relocks. -/
def zonePreset (p : PosIx) (f : Fin 8) (e : EngIx) (z : Nat) (s : State) : State :=
  if s.eng[e].preset == some z then s else
  let s := ((s.wr (R.trStatZone e) z).clr1 (R.trStatLocked e)).updEng e fun x => { x with preset := some z }
  engCreq p e (0x100 + 0x20 * f) z s

/-- Table writes of engine e that the PF8 has not answered. -/
def wickPending (s : State) (p : PosIx) (e : EngIx) : Nat :=
  ((s.pos[p].igl.out ++ s.pos[p].igl.waiting).filter fun c => c.owner == .engine e && c.addr ≥ 0x1000).length

/-- The wick table of a descriptor (R258): 32 writes to the pickup's inactive bank when its address differs from the
one last uploaded since the PF8 was trained. -/
def wickUpload (p : PosIx) (f : Fin 8) (e : EngIx) (wick : Nat) (s : State) : State :=
  let s := s.updEng e fun x => { x with uploads := wickPending s p e }
  if Assoc.get f s.pos[p].igl.wickAddr == some wick then s else
  let s := s.updIgl p fun g => { g with wickAddr := Assoc.put f wick g.wickAddr }
  let b := 1 - nth 0 s.pos[p].pf8.bank f
  let tab := s.sramRead wick 128
  let s := s.updEng e fun x => { x with uploads := x.uploads + 32 }
  (List.range 32).foldl (fun s i => engCreq p e (0x1000 + 0x100 * f + 0x80 * b + 4 * i) (leAt tab (4 * i) 4) s) s

/-- The zone a pour descriptor's slot lies in. -/
def dZone (d : List Byte) : Nat := zoneOf (dLayer d) (dSlot d)

/-- A frame of a rank that is not pouring is armed: what a missed slot noted of its surface no longer counts (R84). DEDUCED: log 72. -/
def rankArmed (p : PosIx) (n : Nat) (f : Fin 8) (s : State) : State :=
  updRanks p n (fun r => if r.phase == .pouring || r.phase == .awaiting then r
    else { r with posted := clrBit r.posted f, passed := clrBit r.passed f, judged := clrBit r.judged f }) s

/-- The neighbour sources in use for a pour descriptor on surface f, as CAST_NBR codes them (R77): for a frame of a rank as the
controller chooses, else as its descriptor says. DEDUCED: log 101. -/
def nbrOf (s : State) (p : PosIx) (f : Nat) (d : List Byte) : Nat :=
  if dIsRank d then 4 * neighbourChoice s p f (dLayer d) (dSlot d) true + neighbourChoice s p f (dLayer d) (dSlot d) false
  else leAt d 14 1 % 16

/-- CAST_CTRL.START in cast mode and not BUSY (R71): the descriptor is fetched and the engine waits for its slot. A
descriptor that lies outside SRAM or in an uncorrectable word ends the frame abandoned (Table 12.3). DEDUCED: log 72. -/
def castStart (e : EngIx) (s : State) : State :=
  if s.bit (R.castStatBusy e) || s.bit (R.rdStatBusy e) || !s.eng[e].mode then s else
  let a := s.rd (R.castDescAddr e) * 128
  let inSram := sramBase ≤ a && a + 128 ≤ sramBase + sramSize
  let (ok, s) := if inSram then wordsMet (reqCode (.beam e)) a 128 s else (false, outside (.beam e) a Config.reachReason.toNat s)
  if !ok then
    { ((s.wr (R.castStatVerdict e) 3).set1 (R.castStatDone e)) with resp := .frameAbandoned }
  else
    let d := s.sramRead a 128
    let s := ((s.set1 (R.castStatBusy e)).wr (R.castPscaleTarget e) (leAt d 12 2 % 4096))
    let nbr := match s.eng[e].home with
      | some (p, f) => nbrOf s p f d
      | none => leAt d 14 1 % 16
    let s := (s.wr (R.castNbrLater e) (nbr / 4)).wr (R.castNbrEarlier e) nbr
    let s := s.updEng e fun x => { x with desc := d, armed := true, gateLost := false }
    match s.eng[e].home with
    | none => s
    | some (p, f) =>
      let s := zonePreset p f e (dZone d) s
      let s := engCreq p e (0x104 + 0x20 * f) 2 s
      let s := if dIsRank d then rankArmed p (dRank d) f (wickUpload p f e (leAt d 32 8) s) else wickUpload p f e (leAt d 32 8) s
      if dIsRank d && bitAt (((rankOf s p (dRank d)).map (·.bad)).getD 0) (dRole d) then s.set1 (R.castStatSeal e) else s

/-- A surface of a rank is posted without a frame: its engine did not open the gate (R72). Where no engine opened one,
the slot stays blank and the rank is poured into it when the stream resumes (R84). DEDUCED: log 72. -/
def slotMissed (p : PosIx) (n : Nat) (f : Fin 8) (s : State) : State :=
  updRanks p n (fun r =>
    let posted := setBit r.posted f
    if r.phase == .assembled then { r with posted := if posted == 255 then 0 else posted } else { r with posted := posted }) s

/-- The first gate of a rank opens (R48, R84): the rank pours in its slot, a riser slot is consumed, the stream and the
cast's first pour are noted. -/
def rankOpens (p : PosIx) (d : List Byte) (s : State) : State :=
  let n := dRank d
  let layer := dLayer d
  let slot := dSlot d
  let s := updRanks p n (fun r => { r with phase := .pouring, slot := slot }) s
  let now := s.rd R.timeNowNs
  let s := updCast p (n / 128) (fun c => { c with first := some (c.first.getD now) }) s
  let s := if dArea d = 1 then
      let used := slot - riserBase layer + 1
      s.updPack p fun k => { k with riser := Assoc.put layer (max used ((Assoc.get layer k.riser).getD 0)) k.riser }
    else s
  s.updPack p fun k => { k with stream := some (layer, slot) }

/-- An injection on the position ends at the next tick after a write gate opens (R225). DEDUCED: log 91. -/
def injectionAbort (p : PosIx) (s : State) : State :=
  if s.bit R.calInjEn && s.rd R.calInjPos == p.val then { s with cal := { s.cal with abortDue := true } } else s

/-- Symbols of one revolution in a zone, not fewer: a symbol is 60 nm, a zone's outer radius is 23.0 + (z + 1) × 0.5546875 mm
(R26, R101), and 355/113 exceeds π. -/
def revSymbols (z : Nat) : Nat := 2 * 355 * (230000000 + (z + 1) * 5546875) / (113 * 600) + 1

/-- The power scale sent with symbol k of the slot (R74): APPLIED moves one code toward TARGET where the codes moved within the
revolution before stay within 0.25 % of APPLIED; below 400 codes one code a revolution (DESIGN CHOICE: log 73). -/
def pscaleStep (e : EngIx) (k : Nat) (s : State) : State :=
  let t := s.rd (R.castPscaleTarget e)
  let a := s.rd (R.castPscaleApplied e)
  let d := s.eng[e].desc
  let here := dSlot d * 316000 + k
  let recent := s.eng[e].steps.filter fun (x : Nat) => ((here : Int) - (x : Int)).natAbs < revSymbols (dZone d)
  if a = t || recent.length ≥ max 1 (a / 400) then s
  else (s.wr (R.castPscaleApplied e) (if a < t then a + 1 else a - 1)).updEng e fun x => { x with steps := here :: recent }

/-- The eighth whose wobble address word an armed engine needs (R71, R72). -/
def startEighth (d : List Byte) : Nat := if dLedger d then dSeg d / 2 else 0

/-- Whether the controller pours the frame of descriptor d with engine e now (R13, R31, R53, R59, R63, R71, R95): the engine is
in cast mode in a pour's stripe operation; a rank is assembled for that slot, next in pour order, and the slot is established
blank, or its pour into it has begun; no new rank starts without the cores; ledger segments are those of the pour under way,
on S0 and S1. DEDUCED: log 72. -/
def pourAllowed (s : State) (p : PosIx) (e : EngIx) (d : List Byte) : Bool :=
  (s.stripes.any fun x => x.p == p && x.pour && x.engines.contains e) && s.eng[e].mode && !s.bit (R.rdStatBusy e) &&
  if dLedger d then
    dSurf d ≤ 1 && match s.packs[p].lpour with
      | some l => l.seg ≤ dVaddr d && dVaddr d + dNseg d ≤ l.seg + l.nseg && dSlot d == ledgerSlot0 + dVaddr d / 16
      | none => false
  else if dIsRank d then
    match rankOf s p (dRank d) with
    | some r => !(allEng.any fun k => (s.eng[k].home.map (·.1)) == some p && s.eng[k].gate && dLedger s.eng[k].desc) &&
        r.slot == dSlot d && rankLayer r.n == dLayer d && (r.phase == .pouring ||
        (r.phase == .assembled && fwUp s && !pourPaused s p && pourTurn s p r && slotBlank s p (dLayer d) (dSlot d)))
    | none => false
  else slotBlank s p (dLayer d) (dSlot d)

/-- Whether the write gate opens at the slot (R72, R157, R258): its wobble address word decodes to the descriptor's layer, side
and slot, no snuff is set, no jump sequence runs on the surface, and the wick table is there. -/
def gateOpens (s : State) (p : PosIx) (f : Fin 8) (e : EngIx) (w : List Nat) : Bool :=
  let d := s.eng[e].desc
  wobbleAt (wauNibbles w) (dLayer d) (dSurf d) (dSlot d) (startEighth d) && !s.bit (R.srvSnuffLatch p) &&
    s.eng[e].uploads == 0 && (s.surfAt p f).jump.isNone && pourAllowed s p e d

/-- The slot just poured makes room: its frame keeps what the verify spot gave. -/
def carrySlot (x : EngState) : EngState :=
  { x with poured := x.poured.map fun y => match y.slot with | none => { y with slot := some x.slot } | some _ => y }

/-- The first gate of a frame opens for position p: what its rank or its ledger pour notes. -/
def gateNotes (p : PosIx) (f : Fin 8) (d : List Byte) (s : State) : State :=
  if dIsRank d then
    let s := if ((rankOf s p (dRank d)).map (·.phase)) == some RankPhase.pouring then s else rankOpens p d s
    updRanks p (dRank d) (fun r => { r with frames := Assoc.put f.val (d, s.rd R.timeNowNs) r.frames }) s
  else s

/-- The write gate opens (R71, R72): the engine stamps POURTIME and verifies from the trailing spot, 133 symbols behind (R75). -/
def openGate (e : EngIx) (p : PosIx) (f : Fin 8) (symcnt : Nat) (s : State) : State :=
  let d := s.eng[e].desc
  let s := gateNotes p f d (injectionAbort p s)
  let nbr := 4 * s.rd (R.castNbrLater e) + s.rd (R.castNbrEarlier e)
  let s := s.updPos p fun y => { y with gates := setBit y.gates f }
  s.updEng e fun x =>
    let x := carrySlot x
    { x with armed := false, gate := true, gateLost := false, pourTime := s.rd R.timeNowNs, start := symcnt % 2 ^ 32, sent := 0,
             last := some (p.val, dSurf d, dLayer d, dZone d),
             slot := x.slot.begin true d nbr ((symcnt + 133) % 2 ^ 32) (.fresh (dLedger d) (dSeg d) (dNseg d)) }

/-- An armed engine at its slot (R72). DEDUCED: log 72. -/
def pourSlotStart (e : EngIx) (at_ : SlotStart) (s : State) : State :=
  let x := s.eng[e]
  match x.home with
  | none => s
  | some (p, f) =>
    if !x.armed then s
    else if gateOpens s p f e at_.wobble then openGate e p f at_.symcnt s
    else
      let s := (s.set1 (R.castStatSync e)).clr1 (R.castStatBusy e)
      let s := takeMode e (s.updEng e fun x => { x with armed := false })
      if dIsRank x.desc then slotMissed p (dRank x.desc) f s else s

/-- Engine e sends its next wick packet (R73, R74, R251). A ledger pour's gate opens and closes with each segment (R71); the
frame ends with the last code. -/
def sendWick (e : EngIx) (p : PosIx) (w : WickPacket) (s : State) : State :=
  let x := s.eng[e]
  match nextWick x.desc x.sent with
  | none => endPour e s
  | some (at_, n, first, last) =>
    let s := pscaleStep e at_ s
    let codes := wickOf s p x.desc x.pourTime at_ n
    let s := s.updTx p fun t => { t with packets := t.packets + 1 }
    let s := if w.lost then s
      else pf8Wick p w.pickup (w.crcOk && !w.late) first last ((x.start + at_) % 2 ^ 32) (s.rd (R.castPscaleApplied e)) codes s
    let s := s.updPos p fun y => { y with gates := if last then clrBit y.gates w.pickup else setBit y.gates w.pickup }
    let s := if first && dLedger x.desc then s.updPack p fun k =>
        { k with lpour := k.lpour.map fun l => { l with reached := max l.reached (dVaddr x.desc - dSeg x.desc + at_ / 19750 + 1) } }
      else s
    let s := s.updEng e fun x => { x with sent := at_ + n }
    if (nextWick x.desc (at_ + n)).isNone then endPour e s else s

/-- A wick packet of a pickup: the engine that pours there sends it. -/
def wickPacket (p : PosIx) (w : WickPacket) (s : State) : State :=
  s.forEach allEng fun e s => if s.eng[e].home == some (p, w.pickup) && s.eng[e].gate then sendWick e p w s else s

/-- An abandoned frame as its engine shows it (Tables 3.14 and 3.18). -/
def abandoned (e : EngIx) (p : PosIx) (s : State) : State :=
  (((s.clr1 (R.castStatBusy e)).wr (R.castStatVerdict e) 3).set1 (R.castStatDone e)).wr (R.castSnuffSrc e) (s.rd (R.srvSnuffSeen p))

/-- CAST_CTRL.ABORT (R82): the abort source rises until the next servo tick, and the frame is abandoned. -/
def castAbort (e : EngIx) (s : State) : State :=
  match s.eng[e].home with
  | none =>
    if s.bit (R.castStatBusy e) then
      takeMode e ((((s.clr1 (R.castStatBusy e)).wr (R.castStatVerdict e) 3).set1 (R.castStatDone e)).updEng e fun x =>
        { x with armed := false, gate := false })
    else s
  | some (p, _) =>
    let s := raiseSnuff p 9 s
    if s.bit (R.castStatBusy e) then
      takeMode e ((abandoned e p s).updEng e fun x => { x with armed := false })
    else s

/-- The marks of a frame or segment (Table 3.3): at most `fly` flywheeled, never two in succession. -/
def marksOk (fly : Nat) (l : List Bool) : Bool :=
  (l.filter (!·)).length ≤ fly && (List.zip l (l.drop 1)).all fun x => x.1 || x.2

/-- The limits in force: looser values act as their bounds (Tables 3.12 and 3.13). -/
def serMax (s : State) (e : EngIx) : Nat := min (s.rd (R.castVfy0SerMax e)) 0x180
def erunMax (s : State) (e : EngIx) : Nat := min (s.rd (R.castVfy0ErunMax e)) 0x60
def flyMax (s : State) (e : EngIx) : Nat := min (s.rd (R.castVfy0FlyMax e)) 4
def iterMax (s : State) (e : EngIx) : Nat := min (s.rd (R.castVfy0IterMax e)) 10
def erasMax (s : State) (e : EngIx) : Nat := min (s.rd (R.castVfy1ErasMax e)) 0xC0
def lvlTol (s : State) (e : EngIx) : Nat := min (s.rd (R.castVfy1LvlTol e)) 0x1E
def hdrCorrMax (s : State) (e : EngIx) : Nat := min (s.rd (R.castVfy1HdrCorrMax e)) 4

/-- The target reflectances of levels 1 to 3, in thousandths (Table 2.4). -/
def levelTargets : List Nat := [720, 460, 220]

/-- What verify finds in one codeword: raw symbol errors, symbols that the defect detector flagged, its longest flagged run, and
whether it decodes to the intended bits. -/
structure VerifyCw where
  ser : Nat
  eras : Nat
  run : Nat
  good : Bool
  deriving DecidableEq, Repr

/-- What verify finds in a frame: whether header and sync marks are as R78 wants them, header bytes, codewords, and the mean
reflectances of levels 1 to 3. -/
structure VerifyFrame where
  sync : Bool
  header : List Nat
  cws : List VerifyCw
  levels : List Nat
  deriving DecidableEq, Repr

/-- The marks of n blocks from b on: true where accepted. -/
def markList (x : SyncState) (b n : Nat) : List Bool :=
  (List.range n).map fun i => (Assoc.get (b + i) x.starts).isSome && !x.flown.contains (b + i)

/-- The header as the engine reads it (R37): 45 code bytes sliced behind its mark, none without one. -/
def headerRead (s : State) (e : EngIx) (q : SlotRead) : List Nat :=
  match q.sync.head with
  | none => []
  | some h =>
    let a0 := 4096 * amplitude s e 0
    let a3 := 4096 * amplitude s e 3
    bytesOfBits (headerMask ((List.range 360).map fun i =>
      let y := (Assoc.get (h + 24 + i) q.ys).getD a0
      if (y - a3).natAbs < (y - a0).natAbs then 1 else 0))

/-- The codewords of a poured slot, as the slot numbers them. -/
def pouredCws (d : List Byte) : List Nat := if dLedger d then (List.range (dNseg d)).map (dSeg d + ·) else List.range 16

/-- The number of a poured codeword in its descriptor's frame or pour. -/
def cwIndex (d : List Byte) (c : Nat) : Nat := if dLedger d then c - dSeg d else c

/-- The decoder's result for the codewords of a poured slot, within CAST_VFY0.ITER_MAX (R114, Table 3.3). -/
def verifyDecode (s : State) (e : EngIx) (q : SlotRead) (mask : List Nat) : List (Nat × CwDec) :=
  let d := q.desc
  decodePasses (dLedger d) (s.rd (R.ldpcCfgNorm e)) (iterMax s e) (channelRatios s e q mask (erasures s e q)) (passLimit s e 0)
    ((pouredCws d).map fun c => (c, CwDec.none))

/-- Verify of codeword c of a poured slot (Table 3.3). -/
def verifyCw (s : State) (e : EngIx) (p : PosIx) (q : SlotRead) (mask : List Nat) (dec : List (Nat × CwDec)) (c : Nat) : VerifyCw :=
  let ledger := dLedger q.desc
  let info := pourInfo s p q.desc (cwIndex q.desc c)
  let bits := codeBits info
  let flagged := unionRuns ((defectRuns s e q).map (toData q.sync.starts)).flatten
  { ser := symErrors ledger q (cwLevel ledger mask bits c) c,
    eras := erasOf ledger flagged c,
    run := longestRun 0 ((List.range 19200).map fun j => inRuns flagged (symOfCw ledger c j)),
    good := ((Assoc.get c dec).map fun x => x.ok && x.info == info).getD false }

/-- The mean reflectance of a level over the symbols that a pour meant to have it, in 1/4,096 of that of the slot's lead guards,
which are unrecorded (Tables 2.4, 3.3 and 3.16); where neither has a sample it is not stated. DEDUCED: log 102. -/
def meanLevel (q : SlotRead) (want : List Nat) (level : Nat) : Nat :=
  let on := (pourSpans q.desc).map fun x => (List.range x.2).map (x.1 + ·)
  let ks := on.flatten.filter fun k => nth 0 want k == level
  let guard := if dLedger q.desc then (pourSpans q.desc).map fun x => (List.range 32).map (x.1 + ·) else [List.range 128]
  let v := ks.filterMap fun k => Assoc.get k q.vs
  let g := guard.flatten.filterMap fun k => Assoc.get (symKey 0 k) q.raw
  let sum := g.foldl (· + ·) 0
  if v.isEmpty || sum = 0 then Config.noLevel level
  else (openRound 0x9C (4096 * v.foldl (fun a b => a + b) (0 : Int) * (g.length : Int)) ((64 * v.length * sum : Nat) : Int)).toNat % 65536

/-- Verify of a poured slot (R78, Table 3.3). -/
def verifySlot (s : State) (e : EngIx) (p : PosIx) (time : Nat) (q : SlotRead) : VerifyFrame :=
  let d := q.desc
  let mask := maskBits (dLedger d) (dLayer d) (dSlot d) (dVaddr d - dSeg d)
  let dec := verifyDecode s e q mask
  let want := pourLevels s p d time
  let sync := if dLedger d then
      (pouredCws d).all fun c => marksOk (flyMax s e) (markList q.sync (16 * c) 16)
    else q.sync.head.isSome && marksOk (flyMax s e) (markList q.sync 0 256)
  { sync := sync, header := headerRead s e q, cws := (pouredCws d).map (verifyCw s e p q mask dec),
    levels := [meanLevel q want 1, meanLevel q want 2, meanLevel q want 3] }

/-- The criteria of Table 3.3, in the order of CAST_STAT bits [6:0]: true where one fails. A ledger pour has no header. -/
def verifyFails (s : State) (e : EngIx) (x : Poured) (v : VerifyFrame) : List Bool :=
  let hdr := dLedger x.desc || (v.header.length == 45 && hamming v.header (headerCode (intended x.desc x.time)) ≤ hdrCorrMax s e)
  [!v.sync, !hdr, v.cws.any (fun c => c.ser > serMax s e), v.cws.any (fun c => c.eras > erasMax s e || c.run > erunMax s e),
   v.cws.any (fun c => !c.good),
   (List.zip v.levels levelTargets).any fun l => ((1000 * l.1 : Int) - 4096 * l.2).natAbs > 4096 * lvlTol s e, x.gateLost]

/-- The figures and criterion bits that a verdict leaves in the engine's registers (Tables 3.14 to 3.16). -/
def showVerify (e : EngIx) (v : VerifyFrame) (fails : List Bool) (s : State) : State :=
  let s := (s.wr (R.castSerSerWorst e) ((v.cws.map (·.ser)).foldl max 0)).wr (R.castSerErasWorst e)
    ((v.cws.map (·.eras)).foldl max 0)
  let s := ((s.wr (R.castLvlLvl1 e) (nth 0 v.levels 0)).wr (R.castLvlLvl2 e) (nth 0 v.levels 1)).wr (R.castLvlLvl3 e)
    (nth 0 v.levels 2)
  let bits := [R.castStatSync e, R.castStatHdr e, R.castStatSer e, R.castStatEras e, R.castStatDecode e, R.castStatLevels e,
               R.castStatGate e]
  (List.zip bits fails).foldl (fun s b => setIf b.2 b.1 s) s

/-- The metadata of codeword c of role `role` of a rank as poured (Table 2.8); a parity codeword has the rank's first
volume address. -/
def rankMeta (k : PackState) (r : Rank) (role c : Nat) : List Byte :=
  let u := 16 * role + c
  let pad := role < 6 && bitAt r.pads u
  let valid := if pad then 0 else ((r.valids.find? fun x => x.1 == u).map (·.2)).getD 4096
  metaBytes (r.n * rankBytes + (if role < 6 then 4096 * u else 0)) r.n r.slot role (if pad then 1 else 0) c (rankLayer r.n) 0
    (if r.repour > 0 then 1 else 0) (if role < 6 then 1 else 0) valid k.tag

/-- The metadata of codeword i of a rank, in the order of R56, as its frame's descriptor recorded it. -/
def pouredMeta (k : PackState) (r : Rank) (i : Nat) : List Byte :=
  match Assoc.get (surfaceOf (i / 16) r.slot) r.frames with
  | some (d, _) => pourMeta d (i % 16)
  | none => rankMeta k r (i / 16) (i % 16)

/-- The 128 check words of a rank in the order of R56. -/
def rankCrcs (k : PackState) (r : Rank) : List Nat :=
  (List.range 128).map fun i => crc32c (nth [] r.cipher i ++ pouredMeta k r i)

/-- The check words that the governing RANK_CAST entry of rank n carries. -/
def entryCrcs (s : State) (p : PosIx) (n : Nat) : List Nat :=
  ((s.journal.entries ++ s.journal.pend).reverse.findSome? fun e => match e.body with
    | .rankCast m _ _ _ _ _ crcs => if m == n && e.tag == s.packs[p].tag then some crcs else none
    | _ => none).getD []

/-- Whether the ledger, or what is queued for it, relocates a rank to a slot (R98). -/
def hasRelocation (k : PackState) (n slot : Nat) : Bool :=
  (k.ledger ++ k.lq ++ ((k.lpour.map (·.recs)).getD [])).any fun r => match r.body with
    | .relocation m _ _ _ f => m == n && f == slot
    | _ => false

/-- The 128th rank of a cast is cast (R90): the digest, CAST_DONE, the RELOCATION records and the CAST record. -/
def castDone (p : PosIx) (m : Nat) (s : State) : State :=
  match castOf s p m with
  | none => s
  | some c =>
    if c.digest.isSome || c.failed.isSome || c.ranks.length < 128 || c.ranks.any (fun r => r.phase != .cast) then s else
    let dig := castDigest ((List.range 128).map fun i => entryCrcs s p (128 * m + i)).flatten
    let moved := c.ranks.filter fun r => r.repour > 0
    let s := jappend p (.castDone m moved.length dig) s
    let moved := moved.filter fun r => !hasRelocation s.packs[p] r.n r.slot
    let s := moved.foldl (fun s r => queueRec p (.relocation r.n (rankLayer r.n) r.reason r.prev r.slot) s) s
    let q := s.packs[p].seqNext
    let s := queueRec p (.cast m (castLayer m) (c.ranks.filter fun r => r.repour > 0).length dig (c.first.getD 0)) s
    updCast p m (fun c => { c with digest := some dig, recSeq := some q }) s

/-- The rank verdict once all eight engines have posted (R79, R80, R90). While the cores are held in reset, and after
PWRFAIL_N, nothing is decided (R95). -/
def rankDecide (p : PosIx) (n : Nat) (s : State) : State :=
  match rankOf s p n with
  | none => s
  | some r =>
    if r.posted != 255 || r.phase != .awaiting || s.pins.pwrFail || !fwUp s then s else
    let layer := rankLayer n
    let s := noteVerify p layer r.judged (andNotBits r.judged r.passed) s
    if r.passed = 255 then
      let s := updRanks p n (fun r => { r with phase := .cast, posted := 0, passed := 0, judged := 0 }) s
      let s := castAppend p (n / 128) (.rankCast n layer r.repour (if r.repour = 0 then 0 else r.reason) r.slot r.prev
        (rankCrcs s.packs[p] r)) s
      let s := s.updPack p fun k => { k with moved := if r.repour = 0 then k.moved else Assoc.put n r.slot k.moved }
      castDone p (n / 128) s
    else rankFail p n (if r.abandoned then 1 else 2) r.slot s

/-- A frame's verdict posted for its rank (R79). -/
def rankPost (p : PosIx) (n f : Nat) (pass : Bool) (s : State) : State :=
  rankDecide p n (updRanks p n (fun r => { r with posted := setBit r.posted f, judged := setBit r.judged f,
                                                  passed := if pass then setBit r.passed f else r.passed }) s)

/-- A verdict of a ledger pour (R53, R71): segments of the pour under way pass in one copy, or the pour is torn. DEDUCED: log 74. -/
def ledgerPost (p : PosIx) (f : Nat) (d : List Byte) (pass : Bool) (s : State) : State :=
  match s.packs[p].lpour with
  | none => s
  | some l =>
    if dVaddr d < l.seg || dVaddr d + dNseg d > l.seg + l.nseg then s
    else if !pass then tearLedger p s
    else
      let l := if f = 0 then { l with ok0 := l.ok0 + dNseg d } else if f = 1 then { l with ok1 := l.ok1 + dNseg d } else l
      s.updPack p fun k => { k with lpour := some l }

/-- The two copies of the verdict logic disagree (R472): the frame is abandoned as by ABORT, and the rank fails. -/
def verdictMismatch (e : EngIx) (p : PosIx) (f : Nat) (x : Poured) (s : State) : State :=
  let s := abandoned e p (raiseSnuff p 9 (s.log 0x0F03 (reqCode (.beam e)) p 0 (dSlot x.desc)))
  if dLedger x.desc then ledgerPost p f x.desc false s
  else if dIsRank x.desc then
    rankDecide p (dRank x.desc) (updRanks p (dRank x.desc) (fun r => { r with posted := setBit r.posted f, abandoned := true }) s)
  else s

/-- A state change on the slot of a frame whose verdict is due, while another slot has taken its place. -/
def onPoured (e : EngIx) (f : State → State) (s : State) : State :=
  let x := s.eng[e]
  match x.poured with
  | y :: t =>
    match y.slot with
    | some q =>
      let s := f (s.updEng e fun z => { z with slot := q })
      let q := s.eng[e].slot
      s.updEng e fun z => { z with slot := x.slot, poured := { y with slot := some q } :: t }
    | none => f s
  | [] => s

/-- What verify has of a frame whose slot has ended. -/
def pouredSlot (s : State) (e : EngIx) : SlotRead :=
  match s.eng[e].poured with
  | y :: _ => y.slot.getD s.eng[e].slot
  | [] => s.eng[e].slot

/-- An engine posts its verdict (R78, R80). -/
def frameVerdict (e : EngIx) (mismatch : Bool) (s : State) : State :=
  let s := if s.eng[e].poured.isEmpty then endPour e s else s
  match s.eng[e].home, s.eng[e].poured with
  | some (p, f), x :: rest =>
    let gone := fun (s : State) => s.updEng e fun y => { y with poured := rest }
    if mismatch then endWrites (takeMode e (verdictMismatch e p f x (gone s))) else
    let s := onPoured e (finishSlot e (dLedger x.desc) 0) s
    let v := verifySlot s e p x.time (pouredSlot s e)
    let fails := verifyFails s e x v
    let pass := !fails.any id
    let s := gone (showVerify e v fails s)
    let s := (s.wr (R.castStatVerdict e) (if pass then 1 else 2)).set1 (R.castStatDone e)
    let s := if dLedger x.desc then ledgerPost p f x.desc pass s
      else if dIsRank x.desc then rankPost p (dRank x.desc) f pass s
      else s
    endWrites (takeMode e s)
  | _, _ => s

/-- The position whose mounted pack has an identity tag. -/
def posOfTag (s : State) (tag : Nat) : Option PosIx := allPos.find? fun p => s.packs[p].status != .none && s.packs[p].tag == tag

/-- Whether an entry concerns cast m (R91). -/
def ofCast (m : Nat) : JBody → Bool
  | .castOpen c _ _ => c == m
  | .rankCast n .. => n / 128 == m
  | .castDone c _ _ => c == m
  | .castClosed c _ => c == m
  | .castFailed c _ => c == m
  | .pourAbandoned n .. => n / 128 == m
  | .assign c _ _ _ => c == m
  | _ => false

/-- Entries that a committed entry discards (R91). -/
def discards (e x : JEntry) : Bool :=
  x.tag == e.tag && match e.body with
  | .castClosed m _ => ofCast m x.body
  | .castFailed m _ => ofCast m x.body
  | .ledgerFlushed _ => match x.body with | .ledgerFlushed _ => x.seq != e.seq | _ => false
  | _ => false

/-- One appended entry is committed (R80, R91): what it discards goes, CAST_CLOSED closes its cast. -/
def commitEntry (e : JEntry) (s : State) : State :=
  let s := { s with journal := { s.journal with entries := (s.journal.entries ++ [e]).filter fun x => !discards e x } }
  match e.body, posOfTag s e.tag with
  | .castClosed m _, some p => updCast p m (fun c => { c with closed := true }) s
  | _, _ => s

/-- The oldest appended entry is committed; writes that waited for it end (R68, R92). -/
def journalCommit (s : State) : State :=
  match s.journal.pend with
  | [] => s
  | e :: t => endWrites (commitEntry e { s with journal := { s.journal with pend := t } })

/-- Every appended entry is committed (R96). -/
def journalDrain (s : State) : State :=
  let l := s.journal.pend
  l.foldl (fun s e => commitEntry e s) { s with journal := { s.journal with pend := [] } }

/-- The riser visit of a cast (R87): after its last home rank has been poured, its failed ranks in ascending order. -/
def riserVisit (p : PosIx) (m : Nat) (s : State) : State :=
  match castOf s p m with
  | none => s
  | some c =>
    if !c.filled || c.failed.isSome || c.ranks.length < 128 ||
       c.ranks.any (fun r => r.phase != .cast && r.phase != .failed && r.phase != .awaiting) then s
    else
      let l := (List.range 128).filterMap fun i => c.ranks.find? fun r => r.n == 128 * m + i && r.phase == .failed
      let s := updCast p m (fun c => { c with visit := true }) s
      endWrites (l.foldl (fun s x => if castFailedAt s p m then s else repour p x.n s) s)

/-- RANK_IDLE has passed since the first byte of a rank was staged (R67). DEDUCED: log 7. -/
def rankIdle (p : PosIx) (n : Nat) (s : State) : State :=
  match rankOf s p n with
  | some r => if r.begun then readyRank p n (updRanks p n (fun r => { r with idle := true }) s) else s
  | none => s

/-- The user bytes of data frame k of a rank, from its tile; padding and what was never staged are zero (R40, R61). A
tile bad in both copies gives none. -/
def frameBytes (e : Requester) (r : Rank) (k : Nat) (s : State) : Option (List Byte) × State :=
  match Assoc.get k r.tiles with
  | none => (some (List.replicate 65536 0), s)
  | some t =>
    match tileCheck e t s with
    | (.ok l, s) => (some ((List.range 16).map fun c =>
        if bitAt r.pads (16 * k + c) then List.replicate 4096 0 else slice l (4096 * c) 4096).flatten, s)
    | (.error _, s) => (none, s)

/-- The engine of a stripe operation that records role k of a slot. -/
def roleEngine (s : State) (p : PosIx) (slot k : Nat) : Option EngIx :=
  (s.stripes.find? fun x => x.p == p && x.pour).bind fun x => x.engines[surfaceOf k slot]?

/-- The six frames' bytes; frames whose tile failed in both copies become padding, listed with cause 3 (R69). -/
def gatherFrames (p : PosIx) (r : Rank) : Nat → State → List (List Byte) × Nat × State
  | 0, s => ([], 0, s)
  | i + 1, s =>
    let k := 5 - i
    let eng := roleEngine s p r.slot k
    let (b, s) := frameBytes (.beam (eng.getD 0)) r k s
    let s := match b with
      | some _ => s
      | none =>
        let s := match eng with | some e => s.set1 (R.castStatSeal e) | none => s
        uncastAdd p (r.n * rankBytes + 65536 * k) 65536 3 0x0A02 s
    let (t, bad, s) := gatherFrames p r i s
    (b.getD (List.replicate 65536 0) :: t, if b.isNone then setBit bad k else bad, s)

/-- The user bytes of the 128 codewords of a rank as recorded, in the order of R56: ciphertext and its parity (R41, R46). -/
def rankCipher (key : List Byte) (n : Nat) (frames : List (List Byte)) : List (List Byte) :=
  let cw := fun k c => xtsEnc key (n * rankBytes + 65536 * k + 4096 * c) (slice (nth [] frames k) (4096 * c) 4096)
  let data := (List.range 6).map fun k => (List.range 16).map (cw k)
  let par := (List.range 16).map fun c => parityBytes (data.map fun x => nth [] x c)
  (data ++ [par.map (·.1), par.map (·.2)]).flatten

/-- Whether every rank before n in the pack's pour order has been assembled (R63, R67). -/
def assembledBefore (s : State) (p : PosIx) (n : Nat) : Bool :=
  let before := s.packs[p].casts.takeWhile fun c => c.m != n / 128
  before.all (fun c => c.failed.isSome || (c.ranks.length == 128 && c.ranks.all fun r => r.phase != .filling && r.phase != .ready)) &&
  (((castOf s p (n / 128)).map fun c => c.ranks.all fun r => r.n ≥ n || (r.phase != .filling && r.phase != .ready)).getD false)

/-- The engines with a frame of rank n for which `on` holds abandon it as by ABORT. DEDUCED: log 71. -/
def abortFrames (p : PosIx) (n : Nat) (on : List Byte → Bool) (s : State) : State :=
  s.forEach allEng fun e s =>
    let d := s.eng[e].desc
    if (s.eng[e].home.map (·.1)) == some p && s.bit (R.castStatBusy e) && dIsRank d && dRank d == n && on d then castAbort e s
    else s

/-- The pair of a frame's XTS lane, or of the parity generator, disagrees (R472): the frames are abandoned and the rank is
re-poured. DEDUCED: log 71. -/
def assemblyMismatch (p : PosIx) (n slot : Nat) (mism : List (Fin 8)) (s : State) : State :=
  if mism.isEmpty then s else
  let s := if mism.any (·.val < 6) then s.log 0x0F04 srcAssembler p 0 n else s
  let s := if mism.any (·.val ≥ 6) then s.log 0x0F05 srcAssembler p 0 n else s
  rankFail p n 1 slot (abortFrames p n (fun d => mism.any (·.val == dRole d)) s)

/-- A ready rank is assembled (R69). Without a pack key the XTS lanes return no data, and its frames are abandoned
(R452). DEDUCED: log 71. -/
def assemble (p : PosIx) (n : Nat) (mism : List (Fin 8)) (s : State) : State :=
  match rankOf s p n with
  | none => s
  | some r =>
    if r.phase != .ready || !assembledBefore s p n || s.pins.pwrFail || !fwUp s then s else
    let (frames, bad, s) := gatherFrames p r 6 s
    match Assoc.get p s.mtl.keys with
    | none => abortFrames p n (fun d => bitAt (dFlags d) 0) (s.log 0x0C0B srcAssembler p 0 n)
    | some key =>
      let lost := (List.range 6).foldl (fun a k => if bitAt bad k then orBits a (maskOf (16 * k) (16 * k + 16)) else a) 0
      let s := updRanks p n (fun r => { r with phase := .assembled, bad := bad, pads := orBits r.pads lost, cipher := rankCipher key n frames }) s
      assemblyMismatch p n r.slot mism s

/-- Whether the tiles of rank r may still be a neighbour source (R77): the stream on its layer is less than one revolution beyond
its slot. A slot is 18.96 mm of track (R26). DEDUCED: log 74. -/
def neighbourSource (s : State) (p : PosIx) (r : Rank) : Bool :=
  match s.packs[p].stream with
  | some (layer, last) => layer == rankLayer r.n && (last - r.slot) * 316000 < revSymbols (zoneOf layer r.slot)
  | none => false

/-- The four conditions of R62 for a data tile. -/
def releasable (s : State) (p : PosIx) (n k : Nat) : Option Nat :=
  match castOf s p (n / 128), rankOf s p n with
  | some c, some r =>
    if c.verified && c.closed && !neighbourSource s p r then
      (Assoc.get k r.tiles).bind fun t => if (sealGet s t).use = 0 then some t else none
    else none
  | _, _ => none

/-- A cast whose tiles are all released is forgotten; its ranks are read from the medium. -/
def dropCast (p : PosIx) (m : Nat) (s : State) : State :=
  s.updPack p fun k => { k with casts := k.casts.filter fun c => !(c.m == m && c.closed && c.verified && c.ranks.all fun r => r.tiles.isEmpty) }

/-- A data tile is released (R62). -/
def tileRelease (p : PosIx) (n k : Nat) (s : State) : State :=
  match releasable s p n k with
  | none => s
  | some t => dropCast p (n / 128) (updRanks p n (fun r => { r with tiles := Assoc.del k r.tiles }) (freeTile t s))

/-- The queued records go to the medium in one pour when a trigger of R93 calls for it and nothing bars it (R96, R97). -/
def ledgerPour (p : PosIx) (s : State) : State :=
  let k := s.packs[p]
  let n := segCount k.lq
  if k.lpour.isSome || !ledgerDue s p || s.pins.pwrFail || k.roMount || k.status == .none || k.seg + n > ledgerSegs then s
  else nearlyFull p (s.updPack p fun k =>
    { k with lq := [], flushDue := false, lpour := some { recs := k.lq, seg := k.seg, nseg := n, ok0 := 0, ok1 := 0, reached := k.seg } })

/-- What one verified record brings: a CAST record closes its cast. -/
def recVerified (p : PosIx) (r : LRec) (s : State) : State :=
  match r.body with
  | .cast m .. =>
    let s := (updCast p m (fun c => { c with verified := true }) s).updPack p fun k =>
      { k with recorded := if k.recorded.contains m then k.recorded else k.recorded ++ [m] }
    jappend p (.castClosed m r.seq) s
  | _ => s

/-- A ledger pour has passed verify in both copies (R53, R94): its records are on the pack, LEDGER_FLUSHED is appended
with the highest SEQ, then CAST_CLOSED for each cast it recorded. -/
def ledgerVerified (p : PosIx) (s : State) : State :=
  match s.packs[p].lpour with
  | none => s
  | some l =>
    if l.ok0 < l.nseg || l.ok1 < l.nseg then s else
    let s := s.updPack p fun k => { k with lpour := none, ledger := k.ledger ++ l.recs, seg := l.seg + l.nseg }
    let high := (s.packs[p].ledger.map (·.seq)).foldl max 0
    let s := jappend p (.ledgerFlushed (some high)) s
    nearlyFull p (l.recs.foldl (fun s r => recVerified p r s) s)

/-- RANK_IDLE_EXPIRY. -/
def execRankIdleExpiry (p : PosIx) (n : Nat) (s : State) : Out := atPos p (rankIdle p n) s
/-- CAST_START. -/
def execCastStart (e : EngIx) (s : State) : Out := atEng e (engWrite e (castStart e)) s
/-- CAST_ABORT. -/
def execCastAbort (e : EngIx) (s : State) : Out := atEng e (engWrite e (castAbort e)) s
/-- POUR_SLOT_START. -/
def execPourSlotStart (e : EngIx) (start : SlotStart) (s : State) : Out := atEng e (pourSlotStart e start) s
/-- WICK_PACKET. -/
def execWickPacket (p : PosIx) (w : WickPacket) (s : State) : Out := atPos p (wickPacket p w) s
/-- JOURNAL_COMMIT. -/
def execJournalCommit (s : State) : Out := done (journalCommit s)
/-- RISER_VISIT. -/
def execRiserVisit (p : PosIx) (m : Nat) (s : State) : Out := atPos p (riserVisit p m) s
/-- POUR_STREAM_IDLE (R77): the stream on the layer stops. -/
def execPourStreamIdle (p : PosIx) (s : State) : Out := atPos p (fun s => s.updPack p fun k => { k with stream := none }) s
/-- LEDGER_AGE_EXPIRY (R93): the oldest waiting record calls for a flush. -/
def execLedgerAgeExpiry (p : PosIx) (s : State) : Out :=
  atPos p (fun s => s.updPack p fun k => { k with flushDue := k.flushDue || !k.lq.isEmpty }) s
/-- LEDGER_POUR. -/
def execLedgerPour (p : PosIx) (s : State) : Out := atPos p (ledgerPour p) s
/-- LEDGER_POUR_VERIFIED. -/
def execLedgerPourVerified (p : PosIx) (s : State) : Out := atPos p (ledgerVerified p) s
/-- TILE_RELEASE. -/
def execTileRelease (p : PosIx) (n : Nat) (k : Fin 6) (s : State) : Out := atPos p (tileRelease p n k) s

end Sys2Proof.Machine
end

