-- ==== Sys2Proof/Machine/Carriage.lean ====
section
/-! DEFINITION. The carriage drive of a position (chapter 7): encoder, position loop, commands, profile generator,
segment table, gearing, faults and stops. -/

namespace Sys2Proof.Machine

/-- CAR_STAT.STATE codes (Table 7.1). -/
def carOff : Nat := 0
def carHold : Nat := 1
def carHoming : Nat := 2
def carSeek : Nat := 3
def carDirect : Nat := 4
def carGeared : Nat := 5
def carStopping : Nat := 6
def carParked : Nat := 7
def carFault : Nat := 8

def carState (s : State) (p : PosIx) : Nat := s.rd (R.carStatState p)

/-- 2^40: CAR_REF counts in 2^-40 count. -/
def q40 : Int := 1099511627776

/-- The reference, in 2^-40 count, and the state with it at a value. -/
def carRef (s : State) (p : PosIx) : Int := s.rdI (R.carRefInt p) * q40 + s.rd (R.carRefFrac p)
def setCarRef (p : PosIx) (v : Int) (s : State) : State :=
  (s.wrI (R.carRefInt p) (v / q40)).wr (R.carRefFrac p) (v % q40).toNat

def carEnter (p : PosIx) (st : Nat) (s : State) : State := s.wr (R.carStatState p) st

/-- A reason loaded into CAR_REASON, and one that is also logged. -/
def carLoad (p : PosIx) (code : Nat) (s : State) : State := s.wr (R.carReasonCode p) code
def carReason (p : PosIx) (code : Nat) (s : State) : State := (carLoad p code s).log code (srcCar p) p 0 0

/-- A refused command (R198). -/
def carRefuse (p : PosIx) (code : Nat) (s : State) : State := carLoad p code (s.set1 (R.carStatCmderr p))

def carVlimIn (s : State) (p : PosIx) : Int := s.rdI (R.carVlimInPos p)
def carVlimOut (s : State) (p : PosIx) : Int := s.rdI (R.carVlimOutPos p)

/-- VMAX above 0x36B0 acts as 0x36B0, IMAX above 0x0BB8 as 0x0BB8 (Tables 7.5 and 7.6). -/
def carVmax (s : State) (p : PosIx) : Nat := min (s.rd (R.carVmaxVmax p)) 0x36B0
def carImax (s : State) (p : PosIx) : Nat := min (s.rd (R.carIlimImax p)) 0x0BB8

/-- The start of a motion clears SETTLED (R202). -/
def carBegin (p : PosIx) (s : State) : State :=
  (s.clr1 (R.carStatSettled p)).updCar p fun c => { c with settle := 0, started := 0, stopping := false, planFor := none }

/-- STOPPING along the ramp, then HOLD (R209). -/
def carStop (p : PosIx) (s : State) : State :=
  carEnter p carStopping ((carBegin p s).updCar p fun c => { c with stopping := true, rest := .hold, onTable := false })

/-- FAULT for a reason, decelerating to rest and held there (R209); an OFF that waits no longer does, since only CLEAR leaves
FAULT. -/
def carFaultRamp (p : PosIx) (code : Nat) (s : State) : State :=
  carReason p code (carEnter p carFault ((carBegin p s).updCar p fun c =>
    { c with stopping := true, rest := .fault, onTable := false, offNext := false, cause := code }))

def carDone (s : State) (p : PosIx) : Bool :=
  carState s p == carHold || (carState s p == carDirect && s.bit (R.carStatSettled p))

/-- The rotor's part of the commutation angle (R196): STEP_CNT counts make 256 microsteps. -/
def rotorAngle (s : State) (p : PosIx) : Nat :=
  ((s.rdI (R.carPosPos p) - (s.rd (R.carAlignOfs p) : Int)) * 256 / (s.rd (R.carCfgStepCnt p) : Int) % 1024).toNat

/-- ENABLE (Table 7.2). -/
def carEnable (p : PosIx) (s : State) : State :=
  if s.bit (R.posCfgEn p) && carState s p == carOff then
    carEnter p carHold (setCarRef p (s.rdI (R.carPosPos p) * q40)
      (s.updCar p fun c =>
        { c with bridgeOn := true, offNext := false, vel := 0, acc := 0, plan := [], planFor := none, integ := 0, prevErr := 0,
                 ferr := 0, ovc := 0, openLoop := false, bridgeCut := false, stopping := false, mRotor := rotorAngle s p,
                 intA := 0, intB := 0 }))
  else carRefuse p 0x0708 s

/-- HOME (Table 7.2, R194): inward at CAR_HOME.V. -/
def carHome (p : PosIx) (s : State) : State :=
  if s.bit (R.posCfgEn p) && carState s p == carHold then
    carEnter p carHoming ((carBegin p s).updCar p fun c => { c with outward := false })
  else carRefuse p 0x0708 s

/-- A seek to a target begins (R201, R203). -/
def seekTo (p : PosIx) (target : Int) (park : Bool) (s : State) : State :=
  carEnter p carSeek ((carBegin p s).updCar p fun c =>
    { c with target := target, seekFrom := carRef s p, parking := park, onTable := s.bit (R.carCfgRamp p),
             fixAmax := none, fixJmax := none, planFor := none })

/-- SEEK (Table 7.2, R201): the target is fixed at acceptance. DEDUCED: log 87. -/
def carSeekCmd (p : PosIx) (s : State) : State :=
  let st := carState s p
  let t := s.rdI (R.carSeekTgt p)
  if !s.bit (R.posCfgEn p) then carRefuse p 0x0708 s
  else if st = carSeek then carRefuse p 0x0701 s
  else if !(carDone s p || st == carParked) then carRefuse p 0x0708 s
  else if !s.bit (R.carStatPvalid p) then carRefuse p 0x0704 s
  else if t < carVlimIn s p ∨ carVlimOut s p < t then carRefuse p 0x0703 s
  else seekTo p t false s

/-- DIRECT (Table 7.2): CAR_TGT takes the present reference. -/
def carDirectCmd (p : PosIx) (s : State) : State :=
  let st := carState s p
  if !(s.bit (R.posCfgEn p) && (st == carHold || st == carParked)) then carRefuse p 0x0708 s
  else if !s.bit (R.carStatPvalid p) then carRefuse p 0x0704 s
  else
    let t := s.rdI (R.carRefInt p)
    carEnter p carDirect (((carBegin p s).wrI (R.carTgtTgt p) t).updCar p fun c => { c with target := t })

/-- The gear entries in use; N above 4 acts as 4 (Table 7.7). -/
def gearN (s : State) (p : PosIx) : Nat := min 4 (s.rd (R.carGtctlN p))

/-- A ratio of magnitude at most 2^-8 count per angle count, in Q8.40 (R207). -/
def ratioOk (r : Int) : Bool := decide (r.natAbs ≤ 4294967296)

/-- The gear entries pass R207. DEDUCED: log 87. -/
def gearEntriesOk (s : State) (p : PosIx) : Bool :=
  ratioOk (s.rdI (R.carGear0Ratio p)) &&
  (List.range (gearN s p)).all fun i =>
    ratioOk (s.rdI (R.carGtratRatio p i)) &&
    decide (carVlimIn s p ≤ s.rdI (R.carGtposPos p i) ∧ s.rdI (R.carGtposPos p i) ≤ carVlimOut s p)

/-- SPN_ANGLE as one count. -/
def spnAngle (s : State) (p : PosIx) : Nat := s.rd (R.spnAngleRev p) * 1048576 + s.rd (R.spnAngleFrac p)

/-- GEAR (Table 7.2, R205): the gear engages at the next period boundary. DEDUCED: log 87. -/
def carGearCmd (p : PosIx) (s : State) : State :=
  if !(s.bit (R.posCfgEn p) && carDone s p) then carRefuse p 0x0708 s
  else if !s.bit (R.carStatPvalid p) then carRefuse p 0x0704 s
  else if !s.bit (R.spnStatAvalid p) then carRefuse p 0x070A s
  else if !gearEntriesOk s p then carRefuse p 0x0709 s
  else
    let s' := (carBegin p s).updCar p fun c => { c with engage := true }
    carEnter p carGeared ((s'.wr (R.carGratioRatio p) (s.rd (R.carGear0Ratio p))).wr (R.carGtctlNext p) 0)

/-- STOP (Table 7.2). -/
def carStopCmd (p : PosIx) (s : State) : State :=
  let st := carState s p
  if s.bit (R.posCfgEn p) && (st == carHoming || st == carSeek || st == carDirect || st == carGeared) then carStop p s
  else carRefuse p 0x0708 s

/-- PARK (Table 7.2, R211). -/
def carParkCmd (p : PosIx) (s : State) : State :=
  if !(s.bit (R.posCfgEn p) && carDone s p) then carRefuse p 0x0708 s
  else if !s.bit (R.carStatPvalid p) then carRefuse p 0x0704 s
  else seekTo p (s.rdI (R.carParkPos p)) true s

/-- OFF (Table 7.2): the bridge goes off at the next PWM period. -/
def carOffCmd (p : PosIx) (s : State) : State :=
  if s.bit (R.posCfgEn p) && carState s p != carFault then s.updCar p fun c => { c with offNext := true }
  else carRefuse p 0x0708 s

/-- OFF with the bridge off. -/
def carToOff (p : PosIx) (s : State) : State :=
  carEnter p carOff ((s.clr1 (R.carStatBusy p)).updCar p fun c =>
    { c with bridgeOn := false, offNext := false, vel := 0, acc := 0, plan := [], planFor := none, cur := 0, dutyA := 0,
             dutyB := 0, stopping := false, openLoop := false, bridgeCut := false, parking := false, ovc := 0, ferr := 0 })

/-- The carriage is further from its reference than CAR_FERR.MAX (R194, Table 7.3). -/
def farOff (s : State) (p : PosIx) : Bool :=
  decide (s.rd (R.carFerrMax p) * q40.natAbs < (carRef s p - s.rdI (R.carPosPos p) * q40).natAbs)

/-- Whether the cause that FAULT was entered for is still there (Table 7.2): the following error, or the phase current of the last
PWM period. A missing index and an encoder error are events of the past. DEDUCED: log 87. -/
def carCauseStands (s : State) (p : PosIx) : Bool :=
  let c := s.pos[p].car
  (c.cause == 0x0706 && farOff s p) || (c.cause == 0x070C && c.ovc > 0)

/-- CLEAR (Table 7.2): OFF once the cause is gone, refused before. -/
def carClearCmd (p : PosIx) (s : State) : State :=
  if s.bit (R.posCfgEn p) && carState s p == carFault && !carCauseStands s p then
    let align := s.pos[p].car.cause == 0x0706 || s.pos[p].car.cause == 0x0707
    (carToOff p s).updCar p fun c => { c with alignDue := c.alignDue || align }
  else carRefuse p 0x0708 s

/-- A write to CAR_TGT (R200). -/
def carTargetWrite (p : PosIx) (v : Nat) (s : State) : State :=
  if carState s p ≠ carDirect then carLoad p 0x0702 s
  else
    let t := toSigned 32 v
    let t' := clampI (carVlimIn s p) (carVlimOut s p) t
    let s := if t' = t then s else s.set1 (R.carStatLimclip p)
    ((carBegin p s).wrI (R.carTgtTgt p) t').updCar p fun c => { c with target := t' }

/-- A quadrature edge (R193): one count per edge, in every state; A before B counts up, CAR_CFG.ENC_INV inverts. -/
def encoderEdge (p : PosIx) (chB level : Bool) (s : State) : State :=
  let P := s.pos[p]
  if (if chB then P.encB else P.encA) = level then s
  else
    let up := (if chB then P.encA == level else P.encB != level) != s.bit (R.carCfgEncInv p)
    let s := s.updPos p fun P => if chB then { P with encB := level } else { P with encA := level }
    s.wrI (R.carPosPos p) (s.rdI (R.carPosPos p) + (if up then 1 else -1))

/-- Both inputs change in one decoder sample (R193, Table 7.3): the open-loop stop starts from the velocity last measured. A
carriage in OFF has nothing to stop and, since only ENABLE leaves OFF (Table 7.1), stays there (DESIGN CHOICE: log 87). -/
def encoderError (p : PosIx) (s : State) : State :=
  let s := (s.set1 (R.carStatEncerr p)).clr1 (R.carStatPvalid p)
  let s := s.updPos p fun P => { P with encA := !P.encA, encB := !P.encB }
  if carState s p = carOff then carReason p 0x0707 s
  else
    carReason p 0x0707 (carEnter p carFault ((carBegin p s).updCar p fun c =>
      { c with stopping := true, rest := .fault, openLoop := true, onTable := false, offNext := false, cause := 0x0707,
               vel := c.velMeas * q40, acc := 0, planFor := none }))

/-- The index edge while homing (R194): CAR_POS takes CAR_IDX.POS, the reference moves with it. DEDUCED: log 87. -/
def indexEdge (p : PosIx) (s : State) : State :=
  if carState s p ≠ carHoming then s
  else
    let d := s.rdI (R.carIdxPos p) - s.rdI (R.carPosPos p)
    let s := setCarRef p (carRef s p + d * q40) (s.wrI (R.carPosPos p) (s.rdI (R.carIdxPos p)))
    carStop p (s.set1 (R.carStatPvalid p))

/-- CAR_HOME.TMO without the index (R194). -/
def homingTimeout (p : PosIx) (s : State) : State :=
  if carState s p ≠ carHoming then s else wakeFailed p 0x0705 (carFaultRamp p 0x0705 s)

/-- Eight periods beyond CAR_FERR.MAX (Table 7.3): the reference takes CAR_POS and stops from the measured velocity. -/
def followingError (p : PosIx) (s : State) : State :=
  if 8 ≤ s.pos[p].car.ferr ∧ carState s p ≠ carHoming ∧ carState s p ≠ carFault then
    let x := s.rdI (R.carPosPos p)
    carFaultRamp p 0x0706 ((setCarRef p (x * q40) (s.set1 (R.carStatFerr p))).updCar p fun c =>
      { c with vel := c.velMeas * q40, acc := 0, planFor := none, ferr := 0 })
  else s

/-- Four PWM periods of overcurrent (Table 7.3): the bridge goes off at once. -/
def phaseOvercurrent (p : PosIx) (s : State) : State :=
  if 4 ≤ s.pos[p].car.ovc then
    carReason p 0x070C (carEnter p carFault ((s.set1 (R.carStatOvc p)).updCar p fun c =>
      { c with bridgeOn := false, bridgeCut := true, stopping := false, dutyA := 0, dutyB := 0, cur := 0, offNext := false,
               cause := 0x070C }))
  else s

/-- The motion limits in force, per loop period of 51.2 µs = 32/625 ms, in 2^-40 counts: VMAX, AMAX and JMAX rounded down, so
that no plan exceeds them (R199, R201: a decelerating seek that could not stop keeps the old AMAX and JMAX). -/
def perStep (v k : Nat) : Nat := v * 2 ^ 40 * 32 ^ k / 625 ^ k
def vmaxStep (s : State) (p : PosIx) : Nat := perStep (carVmax s p) 1
def amaxStep (s : State) (p : PosIx) : Nat := perStep (s.pos[p].car.fixAmax.getD (s.rd (R.carAccAmax p))) 2
def jmaxStep (s : State) (p : PosIx) : Nat := perStep (s.pos[p].car.fixJmax.getD (s.rd (R.carAccJmax p))) 3

/-- n / d rounded up. -/
def ceilDiv (n d : Nat) : Nat := (n + d - 1) / d

/-- The jerk periods and all periods of the shortest ramp that changes the velocity by dv under acceleration a and jerk j, from
zero acceleration to zero acceleration (R212). -/
def rampPeriods (dv a j : Nat) : Nat × Nat :=
  if dv = 0 then (0, 0) else
  let r := isqrt (dv / j)
  let nj := max 1 (min (ceilDiv a j) (if r * r * j < dv then r + 1 else r))
  (nj, nj + max nj (max (ceilDiv dv a) (ceilDiv dv (nj * j))))

/-- Twice the distance of speeding up from v to u, and of stopping from u. -/
def speedDist (v u a j : Nat) : Nat :=
  (v + u) * (rampPeriods (v - u + (u - v)) a j).2 + u * (rampPeriods u a j).2

/-- The highest cruising speed from v to hi for which the ramps from v to it and on to rest fit into distance d. -/
def cruiseSpeed (v hi a j d : Nat) : Nat :=
  (List.range 64).foldr (fun b u =>
    let x := u + 2 ^ b
    if x ≤ hi && speedDist v x a j ≤ 2 * d then x else u) (if v ≤ hi then v else hi)

/-- The cruise of a plan from speed v over distance d, with e periods more than the shortest first ramp: the two ramps, the
cruising periods and the speed, where it keeps the limits. -/
def cruiseWith (v hi a j d e : Nat) : Option ((Nat × Nat) × Nat × (Nat × Nat) × Nat) :=
  let u := cruiseSpeed v hi a j d
  let (j1, n1) := rampPeriods (v - u + (u - v)) a j
  let (j2, n2) := rampPeriods u a j
  let n1 := n1 + e
  let used := (v + u) * n1 + u * n2
  let n := if u = 0 then 0 else ceilDiv (2 * d - used) (2 * u)
  let k := n1 + 2 * n + n2
  let w := if k = 0 then 0 else (2 * d - v * n1) / k
  if k = 0 || (n1 = 0 && w != v) || n2 = 0 || hi < w || 2 * d < v * n1 then none
  else if (rampPeriods (v - w + (w - v)) a j).2 ≤ n1 && (rampPeriods w a j).2 ≤ n2 then some ((j1, n1), n, (j2, n2), w)
  else none

/-- The stretches from x0, at velocity v outward (or inward where `out` is false) and zero acceleration, to rest at distance d
ahead; empty where no cruise keeps the limits. -/
def planAhead (out : Bool) (x0 : Int) (v hi a j d : Nat) : List PlanSeg :=
  let sg : Int := if out then 1 else -1
  let x3 := x0 + sg * d
  match (List.range 40).findSome? (cruiseWith v hi a j d) with
  | none => []
  | some ((j1, n1), n, (j2, n2), w) =>
    let x1 := x0 + sg * (((v + w) * n1 / 2 : Nat) : Int)
    let x2 := x3 - sg * ((w * n2 / 2 : Nat) : Int)
    [.ramp n1 j1 x0 x1 (sg * v) (sg * w), .ramp n 0 x1 x2 (sg * w) (sg * w), .ramp n2 j2 x2 x3 (sg * w) 0].filter fun
      | .ramp k _ _ _ _ _ => k != 0
      | .release .. => true

/-- The stretches that bring position x, velocity v and acceleration acc to rest: the acceleration goes to zero, then the velocity;
with where that rests. -/
def planStop (x v acc : Int) (a j : Nat) : List PlanSeg × Int :=
  let n := ceilDiv acc.natAbs j
  let x1 := if n = 0 then x else openRound 0x70 (3 * x + 3 * v * n + acc * n * n) 3
  let v1 := if n = 0 then v else openRound 0x71 (2 * v + acc * n) 2
  let (nj, m) := rampPeriods v1.natAbs a j
  let x2 := x1 + openRound 0x72 (v1 * m) 2
  ((if n = 0 then [] else [.release n x v acc]) ++ (if m = 0 then [] else [.ramp m nj x1 x2 v1 0]), x2)

/-- The path from rest at x to rest at t. A distance of a few 2^-40 counts is one period at rest. -/
def planFromRest (x t : Int) (hi a j : Nat) : List PlanSeg :=
  if x = t then []
  else match planAhead (decide (x ≤ t)) x 0 hi a j (t - x).natAbs with
    | [] => [.ramp 1 0 x t 0 0]
    | l => l

/-- The path from x, v and acc to rest at t, under limits hi, a and j that are not zero (R199): the acceleration goes to zero,
then ramps and a cruise lead to t. Where the velocity leads away from t, or the path cannot stop short of it or cannot keep the
limits on the way, it comes to rest first and goes on from there. DESIGN CHOICE: log 88. -/
def planPath (x v acc t : Int) (hi a j : Nat) : List PlanSeg :=
  let (stop, rest) := planStop x v acc a j
  let n := ceilDiv acc.natAbs j
  let x1 := if n = 0 then x else openRound 0x70 (3 * x + 3 * v * n + acc * n * n) 3
  let v1 := if n = 0 then v else openRound 0x71 (2 * v + acc * n) 2
  let ahead := if (0 < v1 ∧ rest ≤ t) ∨ (v1 < 0 ∧ t ≤ rest) then planAhead (decide (0 < v1)) x1 v1.natAbs hi a j (t - x1).natAbs else []
  match ahead with
  | [] => stop ++ planFromRest rest t hi a j
  | l => (if n = 0 then [] else [.release n x v acc]) ++ l

/-- Position, velocity and acceleration k periods into a stretch. -/
def segAt (g : PlanSeg) (k : Nat) : Int × Int × Int :=
  match g with
  | .release n x v a =>
    (openRound 0x73 (6 * n * x + 6 * n * v * k + 3 * n * a * k * k - a * k * k * k) (6 * n),
     openRound 0x74 (2 * n * v + 2 * n * a * k - a * k * k) (2 * n), openRound 0x75 (a * (n - k)) n)
  | .ramp n nj x0 x1 v0 v1 =>
    let d := v1 - v0
    let r := n - k
    if n ≤ k then (x1, v1, 0)
    else if nj = 0 then (x0 + openRound 0x73 ((x1 - x0) * k) n, v0, 0)
    else
      let q : Int := nj * (n - nj)
      if k ≤ nj then
        (openRound 0x73 (6 * q * x0 + 6 * q * v0 * k + d * k * k * k) (6 * q),
         openRound 0x74 (2 * q * v0 + d * k * k) (2 * q), openRound 0x75 (d * k) q)
      else if r ≤ nj then
        (openRound 0x73 (6 * q * x1 - 6 * q * v1 * r + d * r * r * r) (6 * q),
         openRound 0x74 (2 * q * v1 - d * r * r) (2 * q), openRound 0x75 (d * r) q)
      else
        let w : Int := n - nj
        let m : Int := k - nj
        (openRound 0x73 (6 * w * (x0 + v0 * k) + d * (nj * nj + 3 * nj * m + 3 * m * m)) (6 * w),
         openRound 0x74 (2 * w * v0 + d * (nj + 2 * m)) (2 * w), openRound 0x75 d w)

/-- How long a stretch lasts. -/
def PlanSeg.periods : PlanSeg → Nat
  | .release n .. => n
  | .ramp n .. => n

/-- One period of the plan (R199); without one the reference keeps its velocity. -/
def followPlan (p : PosIx) (s : State) : State :=
  let c := s.pos[p].car
  match c.plan with
  | [] => setCarRef p (carRef s p + c.vel) s
  | g :: rest =>
    let k := c.planAt + 1
    let (x, v, a) := segAt g k
    setCarRef p x (s.updCar p fun c =>
      if g.periods ≤ k then { c with plan := rest, planAt := 0, vel := v, acc := a }
      else { c with planAt := k, vel := v, acc := a })

/-- A new plan from the present position, velocity and acceleration where the target (none: a stop) or a limit is not the one that
the plan was made for (R199, R200, R201). -/
def planAnew (p : PosIx) (t : Option Int) (s : State) : State :=
  let c := s.pos[p].car
  let want : PlanFor := { target := t, vmax := vmaxStep s p, amax := amaxStep s p, jmax := jmaxStep s p }
  if c.planFor == some want then s else
  let r := carRef s p
  let plan :=
    if want.amax = 0 || want.jmax = 0 then []
    else match t with
      | none => (planStop r c.vel c.acc want.amax want.jmax).1
      | some t => if want.vmax = 0 then (planStop r c.vel c.acc want.amax want.jmax).1
                  else planPath r c.vel c.acc t want.vmax want.amax want.jmax
  s.updCar p fun c => { c with plan := plan, planAt := 0, planFor := some want }

/-- A seek that decelerates and could no longer stop at its target under lowered limits completes under the ones that it has
(R201). -/
def keepLimits (p : PosIx) (s : State) : State :=
  let c := s.pos[p].car
  match c.planFor with
  | none => s
  | some w =>
    let a := perStep (s.rd (R.carAccAmax p)) 2
    let j := perStep (s.rd (R.carAccJmax p)) 3
    let lowered := a < w.amax || j < w.jmax
    let past := fun (x : Int) => if 0 < c.vel then c.target * q40 < x else x < c.target * q40
    if carState s p == carSeek && lowered && c.vel * c.acc < 0 && c.fixAmax.isNone &&
        (a = 0 || j = 0 || past (planStop (carRef s p) c.vel c.acc a j).2) then
      s.updCar p fun c =>
        { c with fixAmax := some (ceilDiv (w.amax * 625 ^ 2) (2 ^ 40 * 32 ^ 2)), fixJmax := some (ceilDiv (w.jmax * 625 ^ 3) (2 ^ 40 * 32 ^ 3)) }
    else s

/-- One period of the profile generator (R199, R201). -/
def generator (p : PosIx) (s : State) : State :=
  let s := keepLimits p s
  followPlan p (planAnew p (some (s.pos[p].car.target * q40)) s)

/-- The displacement of the segment table at scaled time tau (2^-10 µs), in 2^-40 count of the reference seek (R203):
cubic Hermite on the end positions and velocities. -/
def tableAt (s : State) (p : PosIx) (tau : Nat) : Option Int :=
  let n := s.rd (R.carTblnN p)
  let i := ((List.range n).filter fun i => s.rd (R.carTblT p i) * 1024 ≤ tau).length - 1
  if n ≤ i + 1 then none
  else
    let t0 := s.rd (R.carTblT p i)
    let h : Int := (s.rd (R.carTblT p (i + 1)) : Int) - t0
    let x0 := s.rdI (R.carTblX p i)
    let x1 := s.rdI (R.carTblX p (i + 1))
    let v0 := s.rdI (R.carTblV p i)
    let v1 := s.rdI (R.carTblV p (i + 1))
    let u : Int := (tau : Int) - t0 * 1024
    let w := h * 1024
    let num := (2 * u * u * u - 3 * u * u * w + w * w * w) * x0 * 256000
      + (u * u * u - 2 * u * u * w + u * w * w) * h * v0
      + (3 * u * u * w - 2 * u * u * u) * x1 * 256000
      + (u * u * u - u * u * w) * h * v1
    some (openRound 0x78 (num * q40) (w * w * w * 256000))

/-- One period of a seek by the segment table (R203). DESIGN CHOICE: log 88. -/
def tableStep (p : PosIx) (s : State) : State :=
  let c := s.pos[p].car
  let r := carRef s p
  let full := c.target * q40 - c.seekFrom
  let dref := s.rd (R.carTblrefDref p)
  let d := full.natAbs / q40.natAbs
  let k := c.started + 1
  let tau := if d = 0 then 0 else openSqrt 0x79 (k * 262144 * (k * 262144) * dref / (25 * d))
  match (if d = 0 then none else tableAt s p tau) with
  | none => setCarRef p (c.target * q40) (s.updCar p fun c => { c with vel := 0, acc := 0, started := k })
  | some x =>
    let x' := c.seekFrom + openRound 0x7A (x * full) ((dref : Int) * q40)
    let v := x' - r
    let s := s.updCar p fun c => { c with started := k }
    if vmaxStep s p < v.natAbs then generator p (s.updCar p fun c => { c with onTable := false, planFor := none })
    else setCarRef p x' (s.updCar p fun c => { c with vel := v, acc := v - c.vel })

/-- One period of deceleration along the ramp to rest, under AMAX and JMAX (R209); a drive whose limits are zero keeps its
velocity. -/
def decelerate (p : PosIx) (s : State) : State :=
  let s := followPlan p (planAnew p none s)
  let c := s.pos[p].car
  if c.plan.isEmpty && c.vel == 0 then
    let s := s.updCar p fun c => { c with stopping := false }
    if c.rest = .hold then carEnter p carHold s else s
  else s

/-- The boundary at which the gear engages latches SPN_ANGLE and the reference (R205). -/
def gearEngage (p : PosIx) (s : State) : State :=
  s.updCar p fun c => { c with engage := false, p0 := carRef s p, gearSum := 0, lastAngle := spnAngle s p, vel := 0, acc := 0 }

/-- One period of the gear (R205, R206, R208). -/
def gearStep (p : PosIx) (s : State) : State :=
  let c := s.pos[p].car
  if c.engage && s.bit (R.spnStatAvalid p) then gearEngage p s else
  let a := spnAngle s p
  let ratio := s.rdI (R.carGratioRatio p)
  let sum := c.gearSum + ratio * ((a : Int) - c.lastAngle)
  let r := c.p0 + sum
  let v := r - carRef s p
  let s := setCarRef p r (s.updCar p fun c => { c with gearSum := sum, lastAngle := a, vel := v, acc := v - c.vel })
  if !s.bit (R.spnStatAvalid p) then carStop p (carReason p 0x070A (s.set1 (R.carStatMlost p)))
  else if r ≤ carVlimIn s p * q40 ∨ carVlimOut s p * q40 ≤ r then
    carStop p (carReason p 0x070B (s.set1 (R.carStatLimstop p)))
  else
    let i := s.rd (R.carGtctlNext p)
    let at_ := s.rdI (R.carGtposPos p i) * q40
    if i < gearN s p ∧ ((0 < ratio ∧ at_ ≤ r) ∨ (ratio < 0 ∧ r ≤ at_)) then
      ((s.wr (R.carGratioRatio p) (s.rd (R.carGtratRatio p i))).wr (R.carGtctlNext p) (i + 1)).set1
        (R.carStatGearfire p)
    else s

/-- The count of periods in the settle window (R202): a seek ends in HOLD, or PARKED after PARK; in DIRECT it sets
SETTLED. -/
def settleStep (p : PosIx) (s : State) : State :=
  let c := s.pos[p].car
  let off := (s.rdI (R.carPosPos p) - c.target).natAbs
  let k := if off ≤ s.rd (R.carSettleWin p) then c.settle + 1 else 0
  let s := s.updCar p fun c => { c with settle := k }
  if max 1 (s.rd (R.carSettleN p)) ≤ k then
    let s := s.set1 (R.carStatSettled p)
    if carState s p = carSeek then
      let s := setCarRef p (c.target * q40) (s.updCar p fun c => { c with vel := 0, acc := 0, onTable := false, plan := [] })
      carEnter p (if c.parking then carParked else carHold) (s.updCar p fun c => { c with parking := false })
    else s
  else s

/-- One period of the homing search (R194): at the end stop the search turns outward. -/
def homeStep (p : PosIx) (s : State) : State :=
  let c := s.pos[p].car
  let out := c.outward || farOff s p
  let v : Int := openRound 0x81 ((s.rd (R.carHomeV p) : Int) * q40 * 32) 625 * (if out then 1 else -1)
  setCarRef p (carRef s p + v) (s.updCar p fun c => { c with outward := out, vel := v, acc := 0 })

/-- The reference of one period, by state (Table 7.1). -/
def carReference (p : PosIx) (s : State) : State :=
  let st := carState s p
  let c := s.pos[p].car
  if c.stopping then decelerate p s
  else if st = carHoming then homeStep p s
  else if st = carSeek then settleStep p (if c.onTable then tableStep p s else generator p s)
  else if st = carDirect then settleStep p (generator p s)
  else if st = carGeared then gearStep p s
  else s

/-- The centring offset in counts (R197), in 2^-40 count. -/
def centreOffset (s : State) (p : PosIx) : Int :=
  let st := carState s p
  if st = carHold ∨ st = carParked ∨ st = carGeared then
    let lim : Int := (s.rd (R.carCtrLim p) : Int) * q40
    clampI (-lim) lim ((s.rd (R.carCtrKc p) : Int) * s.rdI (R.srvCentreCentre p) * (q40 / 65536))
  else 0

/-- The microstep index for a rotor angle and a current (R196): 90° electrical ahead, in the direction of the force. -/
def commAngle (rotor : Nat) (cur : Int) : Nat := (((rotor : Int) + 256 * signOf cur) % 1024).toNat

/-- The microsteps by which the rotor angle moved from a to b, the shorter way round. -/
def angleStep (a b : Nat) : Int := ((b : Int) - a + 512) % 1024 - 512

/-- One mA in the units of CarState.cur. -/
def carMilliamp : Int := 72057594037927936

/-- The acceleration in 2^-40 counts/ms². -/
def accPerMs (c : CarState) : Int := openRound 0x80 (c.acc * 390625) 1024

/-- The position loop (R196): current amplitude in 2^-56 mA, and the microstep index, which goes on over the next period by what
the rotor moved over the last one. -/
def positionLoop (p : PosIx) (s : State) : State :=
  let c := s.pos[p].car
  let st := carState s p
  if !c.bridgeOn || c.bridgeCut then s
  else if c.openLoop then
    let dm := openRound 0x82 (c.vel * 256) (q40 * (s.rd (R.carCfgStepCnt p) : Int))
    let i : Int := (if c.stopping then (carImax s p : Int) else s.rd (R.carIlimHold p)) * carMilliamp
    s.updCar p fun c => { c with mLoop := c.m, mStep := dm, mTicks := 0, cur := i }
  else
    let e := carRef s p + centreOffset s p - s.rdI (R.carPosPos p) * q40
    let raw := (s.rd (R.carPloop0Kp p) : Int) * e * 256 + (s.rd (R.carPloop0Ki p) : Int) * (c.integ + e)
      + (s.rd (R.carPloop1Kd p) : Int) * (e - c.prevErr) * 256 + (s.rd (R.carPloop1Ka p) : Int) * accPerMs c * 256
    let lim : Int := (if st = carParked then (s.rd (R.carIlimHold p) : Int) else carImax s p) * carMilliamp
    let i := clampI (-lim) lim raw
    let rotor := rotorAngle s p
    s.updCar p fun c =>
      { c with cur := i, m := commAngle rotor i, mLoop := commAngle rotor i, mRotor := rotor,
               mStep := angleStep c.mRotor rotor, mTicks := 0, integ := c.integ + e, prevErr := e
               ferr := if farOff s p && st != carHoming then c.ferr + 1 else 0 }

/-- One period of the carriage loop (R196): 64 servo ticks. -/
def carriageLoop (p : PosIx) (s : State) : State :=
  let r0 := carRef s p
  let x := s.rdI (R.carPosPos p)
  let s := s.updCar p fun c => { c with velMeas := x - c.posPrev, posPrev := x }
  if carState s p = carOff then s
  else
    let s := carReference p s
    positionLoop p (s.wr (R.carStatBusy p) (if carRef s p = r0 then 0 else 1))

/-- A phase current in 2^-56 mA from its ADC code: 0.5 V per ampere about mid-rail, 4,096 codes over 1.8 V (R195). -/
def phaseCurrent (code : Nat) : Int := ((code : Int) - 2048) * 225 * (carMilliamp / 256)

/-- One carriage PWM period (R195, R196): the demands of the two phases from I and m, their current loops, whose gains the spec does
not state, the linear advance of the microstep, the overcurrent count (Table 7.3), and OFF where it waits. DEDUCED: log 88. -/
def carPwmPeriod (p : PosIx) (ia ib : Nat) (s : State) : State :=
  if s.pos[p].car.offNext then carToOff p s
  else
    let a := phaseCurrent ia
    let b := phaseCurrent ib
    let beyond := fun x : Int => decide (5 * (carImax s p : Int) * carMilliamp < 4 * x.natAbs)
    let s := s.updCar p fun c => { c with ovc := if beyond a || beyond b then c.ovc + 1 else 0 }
    if !s.pos[p].car.bridgeOn then s
    else s.updCar p fun c =>
      let k := c.mTicks + 1
      let m := (((c.mLoop : Int) + openRound 0x83 (c.mStep * 125 * k) 256) % 1024).toNat
      let da := Config.cosTimes c.cur m 1024
      let db := Config.sinTimes c.cur m 1024
      { c with mTicks := k, m := m, demA := da, demB := db, intA := c.intA + (da - a), intB := c.intB + (db - b)
               dutyA := Config.phaseDuty (da - a) (c.intA + (da - a)), dutyB := Config.phaseDuty (db - b) (c.intB + (db - b)) }

/-- The duties of the two phases at the bridge's outputs, none while they are off or held off (R195, R438). -/
def bridgeDuties (s : State) (p : PosIx) : Option (Int × Int) :=
  let c := s.pos[p].car
  if c.bridgeOn && !outputsHeld s p then some (c.dutyA, c.dutyB) else none

/-- PWRFAIL_N falls (R210): STOPPING, the bridge driven until the supply fails. -/
def carPowerFail (p : PosIx) (s : State) : State :=
  let st := carState s p
  if st = carOff ∨ st = carFault then s else carStop p s

/-- CAR reset to OFF with the bridge off and PVALID clear (R210). -/
def carReset (p : PosIx) (s : State) : State :=
  { s with regs := RegFile.resetRange s.regs (posBase p + 0x60000) (posBase p + 0x80000) }.updCar p fun _ => .reset

def execCarEnable (p : PosIx) (s : State) : Out := atPos p (carEnable p) s
def execCarHome (p : PosIx) (s : State) : Out := atPos p (carHome p) s
def execCarSeek (p : PosIx) (s : State) : Out := atPos p (carSeekCmd p) s
def execCarDirect (p : PosIx) (s : State) : Out := atPos p (carDirectCmd p) s
def execCarGear (p : PosIx) (s : State) : Out := atPos p (carGearCmd p) s
def execCarStop (p : PosIx) (s : State) : Out := atPos p (carStopCmd p) s
def execCarPark (p : PosIx) (s : State) : Out := atPos p (carParkCmd p) s
def execCarOff (p : PosIx) (s : State) : Out := atPos p (carOffCmd p) s
def execCarClear (p : PosIx) (s : State) : Out := atPos p (carClearCmd p) s
def execCarTargetWrite (p : PosIx) (value : Nat) (s : State) : Out := atPos p (carTargetWrite p value) s
def execCarPwmPeriod (p : PosIx) (ia ib : Nat) (s : State) : Out := atPos p (carPwmPeriod p ia ib) s
def execFollowingErrorFault (p : PosIx) (s : State) : Out := atPos p (followingError p) s
def execPhaseOvercurrent (p : PosIx) (s : State) : Out := atPos p (phaseOvercurrent p) s
def execEncoderError (p : PosIx) (s : State) : Out := atPos p (encoderError p) s
def execEncoderEdge (p : PosIx) (chB level : Bool) (s : State) : Out := atPos p (encoderEdge p chB level) s
def execIndexEdge (p : PosIx) (s : State) : Out := atPos p (indexEdge p) s
def execHomingTimeout (p : PosIx) (s : State) : Out := atPos p (homingTimeout p) s

end Sys2Proof.Machine
end

