-- ==== Sys2Proof/Machine/Mantle.lean ====
section
/-! DEFINITION. Mantle (chapter 17): key slots, wrapping and escrow, debug unlock, the mailbox, the TRNG, attestation. -/

namespace Sys2Proof.Machine

/-- The device wrap key KDW (Table 17.1). -/
def kdw : List Byte := shake256 32 (Config.uds ++ ascii "ORB-KDW")

/-- The device fingerprint (R55). -/
def fingerprint (s : State) : Nat := s.rd R.mtlFprFpr

/-- The escrow identifier of a key (R451), and the enrolled key under an identifier. -/
def escrowId (key : List Byte) : Nat := leNat (shake256 8 key)
def escrowKey (s : State) (id : Nat) : Option (List Byte) := s.mtl.escrow.find? fun k => escrowId k == id

/-- Whether debug is unlocked, by a token or by the options (R462, R463). DEDUCED: log 20. -/
def debugOpen (s : State) : Bool := s.bit R.mtlStatDbgunlk || !s.bit R.lampOptDbglock

/-- n random bytes; what they are the TRNG alone knows. -/
def random (site n : Nat) (s : State) : List Byte × State :=
  let (v, s) := s.draw site
  (leBytes n v, s)

/-- Key slot p filled or cleared; MTL_KEYS.LOADED follows (R453). -/
def keySet (p : PosIx) (k : Option (List Byte)) (s : State) : State :=
  let s := s.updMtl fun m => { m with keys := match k with | some x => Assoc.put p x m.keys | none => Assoc.del p m.keys }
  match k with
  | some _ => s.setBitOf R.mtlKeysLoaded p
  | none => s.clrBitOf R.mtlKeysLoaded p

/-- A new pack key: drawn again while K1 equals K2 (R452). -/
def newKey : Nat → State → List Byte × State
  | 0, s => random 0xA0 32 s
  | n + 1, s =>
    let (k, s) := random 0xA0 32 s
    if (dataKeys k).1 == (dataKeys k).2 then newKey n s else (k, s)

/-- The body of a WRAPPED_KEY record, bytes 24 to 119 (Table 2.11): fingerprint, device copy, escrow identifier and
escrow copy. -/
def wrapBody (s : State) (key : List Byte) (id : Nat) : List Byte :=
  leBytes 8 (fingerprint s) ++ keyWrap kdw key ++ leBytes 8 id ++
    (match escrowKey s id with | some e => if id = 0 then leBytes 40 0 else keyWrap e key | none => leBytes 40 0)

/-- KEY_NEW (Table 17.3): the slot is loaded, the record body returned; or the reason. -/
def keyNew (p : PosIx) (id : Nat) (s : State) : Except Nat (List Byte) × State :=
  if id != 0 && (escrowKey s id).isNone then (.error 0x0C04, s)
  else if debugOpen s then (.error 0x0C06, s)
  else if s.mtl.trngBad then (.error 0x0C08, s)
  else
    let (k, s) := newKey 8 s
    (.ok (wrapBody s k id), keySet p (some k) s)

/-- KEY_UNWRAP (R456, R457): path 1 device, 2 escrow, with the new body of path 2 on a read-write mount. -/
def keyUnwrapOp (p : PosIx) (body : List Byte) (s : State) : Except Nat (Nat × List Byte) × State :=
  let id := leAt body 48 8
  if debugOpen s then (.error 0x0C06, s)
  else if leAt body 0 8 = fingerprint s then
    match keyUnwrap kdw (slice body 8 40) with
    | some k => (.ok (1, []), keySet p (some k) s)
    | none => (.error 0x0C03, s)
  else if id = 0 then (.error 0x0C02, s)
  else match escrowKey s id with
    | none => (.error 0x0C02, s)
    | some e =>
      match keyUnwrap e (slice body 56 40) with
      | some k => (.ok (2, if s.packs[p].roMount then [] else
          leBytes 8 (fingerprint s) ++ keyWrap kdw k ++ leBytes 8 id ++ slice body 56 40), keySet p (some k) s)
      | none => (.error 0x0C03, s)

/-- Maximal runs of consecutive numbers of a rising list, as (first, count). -/
def runsOf : List Nat → List (Nat × Nat)
  | [] => []
  | a :: t => match runsOf t with
    | (b, n) :: r => if b = a + 1 then (a, n + 1) :: r else (a, 1) :: (b, n) :: r
    | [] => [(a, 1)]

/-- Data codewords of a rank, by their number in the volume, that are assigned and not padding. -/
def dataCws (r : Rank) : List Nat :=
  ((List.range rankCw).filter fun u => u < r.assigned && !bitAt r.pads u).map fun u => r.n * rankCw + u

/-- Every range of the pack whose data is not cast enters log page 0x02 (R324, R458); a failed cast is listed already. -/
def listUncast (p : PosIx) (cause reason : Nat) (s : State) : State :=
  let l := (s.packs[p].casts.filter fun c => c.failed.isNone).flatMap fun c =>
    ((List.range 128).filterMap fun i => c.ranks.find? fun r => r.n == 128 * c.m + i && r.phase != .cast).flatMap dataCws
  (runsOf l).foldl (fun s r => uncastAdd p (4096 * r.1) (4096 * r.2) cause reason s) s

/-- Every tile of the pack is released, and its casts are forgotten. -/
def releaseTiles (p : PosIx) (s : State) : State :=
  let tiles := s.packs[p].casts.flatMap fun c => c.ranks.flatMap fun r => r.tiles.map (·.2)
  (tiles.foldl (fun s t => freeTile t s) s).updPack p fun k => { k with casts := [], open_ := none, append := 0, stream := none }

/-- The stripe operations of a position end: their engines are free. -/
def endStripes (p : PosIx) (s : State) : State :=
  let es := (s.stripes.filter fun x => x.p == p).flatMap (·.engines)
  (es.foldl (fun s e => s.updEng e fun x => { x with home := none, armed := false }) s : State) |> fun s =>
    { s with stripes := s.stripes.filter fun x => x.p != p }

/-- Whether a write gate is open on position p. -/
def gatesOpen (s : State) (p : PosIx) : Bool :=
  allEng.any fun e => s.eng[e].gate && (s.eng[e].home.map (·.1)) == some p

/-- Whether the stripe operation of position p is within a rank: a write gate is open or a frame is being read (R458). -/
def withinRank (s : State) (p : PosIx) : Bool :=
  gatesOpen s p || allEng.any fun e => s.bit (R.rdStatBusy e) && s.eng[e].slot.on && (s.eng[e].home.map (·.1)) == some p

/-- KEY_DESTROY takes effect (R458). DEDUCED: log 48. -/
def keyDestroyNow (p : PosIx) (s : State) : State :=
  let s := endStripes p (keySet p none s)
  let s := (packTags s p).foldl (fun s t => if t.op == 0x14 then s else finish t.num 2 0x040E (workResult t) s) s
  releaseTiles p (listUncast p 7 0x040E s)

/-- MTL_DATA as bytes. -/
def mtlData (s : State) : List Byte := (List.range 32).flatMap fun i => leBytes 8 (s.rd (R.mtlDataData i))
def mtlPut (l : List Byte) (s : State) : State :=
  (List.range 32).foldl (fun s i => s.wr (R.mtlDataData i) (leAt l (8 * i) 8)) s

/-- Results of the mailbox: done, refused and failed; an operation that needs random bytes fails (R466). -/
def mailOk (data : List Byte) (isKey : Bool) : MailRes := { result := 1, reason := 0, data := data, isKey := isKey, destroy := none }
/-- DEDUCED: log 47. -/
def mailNo (reason : Nat) : MailRes :=
  { result := if reason = 0x0C08 then 3 else 2, reason := reason, data := [], isKey := false, destroy := none }

/-- MTL_CMD.GO with an operation code (R467): one at a time, ERR while BUSY. DEDUCED: log 47, 97. -/
def mailGo (op : Nat) (run : List Byte → State → MailRes × State) (s : State) : State :=
  if s.bit R.mtlStatBusy then s.set1 R.mtlStatErr else
  let (r, s) := run (mtlData s) s
  (((s.wr R.mtlCmdOp op).set1 R.mtlStatBusy).wr R.mtlStatResult 0).updMtl fun m => { m with op := some r, unread := 0 }

/-- The position that argument byte 0 names. -/
def mailPos (d : List Byte) : PosIx := ⟨leAt d 0 1 % 8, by omega⟩

def mailKeyNew (d : List Byte) (s : State) : MailRes × State :=
  match keyNew (mailPos d) (leAt d 8 8) s with
  | (.ok b, s) => (mailOk b true, s)
  | (.error r, s) => (mailNo r, s)

def mailUnwrap (d : List Byte) (s : State) : MailRes × State :=
  match keyUnwrapOp (mailPos d) (slice d 8 96) s with
  | (.ok (path, b), s) => (mailOk (leBytes 8 path ++ b) true, s)
  | (.error r, s) => (mailNo r, s)

def mailDrop (d : List Byte) (s : State) : MailRes × State := (mailOk [] true, keySet (mailPos d) none s)

def mailDestroy (d : List Byte) (s : State) : MailRes × State :=
  ({ mailOk [] true with destroy := some (mailPos d) }, s)

/-- ESCROW_ENROLL (R455): debug unlocked by a token of the enrolled customer key, no pack mounted, a slot free. DEDUCED: log 96. -/
def mailEscrow (d : List Byte) (s : State) : MailRes × State :=
  let key := slice d 0 32
  if !s.bit R.mtlStatDbgunlk || !s.mtl.byCustomer then (mailNo 0x0C05, s)
  else if allPos.any fun p => s.packs[p].status != .none then (mailNo 0x0C06, s)
  else if s.mtl.escrow.length ≥ 4 then (mailNo 0x0C09, s)
  else
    let n := s.mtl.escrow.length
    (mailOk (leBytes 8 n ++ leBytes 8 (escrowId key)) true,
     (s.setBitOf R.mtlKeysEsc n).updMtl fun m => { m with escrow := m.escrow ++ [key] })

/-- DBG_CHAL (R462). -/
def mailChal (_ : List Byte) (s : State) : MailRes × State :=
  if s.mtl.trngBad then (mailNo 0x0C08, s) else
  let (b, s) := random 0xA1 32 s
  (mailOk b false, s.updMtl fun m => { m with nonce := some (b, s.tim.local_) })

/-- How long a nonce is valid, in nanoseconds (R462). -/
def nonceLife : Nat := 60000000000

/-- DBG_UNLOCK (R462, R463). -/
def mailUnlock (d : List Byte) (s : State) : MailRes × State :=
  let scope := leAt d 120 1
  let key := if Config.enrolled 3 then 3 else 1
  match s.mtl.nonce.filter fun x => s.tim.local_ < x.2 + nonceLife with
  | none => (mailNo 0x0C05, s)
  | some (nonce, _) =>
    let msg := shake256 64 (nonce ++ leBytes 8 (fingerprint s) ++ leBytes 1 scope)
    if !((scope = 1 || scope = 2) && Config.ed448 key msg (slice d 0 114)) then (mailNo 0x0C05, s)
    else if !s.mtl.keys.isEmpty then (mailNo 0x0C06, s)
    else (mailOk [] false, (s.set1 R.mtlStatDbgunlk).updMtl fun m => { m with scope := some scope, byCustomer := key == 3 })

/-- TRNG: 1 to 64 bytes; any other count is refused without a code of its own. -/
def mailTrng (d : List Byte) (s : State) : MailRes × State :=
  let n := leAt d 0 1
  if n = 0 || n > 64 then (mailNo 0, s)
  else if s.mtl.trngBad then (mailNo 0x0C08, s)
  else
    let (b, s) := random 0xA2 n s
    (mailOk (leBytes 8 0 ++ b) false, s)

/-- The mailbox operation ends (R467): its result in MTL_DATA, then RESULT. KEY_DESTROY waits for the rank boundary. DEDUCED: log 47. -/
def mailboxDone (s : State) : State :=
  match s.mtl.op with
  | none => s
  | some r =>
    match r.destroy with
    | some p => if withinRank s p then s else mailEnd r (keyDestroyNow p s)
    | none => mailEnd r s
where
  mailEnd (r : MailRes) (s : State) : State :=
    let s := mtlPut r.data s
    let s := if r.reason = 0 then s else s.wr R.mtlReasonCode r.reason
    ((s.wr R.mtlStatResult r.result).clr1 R.mtlStatBusy).updMtl fun m =>
      { m with op := none, unread := if r.isKey then 2 ^ ((r.data.length + 7) / 8) - 1 else 0 }

/-- The measurements of R465, in index order. DESIGN CHOICE: log 26. -/
def measurements (s : State) (imageDigest : List Byte) : List (List Byte) :=
  [sha3_512 ((List.range 262144).map Config.bootRom), sha3_512 imageDigest, sha3_512 (s.emberRead emberBase 256),
   sha3_512 (leBytes 1 (s.rd R.lampOptDbglock) ++ leBytes 1 (s.rd R.mtlArcCount) ++ Config.otpHashes)]

/-- The digest of an image over header bytes 0 to 63 and its code (R460). -/
def imageDigest (header code : List Byte) : List Byte := shake256 64 (header.take 64 ++ code)

/-- The running image's digest, of what SRAM holds of it; in recovery mode the boot ROM's program. -/
def runningDigest (s : State) : List Byte :=
  if s.bit R.lampStatRecovery then (List.range 262144).map Config.bootRom
  else imageDigest s.lamp.header (s.sramRead (leAt s.lamp.header 24 8) (leAt s.lamp.header 20 4))

/-- An SPDM request answered (R464). DESIGN CHOICE: log 26; DEDUCED: log 94. -/
def spdmRequest (msg : List Byte) (s : State) : State :=
  let r := Config.spdmReply msg (measurements s (runningDigest s)) s.freeCtr
  { s with hostOut := s.hostOut ++ [.spdm r], freeCtr := s.freeCtr + 1 }

/-- KEY_NEW. -/
def execKeyNew (s : State) : Out := done (mailGo 1 mailKeyNew s)
/-- KEY_UNWRAP. -/
def execKeyUnwrap (s : State) : Out := done (mailGo 2 mailUnwrap s)
/-- KEY_DROP. -/
def execKeyDrop (s : State) : Out := done (mailGo 3 mailDrop s)
/-- KEY_DESTROY. -/
def execKeyDestroy (s : State) : Out := done (mailGo 4 mailDestroy s)
/-- ESCROW_ENROLL. -/
def execEscrowEnroll (s : State) : Out := done (mailGo 5 mailEscrow s)
/-- DBG_CHAL. -/
def execDbgChal (s : State) : Out := done (mailGo 6 mailChal s)
/-- DBG_UNLOCK. -/
def execDbgUnlock (s : State) : Out := done (mailGo 7 mailUnlock s)
/-- TRNG. -/
def execTrng (s : State) : Out := done (mailGo 8 mailTrng s)
/-- MAILBOX_DONE. -/
def execMailboxDone (s : State) : Out := done (showHost (mailboxDone s))
/-- The nonce is no longer valid 60 s after its DBG_CHAL (R462). -/
def nonceExpiry (s : State) : State :=
  s.updMtl fun m => { m with nonce := m.nonce.filter fun x => s.tim.local_ < x.2 + nonceLife }
/-- NONCE_EXPIRY. -/
def execNonceExpiry (s : State) : Out := done (nonceExpiry s)
/-- TRNG_HEALTH_FAIL (R466). -/
def execTrngHealthFail (s : State) : Out := done ((s.set1 R.mtlStatTrngerr).updMtl fun m => { m with trngBad := true })
/-- TRNG_HEALTH_RECOVERY (R466). -/
def execTrngHealthRecovery (s : State) : Out := done (s.updMtl fun m => { m with trngBad := false })
/-- SPDM_REQUEST. -/
def execSpdmRequest (msg : List Byte) (s : State) : Out := done (spdmRequest msg s)

end Sys2Proof.Machine
end

