-- ==== Sys2Proof/Machine/Ledger.lean ====
section
/-! DEFINITION. The ledger as a mount reads it (R52 to R57) and what its records say of the pack. -/

namespace Sys2Proof.Machine

/-- A record that a copy of a segment carries: its slot, SEQ, bytes, and the record where it counts. -/
structure Parsed where
  slot : Nat
  seq : Nat
  raw : List Byte
  body : Option LRec
  deriving DecidableEq, Repr

/-- The body of a known record from its bytes (Table 2.11). -/
def bodyOf (type : Nat) (b : List Byte) : Option LBody :=
  match type with
  | 1 => some (.packIdentity (leAt b 48 8) (leAt b 24 16) (leAt b 44 4))
  | 2 => some (.formatProgress (leAt b 24 1) (leAt b 25 1) (leAt b 32 8))
  | 3 => some (.wrappedKey (leAt b 24 8) (leAt b 32 40) (leAt b 72 8) (leAt b 80 40))
  | 4 => some (.cast (leAt b 24 4) (leAt b 28 1) (leAt b 29 1) (slice b 32 32) (leAt b 64 8))
  | 5 => some (.relocation (leAt b 24 4) (leAt b 28 1) (leAt b 29 1) (leAt b 32 4) (leAt b 36 4))
  | 6 => some (.sanitiseProgress (leAt b 24 1) (leAt b 25 1) (leAt b 26 1) (leAt b 28 4))
  | 7 => some (.packState (leAt b 24 1) (leAt b 25 1) (leAt b 28 2))
  | 8 => some (.keyDestroyed (leAt b 24 8) (leAt b 32 8))
  | _ => none

/-- Slots of a known record type. -/
def typeSlots (type : Nat) : Nat := if type = 3 then 2 else 1

/-- Whether a record's CRC holds: over the whole record with its field zero (Table 2.9). -/
def recCrcOk (raw : List Byte) : Bool := leAt raw 12 4 == crc32c (slice raw 0 12 ++ leBytes 4 0 ++ raw.drop 16)

/-- The records of one copy of a segment from slot i on (R54). -/
def parseSlots (seg : List Byte) : Nat → Nat → List Parsed
  | 0, _ => []
  | fuel + 1, i =>
    let h := slice seg (128 * i) 128
    let type := leAt h 0 2
    let n := leAt h 2 1
    if i ≥ 32 || type = 0 || n = 0 || n > 8 || i + n > 32 then [] else
    let raw := slice seg (128 * i) (128 * n)
    let rest := parseSlots seg fuel (i + n)
    if !recCrcOk raw then rest else
    let known := (bodyOf type raw).isSome
    let counts := known && leAt h 3 1 == 1 && n == typeSlots type
    let body := if counts then (bodyOf type raw).map fun b => { seq := leAt h 4 8, time := leAt h 16 8, body := b } else none
    { slot := i, seq := leAt h 4 8, raw := raw, body := body } :: rest

def parseCopy (c : Option (List Byte)) : List Parsed := match c with | some seg => parseSlots seg 32 0 | none => []

/-- Records of both copies of a segment, and the SEQs of those in which they disagree (R57). -/
def parseSeg (x : Option (List Byte) × Option (List Byte)) : List Parsed × List Nat :=
  let a := parseCopy x.1
  let b := parseCopy x.2
  let clash := a.filter fun r => b.any fun q => q.slot == r.slot && q.raw != r.raw
  let other := b.filter fun q => !a.any fun r => r.slot == q.slot
  ((a.filter fun r => !clash.contains r) ++ other,
   (clash ++ b.filter fun q => a.any fun r => r.slot == q.slot && r.raw != q.raw).map (·.seq))

/-- What a whole ledger says: records that govern, by rising SEQ; every SEQ present; SEQs no copy governs. -/
structure LedgerRead where
  recs : List LRec
  seqs : List Nat
  clash : List Nat
  deriving DecidableEq, Repr

/-- A record takes the place of one with its SEQ in a lower segment (R57). -/
def putRec (r : LRec) : List LRec → List LRec
  | [] => [r]
  | x :: t => if r.seq < x.seq then r :: x :: t else if r.seq = x.seq then r :: t else x :: putRec r t

/-- The segments of a ledger in order (R57). DEDUCED: log 70. -/
def readLedger (segs : List (Option (List Byte) × Option (List Byte))) : LedgerRead :=
  segs.foldl (fun l x =>
    let (ps, bad) := parseSeg x
    { recs := ps.foldl (fun l p => match p.body with | some r => putRec r l | none => l) l.recs,
      seqs := l.seqs ++ ps.map (·.seq),
      clash := (l.clash.filter fun q => !ps.any fun p => p.seq == q) ++ bad }) { recs := [], seqs := [], clash := [] }

/-- SEQs that KEY_DESTROYED records name (R57). -/
def destroyedSeqs (l : List LRec) : List Nat :=
  l.filterMap fun r => match r.body with | .keyDestroyed _ q => some q | _ => none

/-- The highest SEQ of a ledger, none where it has no record. -/
def maxSeq (l : LedgerRead) : Option Nat := l.seqs.max?

/-- A ledger fault (R57): copies that disagree, or a SEQ that nothing fills. -/
def ledgerFault (l : LedgerRead) : Bool :=
  !l.clash.isEmpty || match maxSeq l with
  | none => false
  | some m => (List.range m).any fun q => !l.seqs.contains q && !(destroyedSeqs l.recs).contains q

/-- The WRAPPED_KEY record that governs (R456), its body as KEY_UNWRAP takes it. -/
def keyCandidate (s : State) (l : List LRec) : Option LRec :=
  let dead := destroyedSeqs l
  let ks := l.reverse.filter fun r => match r.body with | .wrappedKey .. => !dead.contains r.seq | _ => false
  (ks.find? fun r => match r.body with | .wrappedKey f _ _ _ => f == fingerprint s | _ => false) <|>
  (ks.find? fun r => match r.body with | .wrappedKey _ _ id _ => id != 0 && (escrowKey s id).isSome | _ => false)

/-- Bytes 24 to 119 of a WRAPPED_KEY record. -/
def keyBody : LBody → List Byte
  | .wrappedKey f w id e => leBytes 8 f ++ leBytes 40 w ++ leBytes 8 id ++ leBytes 40 e
  | _ => []

/-- A WRAPPED_KEY record from those bytes. -/
def keyRecord (b : List Byte) : LBody := .wrappedKey (leAt b 0 8) (leAt b 8 40) (leAt b 48 8) (leAt b 56 40)

/-- Whether every WRAPPED_KEY record of a ledger is named by a KEY_DESTROYED record (R456). -/
def keysDestroyed (l : List LRec) : Bool :=
  !(destroyedSeqs l).isEmpty && l.all fun r => match r.body with | .wrappedKey .. => (destroyedSeqs l).contains r.seq | _ => true

/-- One record applied to what the controller holds of a pack, in SEQ order (R50, R57, R327, R330). -/
def applyRec (k : PackState) (r : LRec) : PackState :=
  match r.body with
  | .packIdentity _ uuid card => { k with uuid := uuid, tag := uuid % 2 ^ 64, cardCrc := card, fmt := some (0, 0, 0) }
  | .formatProgress step layer esc =>
    { k with fmt := if step = 4 then none else some (step, layer, if step = 1 then esc else (k.fmt.map (·.2.2)).getD 0) }
  | .wrappedKey .. => k
  | .cast m _ _ _ _ => { k with recorded := if k.recorded.contains m then k.recorded else k.recorded ++ [m] }
  | .relocation n layer _ _ slot =>
    { k with moved := Assoc.put n slot k.moved,
             riser := Assoc.put layer (max (slot - riserBase layer + 1) ((Assoc.get layer k.riser).getD 0)) k.riser }
  | .sanitiseProgress mode state layer next =>
    { k with sanMode := mode, sanState := state, sanLayer := layer, sanNext := next, san := mode = 2 && state = 1 }
  | .packState flags mask reason =>
    { k with roReason := if bitAt flags 0 then reason else 0, roCauses := if bitAt flags 0 && reason != 0 then [reason] else [], uncal := mask }
  | .keyDestroyed .. => k

end Sys2Proof.Machine
end

