-- ==== Sys2Proof/Machine/Queues.lean ====
section
/-! DEFINITION. The queue protocol (chapter 10): enabling functions, doorbells, fetching, queue management, completions,
aborts, resets of functions, and host data. -/

namespace Sys2Proof.Machine

/-- A ring size field, 0 standing for 16 (Table 10.3). -/
def ringLog (v : Nat) : Nat := if v = 0 then 16 else v

/-- The queues of a function other than those a test keeps are gone. -/
def keepQueues (f : FnIx) (keep : Nat → Bool) (s : State) : State :=
  s.updHqi fun h => { h with sqs := h.sqs.filter (fun q => q.fn != f || keep q.qid),
                             cqs := h.cqs.filter (fun q => q.fn != f || keep q.qid) }

/-- The admin queue pair made at enabling (R274): vector 0, no coalescing, a holding share of 16. -/
def adminPair (f : FnIx) (s : State) : State :=
  let sq : SQ := { fn := f, qid := 0, log2 := ringLog (s.rd (R.fnAqaAsqlog f)), base := s.rd (R.fnAsqAddr f) * 4096, cqid := 0,
                   poll := 0, burst := 4, head := 0, tail := 0, consumed := 0, wake := false, frozenAt := none, broken := false }
  let cq : CQ := { fn := f, qid := 0, log2 := ringLog (s.rd (R.fnAqaAcqlog f)), base := s.rd (R.fnAcqAddr f) * 4096, iv := 0,
                   ithr := 0, itime := 0, hshare := 16, ien := true, posted := 0, head := 0, bell := 0, held := [],
                   paused := false, unsig := 0 }
  (keepQueues f (· != 0) s).updHqi fun h => { h with sqs := sq :: h.sqs, cqs := cq :: h.cqs }

/-- FN_CTL.EN = 1 (R274): after a reset still running; refused on a bad ring size or a base of zero. -/
def functionEnable (f : FnIx) (s : State) : State :=
  if s.bit (R.fnCtlEn f) then s
  else if s.fns[f].resetting then s.updFn f fun x => { x with enNext := true }
  else if ringLog (s.rd (R.fnAqaAsqlog f)) < 4 || ringLog (s.rd (R.fnAqaAcqlog f)) < 4 || s.rd (R.fnAsqAddr f) = 0 ||
      s.rd (R.fnAcqAddr f) = 0 then ((s.set1 (R.fnStsCfgerr f)).clr1 (R.fnCtlEn f)).clr1 (R.fnStsRdy f)
  else (adminPair f (s.set1 (R.fnCtlEn f))).updFn f fun x => { x with errCount := 0 }

/-- An enabled function becomes ready while HQI_CTRL.EN is 1 (R274, R304); in recovery mode only F0 does (R441). -/
def functionReady (f : FnIx) (s : State) : State :=
  if s.bit (R.fnCtlEn f) && s.bit R.hqiCtrlEn && !(s.bit R.lampStatRecovery && f.val != 0) then s.set1 (R.fnStsRdy f) else s

/-- The key of a doorbell's last value: SQ tail or CQ head. -/
def bellKey (f : FnIx) (cq : Bool) (q : Nat) : Nat := f.val * 2048 + 2 * q + (if cq then 1 else 0)

/-- A doorbell's value as reads return it (R282). -/
def bellPut (f : FnIx) (cq : Bool) (q v : Nat) (s : State) : State :=
  s.updHqi fun h => { h with bells := Assoc.put (bellKey f cq q) (v % 2 ^ 32) h.bells }

/-- A write to a doorbell of queue q, 4 bytes wide (R273, R282). -/
def bellWrite (f : FnIx) (cq : Bool) (q value size : Nat) (act : State → State) (s : State) : State :=
  if size != 4 then s.set1 (R.fnStsSzerr f) else act (bellPut f cq q value s)

/-- An SQ tail doorbell (R281, R282): the value is recorded, the wake is set. -/
def sqDoorbell (f : FnIx) (q value size : Nat) (s : State) : State :=
  bellWrite f false q value size (fun s => if (sqOf s f q).isSome then
      updSq f q (fun x => { x with tail := value % 2 ^ 32, wake := true }) s
    else s.set1 (R.fnStsDberr f)) s

/-- A CQ head doorbell (R282, R288, R290): slots are free again, held completions are written, a pause may end. -/
def cqDoorbell (f : FnIx) (q value size : Nat) (s : State) : State :=
  bellWrite f true q value size (fun s => match cqOf s f q with
    | none => s.set1 (R.fnStsDberr f)
    | some c =>
      let v := value % 2 ^ 32
      if (c.posted + 2 ^ 32 - v) % 2 ^ 32 > 2 ^ c.log2 then s.set1 (R.fnStsDberr f)
      else cqPause f q (drainCq f q (c.held.length + 1) (updCq f q (fun x => { x with head := v, bell := v }) s))) s

/-- The poll interval of an SQ; the admin SQ's is FN_APOLL (R284). -/
def pollOf (s : State) (q : SQ) : Nat := if q.qid = 0 then s.rd (R.fnApollPoll q.fn) else q.poll

/-- POLL µs have passed since the SQ's last fetch (R284). -/
def sqPollExpiry (f : FnIx) (q : Nat) (s : State) : State :=
  match sqOf s f q with
  | some x => if pollOf s x = 0 then s else updSq f q (fun x => { x with wake := true }) s
  | none => s

/-- The command-record ring is full (R283). -/
def ringFull (s : State) : Bool :=
  (s.rd R.hqiCpiCount + 2 ^ 32 - s.rd R.hqiCciCount) % 2 ^ 32 ≥ 2 ^ s.rd R.hqiCringLog2

/-- Tags that a function has in use. -/
def tagsOf (s : State) (f : FnIx) : Nat := (s.hqi.tags.filter fun t => t.fn == f).length

/-- Whether a function may take another command (R283). DEDUCED: log 42. -/
def mayConsume (s : State) (f : FnIx) : Bool :=
  tagsOf s f < s.rd (R.fnQuotaTags f) && s.hqi.tags.length < 32768 && !ringFull s

/-- Whether the device may take another entry of an SQ: R283's limits, and its completion queue is not paused (R290). -/
def mayTake (s : State) (q : SQ) : Bool :=
  mayConsume s q.fn && ((cqOf s q.fn q.cqid).map fun c => !c.paused).getD false

/-- Whether the device fetches from an SQ at its turn (R281, R283, R290, R293, R302). -/
def fetchable (s : State) (q : SQ) : Bool :=
  q.wake && q.frozenAt.isNone && !q.broken && s.bit (R.fnStsRdy q.fn) && s.bit R.hqiCtrlEn && mayTake s q && !s.pins.pwrFail

/-- The least element above a bound, or else the least (round robin). -/
def nextAfter (last : Nat) (l : List Nat) : Option Nat :=
  ((l.filter (last < ·)).min? <|> l.min?)

/-- The SQ whose turn it is (R281). DEDUCED: log 55. -/
def fetchTurn (s : State) : Option (Nat × Nat) :=
  let l := s.hqi.sqs.filter (fetchable s)
  match nextAfter s.hqi.lastFn (l.map (·.fn.val)) with
  | none => none
  | some f =>
    let last := ((s.fns.toList[f]?).map (·.lastSq)).getD 0
    (nextAfter last ((l.filter fun q => q.fn.val == f).map (·.qid))).map fun q => (f, q)

/-- The lowest tag not in use. DEDUCED: log 96. -/
def freshTag (s : State) : Nat := (lowestFrom (fun n => !s.hqi.tags.any fun t => t.num == n) 32768 0).getD 0

/-- The record that firmware sees of a consumed command (chapter 10, HQI registers). -/
def cmdRecord (sqe : List Byte) (tag : Nat) (f : FnIx) (sqid cqid time : Nat) : List Byte :=
  slice sqe 0 64 ++ leBytes 2 tag ++ leBytes 1 f ++ leBytes 1 0 ++ leBytes 2 sqid ++ leBytes 2 cqid ++ leBytes 8 time ++
    leBytes 48 0

/-- The next record of the ring is written. -/
def putRecord (rec_ : List Byte) (s : State) : State :=
  let a := s.rd R.hqiCringAddr * 128 + 128 * (s.rd R.hqiCpiCount % 2 ^ s.rd R.hqiCringLog2)
  let s := if sramBase ≤ a && a + 128 ≤ sramBase + sramSize then s.sramWrite a rec_ else s
  s.tickUp R.hqiCpiCount 1

/-- The head of an SQ moves past its slot, whose D is cleared (R278). DEDUCED: log 55. -/
def takeSlot (q : SQ) (s : State) : State :=
  updSq q.fn q.qid (fun x => { x with head := (x.head + 1) % 2 ^ x.log2, consumed := x.consumed + 1 })
    (hostWrite q.fn (q.base + 64 * q.head + 63) [0] s)

/-- One entry is consumed (R278): a tag, the record, its D cleared; firmware takes it while it runs (R308). DEDUCED: log 50. -/
def consume (q : SQ) (x : Fetched) (s : State) : State :=
  let n := freshTag s
  let s := stampUp (takeSlot q s)
  let pieces := dataPieces x.sqe x.sgl
  let t : Tag := { num := n, fn := q.fn, sqid := q.qid, cqid := q.cqid, cid := leAt x.sqe 2 2, sqe := slice x.sqe 0 64,
                   ptrOk := pieces.isSome, pieces := pieces.getD [], stamp := s.hqi.stamp, aseq := 0, started := false, done := false, taken := false,
                   aborted := false, orphan := false, abortOf := none, job := none, policy := [], work := .none }
  let s := s.updHqi fun h => { h with tags := h.tags ++ [t] }
  admitAll (putRecord (cmdRecord x.sqe n q.fn q.qid q.cqid (s.rd R.timeNowNs)) s)

/-- Whether an entry's D is 1. -/
def ownedByDevice (sqe : List Byte) : Bool := leAt sqe 63 1 ≥ 128

/-- The entries of one fetch in slot order (R280, R283, R293): up to the first with D = 0, a limit, or a freeze. The
wake is set again after a whole burst, and kept when a limit stops the consumption. DEDUCED: log 55. -/
def consumeBurst (f : FnIx) (q : Nat) : List Fetched → State → State
  | [], s => updSq f q (fun x => { x with wake := true }) s
  | e :: t, s =>
    match sqOf s f q with
    | none => s
    | some x =>
      if !ownedByDevice e.sqe || x.frozenAt.isSome then s
      else if !mayTake s x then updSq f q (fun x => { x with wake := true }) s
      else consumeBurst f q t (consume x e s)

/-- A fetch at the SQ's turn (R280, R281). -/
def sqFetch (f : FnIx) (q : Nat) (entries : List Fetched) (s : State) : State :=
  if fetchTurn s != some (f.val, q) then s else
  match sqOf s f q with
  | none => s
  | some x =>
    let s := (updSq f q (fun x => { x with wake := false }) s).updFn f fun y => { y with lastSq := q }
    let s := s.updHqi fun h => { h with lastFn := f.val }
    consumeBurst f q (entries.take (min x.burst (2 ^ x.log2 - x.head))) s

/-- The fetch of an entry fails (R302): the queue is broken. -/
def sqFetchFailed (f : FnIx) (q : Nat) (s : State) : State :=
  if fetchTurn s != some (f.val, q) then s else
  let s := updSq f q (fun x => { x with wake := false, broken := true }) s
  let s := errEntry f 0 0xFFFF q 5 0x0116 (queueError f s)
  hqiEvent 4 f q 0 s

/-- Firmware advances HQI_CCI (R283): the records it passes are taken. -/
def recordConsumed (count : Nat) (s : State) : State := admitAll (s.wr R.hqiCciCount count)

/-- The tag whose command a row runs: firmware has taken it, it is of that opcode, it has not ended, and no pause holds it
back (R290). -/
def cmdAt (s : State) (n op : Nat) : Option Tag :=
  (tagOf s n).bind fun t => if t.op == op && t.aseq > 0 && !t.done && fwUp s && goesOn s t then some t else none

/-- A queue-management command at its turn: those of one admin queue run one at a time, in consumption order (R286). -/
def qmAt (s : State) (n op : Nat) : Option Tag :=
  (cmdAt s n op).bind fun t =>
    if s.hqi.tags.any fun u => u.fn == t.fn && isQm u.op && u.aseq > 0 && !u.done && u.abortOf.isNone && u.stamp < t.stamp
    then none else some t

/-- A queue-management command runs. -/
def qmRun (n op : Nat) (act : Tag → State → State) (s : State) : State :=
  let s := admitAll s
  match qmAt s n op with
  | some t => act t s
  | none => s

/-- The number of queues of a kind that a function has. -/
def sqCount (s : State) (f : FnIx) : Nat := (s.hqi.sqs.filter fun q => q.fn == f).length
def cqCount (s : State) (f : FnIx) : Nat := (s.hqi.cqs.filter fun q => q.fn == f).length
def shareSum (s : State) (f : FnIx) : Nat := ((s.hqi.cqs.filter fun q => q.fn == f).map (·.hshare)).foldl (· + ·) 0

/-- MSI-X vectors of a function (Table 10.1). -/
def vectors (f : FnIx) : Nat := if f.val = 0 then 2048 else 64

/-- HSHARE and BURST with their zero values (Table 10.7). -/
def hshareOf (t : Tag) : Nat := if t.csp 40 2 = 0 then 64 else t.csp 40 2
/-- DEDUCED: log 55. -/
def burstOf (t : Tag) : Nat := if t.csp 40 1 = 0 then 4 else t.csp 40 1

/-- The ring base a CREATE command carries. -/
def Tag.daddr (t : Tag) : Nat := leAt t.sqe 16 8

/-- The tests common to both CREATE commands (R286). -/
def createCheck (inUse : Bool) (count max_ : Nat) (burst : Nat) (t : Tag) : Option Nat :=
  let q := t.csp 32 2
  if q = 0 || q > 1023 then some 0x0102
  else if inUse then some 0x0103
  else if t.csp 34 1 < 4 || t.csp 34 1 > 16 || burst > 8 then some 0x0104
  else if count ≥ max_ then some 0x0105
  else if t.daddr = 0 || t.daddr % 4096 != 0 then some 0x0109
  else none

/-- CREATE_CQ's configuration check (R286). -/
def createCqCheck (s : State) (t : Tag) : Option Nat :=
  createCheck (cqOf s t.fn (t.csp 32 2)).isSome (cqCount s t.fn) (s.rd (R.fnQuotaCqmax t.fn)) 0 t <|>
  if t.csp 36 2 ≥ vectors t.fn then some 0x0108
  else if shareSum s t.fn + hshareOf t > s.rd (R.fnQuotaHold t.fn) then some 0x010A
  else none

/-- CREATE_CQ (R286). -/
def createCq (t : Tag) (s : State) : State :=
  match createCqCheck s t with
  | some r => finish t.num 1 r 0 s
  | none =>
    let c : CQ := { fn := t.fn, qid := t.csp 32 2, log2 := t.csp 34 1, base := t.daddr, iv := t.csp 36 2, ithr := t.csp 38 1,
                    itime := t.csp 39 1, hshare := hshareOf t, ien := t.csp 42 1 % 2 == 1, posted := 0, head := 0, bell := 0,
                    held := [], paused := false, unsig := 0 }
    finish t.num 0 0 0 (s.updHqi fun h => { h with cqs := h.cqs ++ [c], bells := Assoc.del (bellKey t.fn true c.qid) h.bells })

/-- CREATE_SQ's configuration check (R286). -/
def createSqCheck (s : State) (t : Tag) : Option Nat :=
  createCheck (sqOf s t.fn (t.csp 32 2)).isSome (sqCount s t.fn) (s.rd (R.fnQuotaSqmax t.fn)) (t.csp 40 1) t <|>
  if (cqOf s t.fn (t.csp 36 2)).isNone then some 0x0106 else none

/-- CREATE_SQ (R286). -/
def createSq (t : Tag) (s : State) : State :=
  match createSqCheck s t with
  | some r => finish t.num 1 r 0 s
  | none =>
    let q : SQ := { fn := t.fn, qid := t.csp 32 2, log2 := t.csp 34 1, base := t.daddr, cqid := t.csp 36 2, poll := t.csp 38 2,
                    burst := burstOf t, head := 0, tail := 0, consumed := 0, wake := false, frozenAt := none, broken := false }
    finish t.num 0 0 0 (s.updHqi fun h => { h with sqs := h.sqs ++ [q], bells := Assoc.del (bellKey t.fn false q.qid) h.bells })

/-- Whether a held completion is one of SQ q. -/
def heldOf (c : CQ) (q : Nat) : Bool := c.held.any fun h => leAt h.body 18 2 == q

/-- DESTROY_SQ (R287). `headD`: D of the slot at the head, on the fetch made for the check. -/
def destroySq (headD : Bool) (t : Tag) (s : State) : State :=
  let q := t.csp 32 2
  match sqOf s t.fn q with
  | none => finish t.num 1 0x0102 0 s
  | some x =>
    if q = 0 then finish t.num 1 0x0102 0 s
    else if headD || s.hqi.tags.any (fun u => u.fn == t.fn && u.sqid == q && !u.orphan) ||
        ((cqOf s t.fn x.cqid).map fun c => heldOf c q).getD false then finish t.num 1 0x0101 0 s
    else finish t.num 0 0 0 (s.updHqi fun h => { h with sqs := h.sqs.filter fun y => !(y.fn == t.fn && y.qid == q) })

/-- DESTROY_CQ (R287). -/
def destroyCq (t : Tag) (s : State) : State :=
  let q := t.csp 32 2
  match cqOf s t.fn q with
  | none => finish t.num 1 0x0102 0 s
  | some c =>
    if q = 0 then finish t.num 1 0x0102 0 s
    else if s.hqi.sqs.any fun x => x.fn == t.fn && x.cqid == q then finish t.num 1 0x0107 0 s
    else if !c.held.isEmpty then finish t.num 1 0x0101 0 s
    else finish t.num 0 0 0 (s.updHqi fun h => { h with cqs := h.cqs.filter fun y => !(y.fn == t.fn && y.qid == q) })

/-- Entries dropped at a thaw (R296): each completes with class 4 and 0x0112, ASEQ 0, while ring and share have room. The
answer says whether the first entry with D = 0, or the end of those read, was reached. -/
def dropEntries (f : FnIx) (q : Nat) : List (List Byte) → State → Bool × State
  | [], s => (true, s)
  | e :: t, s =>
    match sqOf s f q with
    | none => (true, s)
    | some x =>
      match cqOf s f x.cqid with
      | none => (true, s)
      | some c =>
        if !ownedByDevice e then (true, s)
        else if c.held.length ≥ c.hshare && cqFree c = 0 then (false, s)
        else
          let s := takeSlot x s
          let b := cqeBody 0 0 (leAt e 2 2) q (x.consumed + 1) 0x0112 4 0
          dropEntries f q t (postCqe f x.cqid { tag := none, body := b } s)

/-- Whether the function has read page 0x01 since the freeze (R296). -/
def logRead (s : State) (t : Tag) (at_ : Nat) : Bool := s.fns[t.fn].logReads.any fun r => at_ < r.1 && r.2 < t.stamp

/-- THAW_QUEUE (R296). `entries`: what the ring holds from the head on. DEDUCED: log 56. -/
def thawQueue (entries : List (List Byte)) (t : Tag) (s : State) : State :=
  let q := t.csp 32 2
  match sqOf s t.fn q with
  | none => finish t.num 1 0x0102 0 s
  | some x =>
    match x.frozenAt with
    | none => finish t.num 0 0 0 s
    | some at_ =>
      if !logRead s t at_ then finish t.num 1 0x010D 0 s else
      let (ended, s) := if bitAt (t.csp 34 1) 0 then dropEntries t.fn q entries s else (true, s)
      if ended then finish t.num 0 0 0 (updSq t.fn q (fun x => { x with frozenAt := none, wake := true }) s) else s

/-- The bytes of a write whose ranks have not been assembled are discarded and padded, listed with cause 6 (Table 3.9). -/
def padUnassembled (p : PosIx) (a len moved : Nat) (s : State) : State :=
  let open_ := (ranksOf a len).filter fun n => ((rankOf s p n).map fun r => r.phase == .filling || r.phase == .ready).getD false
  match open_.min? with
  | none => s
  | some n =>
    let lo := max a (n * rankBytes)
    let s := if a + moved > lo then sealTail p (a + moved) s else s
    let s := padCw p (lo / 4096) ((a + len + 4095) / 4096) s
    readyRange p a len (uncastAdd p lo (a + len - lo) 6 0 s)

/-- Compression jobs and contexts of a command end (R300, R403). -/
def dropJobs (n : Nat) (s : State) : State :=
  { s with cmp := { s.cmp with jobs := s.cmp.jobs.filter fun j => leAt (s.sramRead j.addr 64) 32 8 != n } }

/-- The contexts free, and the engines that run jobs (Table 14.6). -/
def showCmp (s : State) : State :=
  (s.wr R.cmpStatCtxfree (64 - s.cmp.ctxs.length)).wr R.cmpStatBusy (s.cmp.jobs.foldl (fun a j => setBit a j.eng) 0)

/-- The context of a command's job is freed (R403). -/
def dropCtx (n : Nat) (s : State) : State :=
  let used := s.cmp.jobs.filterMap fun j => if leAt (s.sramRead j.addr 64) 32 8 = n then j.ctx else none
  let kept := match tagOf s n with
    | some t => if t.done then [leAt (ctxBody s n) 14 2] else []
    | none => []
  { s with cmp := { s.cmp with ctxs := s.cmp.ctxs.filter fun c => !used.contains c.num && !(c.handle != 0 && kept.contains c.handle) } }

/-- Whether a command's work is a compression job, its own or one INLINE. -/
def hasJob (t : Tag) : Bool :=
  match t.work with
  | .job => true
  | .inline _ => true
  | _ => false

/-- An abort is presented for a tag whose completion has not been taken (R297, R298): event 5, and the command stops. DEDUCED: log 57. -/
def presentAbort (n : Nat) (s : State) : State :=
  match tagOf s n with
  | none => s
  | some t =>
    let stop := fun (s : State) => finish n 4 0x0111 (workResult t) (if t.done then s else stopWork t 0x0111 s)
    let s := if !opAbortable t.op then s else stop (if hasJob t then showCmp (dropJobs n (dropCtx n s)) else s)
    hqiEvent 5 t.fn t.sqid n (updTag n (fun t => { t with aborted := true }) s)

/-- ABORT (R297, R298). DEDUCED: log 57. -/
def abortCmd (t : Tag) (s : State) : State :=
  match s.hqi.tags.find? fun u => u.fn == t.fn && !u.orphan && u.sqid == t.csp 32 2 && u.cid == t.csp 34 2 with
  | none => finish t.num 1 0x010F 0 s
  | some u =>
    let wait := fun (late : Bool) (s : State) => updTag t.num (fun x => { x with abortOf := some (u.num, late) }) s
    if u.taken && u.aseq = 0 then wait true s
    else if !opAbortable u.op then finish t.num 1 0x0110 0 s
    else if u.taken then wait true s
    else presentAbort u.num (wait false s)

/-- The sum of a quota over the VFs, with function f's taken as v. -/
def vfSum (s : State) (fld : Nat → Fld) (f v : Nat) : Nat :=
  ((List.range 16).filter (· != 0)).foldl (fun a k => a + (if k = f then v else s.rd (fld k))) 0

/-- Whether QUOTA leaves F0 with what it uses and the minimum (R272). -/
def quotaLeaves (s : State) (fld : Nat → Fld) (total use min_ f v : Nat) : Bool :=
  v ≥ min_ && vfSum s fld f v + max use min_ ≤ total

/-- QUOTA (R271, R272). -/
def quotaCmd (t : Tag) (s : State) : State :=
  let f := t.csp 32 1
  let ok := 1 ≤ f && f ≤ 15 && !s.bit (R.fnCtlEn f) &&
    quotaLeaves s R.fnQuotaSqmax 1024 (sqCount s 0) 1 f (t.csp 34 2) &&
    quotaLeaves s R.fnQuotaCqmax 1024 (cqCount s 0) 1 f (t.csp 36 2) &&
    quotaLeaves s R.fnQuotaTags 32768 (tagsOf s 0) 16 f (t.csp 38 2) &&
    quotaLeaves s R.fnQuotaHold 4096 (shareSum s 0) 16 f (t.csp 40 2)
  if !ok then finish t.num 1 0x010C 0 s else
  let put := fun (fld : Nat → Fld) (total v : Nat) (s : State) => (s.wr (fld f) v).wr (fld 0) (total - vfSum s fld f v)
  finish t.num 0 0 0 (put R.fnQuotaHold 4096 (t.csp 40 2) (put R.fnQuotaTags 32768 (t.csp 38 2)
    (put R.fnQuotaCqmax 1024 (t.csp 36 2) (put R.fnQuotaSqmax 1024 (t.csp 34 2) s))))

/-- Whether an ASSIGN entry that covers a write is not yet committed: firmware posts no completion of it before (R92). -/
def assignPending (s : State) (t : Tag) : Bool :=
  t.aseq > 0 && s.journal.pend.any fun e => match e.body with | .assign _ _ _ a => a == t.aseq | _ => false

/-- HQI_POST.GO (R288, R305): the result, and the completion is taken; one of a reset function frees its tag (R300).
Nothing is posted after PWRFAIL_N (R447). DEDUCED: log 57. -/
def completionPost (n : Nat) (s : State) : State :=
  let s := s.wr R.hqiPostTag n
  match tagOf s n with
  | none => s.wr R.hqiPstatResult 3
  | some t =>
    if t.taken then s.wr R.hqiPstatResult 3
    else if assignPending s t then s
    else (if t.orphan then freeTag n s else takeCompletion n s).wr R.hqiPstatResult (if t.aborted then 2 else 1)

/-- HQI_ABORT.GO (R298). DEDUCED: log 57. -/
def hqiAbort (n : Nat) (s : State) : State :=
  let s := s.wr R.hqiAbortTag n
  match tagOf s n with
  | none => s.wr R.hqiAstatResult 3
  | some t => if t.taken then s.wr R.hqiAstatResult 2 else (presentAbort n s).wr R.hqiAstatResult 1

/-- ITIME has passed since the first CQE not yet signalled (R292). -/
def interruptTimer (f : FnIx) (q : Nat) (s : State) : State :=
  match cqOf s f q with
  | some c => if c.ien && c.itime != 0 && c.unsig > 0 then signal f c.iv (updCq f q (fun x => { x with unsig := 0 }) s) else s
  | none => s

/-- What a function reset does with one of its tags (R300, Table 3.9). DEDUCED: log 58. -/
def resetTag (n : Nat) (s : State) : State :=
  match tagOf s n with
  | none => s
  | some t =>
    if t.done then freeTag n s else
    match t.work with
    | .write p a len moved force =>
      let s := padUnassembled p a len moved s
      updTag n (fun t => { t with orphan := true, work := .write p a len len force }) s
    | .pack _ => updTag n (fun t => { t with orphan := true }) s
    | _ => freeTag n (dropJobs n s)

/-- The work of a function that is reset ends (R300): its tags free or wait for the work that goes on. DEDUCED: log 58. -/
def resetWork (f : FnIx) (s : State) : State :=
  let s := hqiEvent 3 f 0 0 s
  endWrites ((s.hqi.tags.filter fun t => t.fn == f).foldl (fun s t => resetTag t.num s) s)

/-- The queues and the state of a function that is reset (R300): its admin pair alone is left, EN and RDY are 0. -/
def resetQueues (f : FnIx) (s : State) : State :=
  let s : State := { s with cmp := { s.cmp with ctxs := s.cmp.ctxs.filter fun c => c.fn != f } }
  let s := (keepQueues f (· == 0) (showCmp s)).updHqi fun h =>
    { h with sqs := h.sqs.map (fun q => if q.fn == f then { q with wake := false, broken := false } else q),
             cqs := h.cqs.map (fun q => if q.fn == f then { q with held := [], paused := false, unsig := 0 } else q) }
  let s := s.updFn f fun x => { x with resetting := true, enNext := false, errCount := 0, errLog := [], unrec := [], changes := [],
                                       pendVec := [], logReads := [] }
  (s.clr1 (R.fnCtlEn f)).clr1 (R.fnStsRdy f)

/-- Functions are reset together (R299, R300). -/
def resetFns (l : List FnIx) (s : State) : State := (s.forEach l resetWork).forEach l resetQueues

/-- A function reset (R300). DEDUCED: log 58. -/
def functionReset (f : FnIx) (s : State) : State := resetFns [f] s

/-- FN_CTL.EN written 0: an enabled function resets, one that waits to be enabled no longer does. -/
def functionDisable (f : FnIx) (s : State) : State :=
  if s.bit (R.fnCtlEn f) then functionReset f s else s.updFn f fun x => { x with enNext := false }

/-- A reset of every function. DEDUCED: log 49. -/
def resetAllFns (s : State) : State := resetFns allFn s

/-- The PCIe link is down (R299): every function resets, and PLL_PCIE has no consumer (Table 15.2). DEDUCED: log 49. -/
def pcieDown (s : State) : State := pllTrim 6 ((resetAllFns s).updHqi fun h => { h with linkUp := false })

/-- FLR; of F0 it resets every VF too (R299). -/
def flr (f : FnIx) (s : State) : State := if f.val = 0 then resetAllFns s else functionReset f s

/-- Reset handling ends (R300): the function may be configured; an EN = 1 written meanwhile takes effect (R274). -/
def functionResetDone (f : FnIx) (s : State) : State :=
  if !s.fns[f].resetting then s else
  let next := s.fns[f].enNext
  let s := s.updFn f fun x => { x with resetting := false, enNext := false }
  if next then functionEnable f s else s

/-- Whether host data of a command may be transferred: a pause stops a command that has not begun (R290). DEDUCED: log 42. -/
def mayTransfer (s : State) (t : Tag) : Bool :=
  !t.done && !t.orphan && goesOn s t

/-- Bytes of a write staged from its next byte on, frame by frame, each new frame in the next tile offered: how many
could be taken (R59, R61, R65). DEDUCED: log 59. -/
def stageBytes (who : Requester) (p : PosIx) (total : Nat) : Nat → Nat → List Byte → List Nat → State → Nat × State
  | 0, _, _, _, s => (0, s)
  | fuel + 1, a, l, tiles, s =>
    if l.isEmpty then (0, s) else
    let k := min l.length (65536 - a % 65536)
    let fin := a + k == total
    let have_ := ((rankOf s p (a / rankBytes)).bind fun r => Assoc.get (a % rankBytes / 65536) r.tiles).isSome
    match stageAt who p (a / rankBytes) (a % rankBytes) (l.take k) fin (nth 0 tiles 0) s with
    | none => (0, s)
    | some s =>
      let (n, s) := stageBytes who p total fuel (a + k) (l.drop k) (if have_ then tiles else tiles.drop 1) s
      (k + n, s)

/-- Bytes stored in a list of tiles outside the tundish, one after the other, a free tile being opened first; the input of a
job is staged so (R400). DEDUCED: log 59. -/
def fillTiles (who : Requester) : List Nat → List Byte → State → State
  | [], _, s => s
  | t :: ts, l, s =>
    if l.isEmpty || !tileOk s t || inMir s 0 (t * 65536) then s else
    let s := if (sealGet s t).state == tileFree then tileOpenAct t (sealGet s t) s else s
    let r := sealGet s t
    if r.state != tileOpen then s else
    let k := 65536 - r.fill
    let s := if k = 0 then s else (sealingWrite who t r.fill (l.take k) s).2
    fillTiles who ts (l.drop k) s

/-- Host data of a write, or of a job's command, arrives by DMA channel ch (R59, R301, R400). DEDUCED: log 59. -/
def hostData (n : Nat) (ch : Fin 64) (bytes : List Byte) (tiles : List Nat) (s : State) : State :=
  match tagOf s n with
  | none => s
  | some t =>
    match t.work with
    | .write p a len moved force =>
      if !mayTransfer s t then s else
      let (k, s) := stageBytes (.hqi ch) p (a + len) 300 (a + moved) (bytes.take (len - moved)) tiles s
      let s := updTag n (fun t => { t with started := true, work := .write p a len (moved + k) force }) s
      endWrites (readyRange p a len s)
    | .inline _ => if !mayTransfer s t then s else fillTiles (.hqi ch) tiles bytes (updTag n (fun t => { t with started := true }) s)
    | .job => if !mayTransfer s t then s else fillTiles (.hqi ch) tiles bytes (updTag n (fun t => { t with started := true }) s)
    | _ => s

/-- A host read for a command's data fails (R301, R310, R400). -/
def hostDmaReadError (n : Nat) (s : State) : State :=
  match tagOf s n with
  | none => s
  | some t =>
    if t.done then s else
    match t.work with
    | .inline _ => finish n 5 0x0113 0 (issueAseq n (showCmp (dropJobs n (dropCtx n s))))
    | _ => if t.aseq = 0 then s else finish n 5 0x0113 (workResult t) (stopWork t 0x0113 s)

/-- The widest link that the lanes left allow, with lane reversal (R268, R270). DEDUCED: log 41. -/
def widest (bad : Nat) : Nat :=
  (([8, 4, 2, 1].find? fun w => (List.range w).all (fun l => !bitAt bad l) || (List.range w).all fun l => !bitAt bad (7 - l))).getD 0

/-- A lane of the PCIe link fails (R270): the link narrows; with no lane left it is down (R299). -/
def pcieLaneFail (l : Fin 8) (s : State) : State :=
  let bad := setBit s.hqi.lanesBad l
  let w := min s.hqi.width (widest bad)
  (if w = 0 && s.hqi.linkUp then pcieDown s else s).updHqi fun h => { h with lanesBad := bad, width := w }

/-- The end of a command of the host interface: its registers follow its queues and tags. -/
def hostDone (f : State → State) (s : State) : Out := done (showHost (f s))

/-- FUNCTION_ENABLE. -/
def execFunctionEnable (f : FnIx) (s : State) : Out := hostDone (functionEnable f) s
/-- FUNCTION_READY. -/
def execFunctionReady (f : FnIx) (s : State) : Out := hostDone (functionReady f) s
/-- SQ_DOORBELL. -/
def execSqDoorbell (f : FnIx) (q value size : Nat) (s : State) : Out := hostDone (sqDoorbell f q value size) s
/-- CQ_DOORBELL. -/
def execCqDoorbell (f : FnIx) (q value size : Nat) (s : State) : Out := hostDone (cqDoorbell f q value size) s
/-- SQ_POLL_EXPIRY. -/
def execSqPollExpiry (f : FnIx) (q : Nat) (s : State) : Out := hostDone (sqPollExpiry f q) s
/-- SQ_FETCH. -/
def execSqFetch (f : FnIx) (q : Nat) (entries : List Fetched) (s : State) : Out := hostDone (sqFetch f q entries) s
/-- SQ_FETCH_FAILED. -/
def execSqFetchFailed (f : FnIx) (q : Nat) (s : State) : Out := hostDone (sqFetchFailed f q) s
/-- COMMAND_RECORD_CONSUMED. -/
def execCommandRecordConsumed (count : Nat) (s : State) : Out := hostDone (recordConsumed count) s
/-- CREATE_CQ. -/
def execCreateCq (n : Nat) (s : State) : Out := hostDone (qmRun n 1 createCq) s
/-- CREATE_SQ. -/
def execCreateSq (n : Nat) (s : State) : Out := hostDone (qmRun n 2 createSq) s
/-- DESTROY_SQ. -/
def execDestroySq (n : Nat) (headD : Bool) (s : State) : Out := hostDone (qmRun n 3 (destroySq headD)) s
/-- DESTROY_CQ. -/
def execDestroyCq (n : Nat) (s : State) : Out := hostDone (qmRun n 4 destroyCq) s
/-- THAW_QUEUE. -/
def execThawQueue (n : Nat) (entries : List (List Byte)) (s : State) : Out := hostDone (qmRun n 5 (thawQueue entries)) s
/-- ABORT. -/
def execAbort (n : Nat) (s : State) : Out := hostDone (qmRun n 6 abortCmd) s
/-- QUOTA. -/
def execQuota (n : Nat) (s : State) : Out := hostDone (qmRun n 7 quotaCmd) s
/-- COMPLETION_POST. -/
def execCompletionPost (n : Nat) (s : State) : Out := hostDone (completionPost n) s
/-- HQI_ABORT. -/
def execHqiAbort (n : Nat) (s : State) : Out := hostDone (hqiAbort n) s
/-- INTERRUPT_TIMER. -/
def execInterruptTimer (f : FnIx) (q : Nat) (s : State) : Out := hostDone (interruptTimer f q) s
/-- FLR. -/
def execFlr (f : FnIx) (s : State) : Out := hostDone (flr f) s
/-- BUS_MASTER_DISABLE. -/
def execBusMasterDisable (f : FnIx) (s : State) : Out := hostDone (functionReset f) s
/-- FUNCTION_DISABLE: FN_CTL.EN written from 1 to 0. -/
def execFunctionDisable (f : FnIx) (s : State) : Out := hostDone (functionDisable f) s
/-- VF_ENABLE_CLEAR. -/
def execVfEnableClear (s : State) : Out :=
  hostDone (resetFns (allFn.filter fun f => f.val != 0)) s
/-- HOT_RESET. -/
def execHotReset (s : State) : Out := hostDone resetAllFns s
/-- PCIE_LINK_DOWN. -/
def execPcieLinkDown (s : State) : Out := hostDone pcieDown s
/-- FUNCTION_RESET_DONE. -/
def execFunctionResetDone (f : FnIx) (s : State) : Out := hostDone (functionResetDone f) s
/-- HOST_DATA_ARRIVAL. -/
def execHostDataArrival (n : Nat) (ch : Fin 64) (bytes : List Byte) (tiles : List Nat) (s : State) : Out :=
  hostDone (hostData n ch bytes tiles) s
/-- HOST_DMA_READ_ERROR. -/
def execHostDmaReadError (n : Nat) (s : State) : Out := hostDone (hostDmaReadError n) s
/-- PCIE_LANE_FAIL. -/
def execPcieLaneFail (l : Fin 8) (s : State) : Out := hostDone (pcieLaneFail l) s

end Sys2Proof.Machine
end

