-- ==== Sys2Proof/Machine/Packs.lean ====
section
/-! DEFINITION. Packs as the controller moves them between power states (R423 to R426), unmounts, powers, removes and
seats them, and discards lost ranges (R319, R322 to R324, R493). A command that has to wait is issued again. -/

namespace Sys2Proof.Machine

/-- The admitted command of an opcode that names position p and has not ended. -/
def packCmd (s : State) (p : PosIx) (op : Nat) : Option Tag :=
  s.hqi.tags.find? fun t => t.op == op && t.posNamed == some p && t.aseq > 0 && !t.done && goesOn s t

/-- Admitted commands of position p other than tag n that have not ended. -/
def otherTags (s : State) (p : PosIx) (n : Nat) : List Tag := (packTags s p).filter fun t => t.num != n

/-- Leaving Off (R424, R425): link training and the spindle start together; a failed drive is cleared first (R504). DEDUCED: log 63. -/
def wakeSpin (p : PosIx) (s : State) : State :=
  let s := s.updPack p fun k => { k with goOff := false, goPark := false }
  let s := if lnkState s p == lnkActive || lnkState s p == lnkTraining then s else linkTrain p (linkEnable p true s)
  let s := if spnState s p == spnFault then spnClear p s else s
  let st := spnState s p
  if (st == spnOff && !s.pos[p].spn.waitSlot) || st == spnCoast || st == spnStopping then spnStart p s else s

/-- Spinning-idle is reached: the link is ACTIVE and the spindle locked. -/
def spinning (s : State) (p : PosIx) : Bool := lnkState s p == lnkActive && s.bit (R.spnStatLock p)

/-- The focus loops of all eight surfaces are closed. -/
def focused (s : State) (p : PosIx) : Bool := allSurfs.all fun f => (s.loopAt p (focusOf f)).mode == loopClosed

/-- Tracking-idle is reached as far as a mount needs it (R320, R423). -/
def tracking (s : State) (p : PosIx) : Bool :=
  spinning s p && s.bit (R.carStatPvalid p) && carState s p == carHold && focused s p

/-- Focus acquisition on the surfaces whose focus is not closed (Table 5.4, kind 0). -/
def acquireFocus (p : PosIx) (s : State) : State :=
  let open_ := allSurfs.filter fun f => (s.loopAt p (focusOf f)).mode != loopClosed && !s.bit (R.jmpStatBusy p f) &&
    !(s.surfAt p f).goNext
  let s := open_.foldl (fun s f => s.wr (R.jmpCtrlKind p f) 0) s
  srvJmpgo p (open_.foldl (fun (m : Nat) (f : Fin 8) => setBit m f.val) 0) s

/-- From Spinning-idle to Tracking-idle (R423, Table 15.8): carriage, servo, focus on all eight surfaces. DEDUCED: log 63. -/
def wakeTrack (p : PosIx) (s : State) : State :=
  let s := if carState s p == carFault then carClearCmd p s else s
  let s := if carState s p == carOff then carEnable p s else s
  let s := if carState s p == carHold && !s.bit (R.carStatPvalid p) then carHome p s
    else if carState s p == carParked then seekTo p (s.rdI (R.carPosPos p)) false s else s
  let s := if s.bit (R.srvCtrlEn p) then s else srvEnable p true s
  if s.pos[p].srv.running && carState s p == carHold && s.bit (R.carStatPvalid p) then acquireFocus p s else s

/-- A command that needs the pack wakes it by itself (R323, R423): whatever the drives allow next is commanded. DEDUCED: log 63. -/
def wake (p : PosIx) (s : State) : State :=
  if tracking s p then s.updPack p fun k => { k with power := max 2 k.power, goPark := false }
  else if !s.bit (R.posCfgEn p) || !fwUp s then s
  else
    let s := wakeSpin p s
    if spinning s p then wakeTrack p s else s

/-- Every loop goes to OFF, where its sequencer lets it. -/
def loopsOff (p : PosIx) (s : State) : State :=
  s.forEach allLoops fun l s => if s.rd (R.loopCtrlMode p l) = loopOff then s else loopModeWrite p l loopOff s

/-- No focus loop of the position is closed or held: PARK may be issued (R211). -/
def focusOpen (s : State) (p : PosIx) : Bool :=
  allSurfs.all fun f => [loopOff, loopOpen, loopFail].contains (s.loopAt p (focusOf f)).mode

/-- The way of a pack to Spinning-idle (R211, Table 15.7): the loops go to OFF; a carriage in motion stops, then parks once no
focus loop is closed; without a valid position it goes OFF. Spinning-idle is reached at PARKED or OFF. DEDUCED: log 63. -/
def parkStep (p : PosIx) (s : State) : State :=
  if !s.packs[p].goPark then s else
  let s := loopsOff p s
  let st := carState s p
  if st == carParked || st == carOff then
    s.updPack p fun k => { k with goPark := false, power := min 1 k.power }
  else if st == carHoming || st == carGeared || (st == carDirect && !carDone s p) ||
      (st == carSeek && !s.pos[p].car.parking) then carStopCmd p s
  else if !carDone s p || !focusOpen s p then s
  else if s.bit (R.carStatPvalid p) then carParkCmd p s else carOffCmd p s

/-- Spinning-idle is asked for. -/
def packPark (p : PosIx) (s : State) : State := parkStep p (s.updPack p fun k => { k with goPark := true })

/-- Off (R322, R424): STOP_REGEN, and the link stops once the spindle is OFF. -/
def packStop (p : PosIx) (s : State) : State :=
  let s := s.updPack p fun k => { k with goOff := true }
  if spnState s p == spnOff then
    (if s.pos[p].spn.waitSlot then packOff p (spnStop p false s) else packOff p s)
  else if spnState s p == spnFault then spnClear p s
  else if spnStoppable (spnState s p) then spnStop p false s
  else s

/-- A pack leaving the Streaming state flushes its ledger first (R93, R423). -/
def flushLedger (p : PosIx) (s : State) : State :=
  s.updPack p fun k => { k with flushDue := k.flushDue || !k.lq.isEmpty }
def flushed (k : PackState) : Bool := k.lq.isEmpty && k.lpour.isNone

/-- Whether the pour of a position has ranks or segments left before it (R13, R70): ranks that pour or await their verdict, ranks
assembled while the stream goes on, a ledger pour not yet verified. -/
def pourGoesOn (k : PackState) : Bool :=
  k.lpour.isSome || (k.casts.map (·.ranks)).flatten.any fun r =>
    r.phase == .pouring || r.phase == .awaiting || (r.phase == .assembled && k.stream.isSome)

/-- Whether a stripe operation runs (R13): one of its engines is busy or has a verdict to give, or its pour is between ranks. One
that does not run has had its last rank. -/
def stripeRuns (s : State) (x : Stripe) : Bool :=
  (x.engines.any fun e => s.bit (R.castStatBusy e) || s.bit (R.rdStatBusy e) || s.eng[e].gate || !s.eng[e].poured.isEmpty) ||
    (x.pour && pourGoesOn s.packs[x.p])
/-- Whether a stripe operation of position p runs. -/
def streaming (s : State) (p : PosIx) : Bool := s.stripes.any fun x => x.p == p && stripeRuns s x

/-- The pack changes its power state. DEDUCED: log 63. -/
def setPower (p : PosIx) (v : Nat) (s : State) : State := s.updPack p fun k => { k with power := v }

/-- 100 ms without a stripe operation run or waiting (R423, R424). -/
def streamingIdle (p : PosIx) (s : State) : State :=
  let k := s.packs[p]
  if k.power != 3 || streaming s p then s
  else if flushed k then setPower p 2 (endStripes p s) else flushLedger p s

/-- IDLE_PARK after the entry into Tracking-idle (R423): Spinning-idle once the carriage is PARKED or OFF (R211). -/
def idlePark (p : PosIx) (s : State) : State :=
  let k := s.packs[p]
  if k.power != 2 || k.goPark || k.floor > 1 || s.policyOf 0x40 p = 0 then s else packPark p s

/-- IDLE_SPINDOWN after the entry into Spinning-idle (R423). -/
def idleSpindown (p : PosIx) (s : State) : State :=
  let k := s.packs[p]
  if k.power != 1 || k.floor > 0 || s.policyOf 0x41 p = 0 || k.goOff then s else packStop p s

/-- Lists of cause 1 become cause 2 when their tiles are released at unmount (R322). -/
def causesToTwo (p : PosIx) (s : State) : State :=
  if s.packs[p].uncast.any fun u => u.cause == 1 then
    packPageChange 2 p (s.updPack p fun k =>
      { k with uncast := k.uncast.map fun u => if u.cause == 1 then { u with cause := 2 } else u })
  else s

/-- Every journal entry of a pack is discarded. -/
def dropJournal (tag : Nat) (s : State) : State :=
  { s with journal := { s.journal with entries := s.journal.entries.filter fun e => e.tag != tag,
                                       pend := s.journal.pend.filter fun e => e.tag != tag } }

/-- A running obliteration stops with its progress journalled (R322). -/
def pauseBurn (p : PosIx) (s : State) : State :=
  let k := s.packs[p]
  if k.san then (jappend p (.sanitiseStep k.sanMode k.sanState k.sanLayer k.sanNext) s).updPack p fun k => { k with san := false }
  else s

/-- Casts that have neither failed nor been recorded in a verified pour. -/
def castsLeft (k : PackState) : Bool := k.casts.any fun c => c.failed.isNone && !(c.verified && c.closed)

/-- UNMOUNT (R322): one call for each of its steps that is due. -/
def unmount (p : PosIx) (s : State) : State :=
  match packCmd s p 0x11 with
  | none => s
  | some t =>
    let k := s.packs[p]
    if k.status != .unmounting || k.goOff || !fwUp s then s
    else if !(otherTags s p t.num).isEmpty then s
    else
      let s := pauseBurn p s
      let s := if k.roMount then s else padTo p castCw s
      let k := s.packs[p]
      if !k.roMount && (castsLeft k || !flushed k) then wake p (flushLedger p s)
      else
        let s := keySet p none (releaseTiles p (causesToTwo p (endStripes p s)))
        let s := if k.roMount then s else dropJournal k.tag s
        packStop p (packPark p s)

/-- PACK_POWER (R323): one call for each of its steps that is due. -/
def packPower (p : PosIx) (s : State) : State :=
  match packCmd s p 0x12 with
  | none => s
  | some t =>
    let k := s.packs[p]
    let target := t.csp 34 1
    if !fwUp s then s
    else if t.csp 33 1 = 2 then finish t.num 0 0 0 (s.updPack p fun k => { k with floor := target })
    else if !(otherTags s p t.num).isEmpty || streaming s p then s
    else if k.power = 3 && !flushed k then flushLedger p s
    else if k.power ≤ target && !k.goPark then finish t.num 0 0 0 s
    else if target = 2 then finish t.num 0 0 0 (setPower p 2 s)
    else
      let s := if k.power ≥ 2 && !k.goPark then packPark p s else s
      if target = 0 && !k.goOff then packStop p s else s

/-- DISCARD_RANGE (R319): the entry goes, and a cause 1 entry's cast with its tiles. -/
def discardRange (p : PosIx) (s : State) : State :=
  match packCmd s p 0x15 with
  | none => s
  | some t =>
    if !fwUp s then s else
    match s.packs[p].uncast.find? fun u => u.addr == t.csp 32 8 && u.len == t.csp 40 8 with
    | none => finish t.num 1 0x0212 0 s
    | some u =>
      let s := s.updPack p fun k => { k with uncast := k.uncast.erase u }
      let s := if u.cause = 1 then dropFailed (u.addr % 2 ^ 45 / castBytes) s else s
      let s := liftReadOnly p 0x0413 s
      finish t.num 0 0 0 s
where
  /-- A failed cast's tiles are released and the cast is forgotten (R318). -/
  dropFailed (m : Nat) (s : State) : State :=
    let tiles := ((castOf s p m).map fun c => c.ranks.flatMap fun r => r.tiles.map (·.2)).getD []
    (tiles.foldl (fun s t => freeTile t s) s).updPack p fun k =>
      { k with casts := k.casts.filter fun c => !(c.m == m && c.failed.isSome) }

/-- Snuff without a source of Table 3.5: the latch sets, every write gate drops. -/
def snuffLatch (p : PosIx) (s : State) : State := dropGates p (s.set1 (R.srvSnuffLatch p))

/-- PACK_SENSE_Np deasserts (R324, R493). -/
def packRemoved (p : PosIx) (s : State) : State :=
  let s := s.clr1 (R.posCfgPack p)
  let s := { s with pins := { s.pins with sense := clrBit s.pins.sense p } }
  if s.packs[p].status == .none then s else
  let s := snuffLatch p s
  let s := s.updSpn p fun n => { n with coastNext := spnState s p != spnOff && spnState s p != spnFault, waitSlot := false }
  let s := if carState s p == carFault then s else s.updCar p fun c => { c with offNext := true }
  let s := (packTags s p).foldl (fun s t => finish t.num 2 0x040D (workResult t) s) s
  let s := keySet p none (releaseTiles p (listUncast p 5 0x040D (endStripes p s)))
  packPageChange 4 p (packGone p s)

/-- PACK_SENSE_Np has been asserted for 5 ms (R493). -/
def packSeated (p : PosIx) (s : State) : State :=
  let s := s.set1 (R.posCfgPack p)
  packPageChange 4 p { s with pins := { s.pins with sense := setBit s.pins.sense p } }

/-- A command of a pack, between the admission of what waits and the host's view of it. -/
def packRow (p : PosIx) (f : State → State) (s : State) : Out := atPos p (fun s => showHost (f (admitAll s))) s

/-- UNMOUNT. -/
def execUnmount (p : PosIx) (s : State) : Out := packRow p (unmount p) s
/-- PACK_POWER. -/
def execPackPower (p : PosIx) (s : State) : Out := packRow p (packPower p) s
/-- DISCARD_RANGE. -/
def execDiscardRange (p : PosIx) (s : State) : Out := packRow p (discardRange p) s
/-- PACK_REMOVED. -/
def execPackRemoved (p : PosIx) (s : State) : Out := atPos p (fun s => showHost (packRemoved p s)) s
/-- PACK_SEATED. -/
def execPackSeated (p : PosIx) (s : State) : Out := atPos p (packSeated p) s
/-- STREAMING_IDLE_EXPIRY. -/
def execStreamingIdleExpiry (p : PosIx) (s : State) : Out := atPos p (streamingIdle p) s
/-- IDLE_PARK_EXPIRY. -/
def execIdleParkExpiry (p : PosIx) (s : State) : Out := atPos p (idlePark p) s
/-- IDLE_SPINDOWN_EXPIRY. -/
def execIdleSpindownExpiry (p : PosIx) (s : State) : Out := atPos p (idleSpindown p) s

end Sys2Proof.Machine
end

