-- ==== Sys2Proof/Machine/Mount.lean ====
section
/-! DEFINITION. MOUNT (R320): the pack comes up, its card, ledger and key are read, FORMAT and obliteration resume, and
the journal is reconciled (R97, R98). -/

namespace Sys2Proof.Machine

/-- A pack's journal entries, committed and appended, in the order of JSEQ. -/
def entriesOf (s : State) (tag : Nat) : List JEntry := (s.journal.entries ++ s.journal.pend).filter fun e => e.tag == tag

/-- The SEQ of the last LEDGER_FLUSHED; none for all ones, and where there is none. -/
def lastFlushed (es : List JEntry) : Option Nat :=
  es.foldl (fun a e => match e.body with | .ledgerFlushed q => q | _ => a) none

/-- The slot, re-pour count, reason and slot before of a rank's RANK_CAST entry. -/
def rankCastOf (es : List JEntry) (n : Nat) : Option (Nat × Nat × Nat × Nat) :=
  es.foldl (fun a e => match e.body with
    | .rankCast m _ repour reason slot prev _ => if m == n then some (slot, repour, reason, prev) else a
    | _ => a) none

/-- Bytes of cast m that an ASSIGN entry names and that lie in no rank with a RANK_CAST entry, merged (R92). -/
def assignedLost (es : List JEntry) (m : Nat) : List (Nat × Nat) :=
  unionRuns (es.flatMap fun e => match e.body with
    | .assign c addr len _ =>
      if c != m then [] else
      ((ranksOf addr len).filter fun n => (rankCastOf es n).isNone).map fun n =>
        let lo := max addr (n * rankBytes)
        (lo, min (addr + len) ((n + 1) * rankBytes) - lo)
    | _ => [])

/-- Those ranges enter log page 0x02 with cause 4, none twice. -/
def listLost (p : PosIx) (es : List JEntry) (m : Nat) (s : State) : State :=
  (assignedLost es m).foldl (fun s r =>
    if s.packs[p].uncast.any fun u => u.addr == p.val * 2 ^ 45 + r.1 && u.len == r.2 then s
    else uncastAdd p r.1 r.2 4 0 s) s

/-- Casts with a CAST_OPEN entry, in the order of JSEQ, with its TIME. -/
def opensOf (es : List JEntry) : List (Nat × Nat) :=
  es.filterMap fun e => match e.body with | .castOpen m _ _ => some (m, e.time) | _ => none

/-- A rank as reconciliation finds it (R98): cast, or a padding rank for its home slot, or for the riser with reason 3. -/
def mountRank (k : PackState) (es : List JEntry) (n : Nat) : Rank :=
  let r := { rankFresh n with assigned := rankCw }
  match rankCastOf es n with
  | some (slot, repour, reason, prev) => { r with phase := .cast, slot := slot, repour := repour, reason := reason, prev := prev }
  | none =>
    let r := { r with pads := maskOf 0 rankCw }
    if k.dead.contains (rankLayer n, homeSlot n) then { r with phase := .failed, reason := 3 } else { r with phase := .ready }

/-- One cast of the journal reconciled (R98). DEDUCED: log 61. -/
def reconcileCast (p : PosIx) (es : List JEntry) (x : Nat × Nat) (s : State) : State :=
  let (m, time) := x
  let rec_ := s.packs[p].ledger.reverse.findSome? fun r => match r.body with
    | .cast c _ _ _ _ => if c == m then some r.seq else none
    | _ => none
  match rec_ with
  | some q => jappend p (.castClosed m q) s
  | none =>
    if es.any (fun e => match e.body with | .castFailed c _ => c == m | _ => false) then
      s.updPack p fun k => { k with barred := k.barred ++ [m] }
    else
      let ranks := (List.range 128).map fun i => mountRank s.packs[p] es (128 * m + i)
      let c : Cast := { m := m, ranks := ranks, filled := true, opened := time, first := some time, failed := none,
                        digest := none, recSeq := none, verified := false, closed := false, visit := false }
      let s := s.updPack p fun k => { k with casts := k.casts ++ [c] }
      let done_ := es.findSome? fun e => match e.body with | .castDone c _ d => if c == m then some d else none | _ => none
      match done_ with
      | none => castDone p m (listLost p es m s)
      | some d =>
        let moved := ranks.filter fun r => r.repour > 0
        let s := (moved.filter fun r => !hasRelocation s.packs[p] r.n r.slot).foldl (fun s r =>
          queueRec p (.relocation r.n (rankLayer r.n) r.reason r.prev r.slot) s) s
        let q := s.packs[p].seqNext
        updCast p m (fun c => { c with digest := some d, recSeq := some q })
          (queueRec p (.cast m (castLayer m) moved.length d time) s)

/-- A read-only mount (R97): cause 4 ranges are listed, ranks with a RANK_CAST entry are read where it says. -/
def keepJournal (p : PosIx) (es : List JEntry) (s : State) : State :=
  let s := (opensOf es).foldl (fun s x => listLost p es x.1 s) s
  let note := fun (l : List (Nat × Nat)) (e : JEntry) => match e.body with
    | .rankCast n _ repour _ slot _ _ => if repour > 0 then Assoc.put n slot l else l
    | _ => l
  s.updPack p fun k => { k with moved := es.foldl note k.moved }

/-- Home slots found written that neither a CAST record nor the journal accounts for are dead, as are abandoned slots;
riser slots found written are consumed (R31, R48, R50). -/
def noteWritten (p : PosIx) (es : List JEntry) (written : List (Nat × Nat)) (s : State) : State :=
  let s := es.foldl (fun s e => match e.body with
    | .pourAbandoned _ layer _ slot => deadSlot p layer slot s
    | _ => s) s
  written.foldl (fun s w =>
    let (layer, f) := w
    if riserBase layer ≤ f && f < riserBase layer + riserSlots then
      s.updPack p fun k => { k with riser := Assoc.put layer (max (f + 1 - riserBase layer) ((Assoc.get layer k.riser).getD 0)) k.riser }
    else if homeBase layer ≤ f && f < homeBase layer + layerRanks then
      let n := layer * layerRanks + (f - homeBase layer)
      if s.packs[p].recorded.contains (n / 128) || ((rankCastOf es n).map (·.1)) == some f then s else deadSlot p layer f s
    else s) s

/-- Where an unfinished obliteration goes on: the greater of the ledger's and the journal's slot (R330). -/
def resumeBurn (p : PosIx) (es : List JEntry) (s : State) : State :=
  s.updPack p fun k => if !k.san || k.roMount then { k with san := false } else
    let at_ := es.foldl (fun (a : Nat × Nat) e => match e.body with
      | .sanitiseStep _ _ layer next => if (a.1 * 2 ^ 32 + a.2) < layer * 2 ^ 32 + next then (layer, next) else a
      | _ => a) (k.sanLayer, k.sanNext)
    { k with sanLayer := at_.1, sanNext := at_.2 }

/-- A blank pack whose FORMAT had begun restarts at step 0 with its UUID and escrow identifier (R327). -/
def resumeFormat (p : PosIx) (s : State) : State :=
  let k := s.packs[p]
  let old := (s.journal.entries ++ s.journal.pend).reverse.findSome? fun e => match e.body with
    | .formatStep 0 _ card uuid escrow => if card == k.cardCrc then some (uuid, escrow) else none
    | _ => none
  match old with
  | some (uuid, escrow) => s.updPack p fun k => { k with uuid := uuid, tag := uuid % 2 ^ 64, fmt := some (0, 0, escrow) }
  | none => s

/-- The highest SEQ on the pack: below those of records still queued. -/
def onPack (k : PackState) : Option Nat :=
  let q := k.lq.length + ((k.lpour.map (·.recs.length)).getD 0)
  if k.seqNext ≤ q then none else some (k.seqNext - q - 1)

/-- The journal at mount (R97, R330): stale entries are discarded, a read-only mount keeps them, else every cast in them
is reconciled. DEDUCED: log 61. -/
def mountJournal (p : PosIx) (written : List (Nat × Nat)) (s : State) : State :=
  let k := s.packs[p]
  if k.blank then (if k.roMount then s else resumeFormat p s) else
  let es := entriesOf s k.tag
  let stale := !es.isEmpty && lastFlushed es != onPack k
  let s := resumeBurn p (if stale then [] else es) s
  if k.keyGone then noteWritten p [] written (dropJournal k.tag s)
  else if k.roMount then keepJournal p es (noteWritten p es written s)
  else if stale then noteWritten p [] written ((dropJournal k.tag s).log 0x0416 srcNone p 0 0)
  else
    let s := noteWritten p es written s
    if es.isEmpty then s else
    ((opensOf es).foldl (fun s x => reconcileCast p es x s) s).updPack p fun k => { k with flushDue := true }

/-- MOUNT is refused after the pack was brought up: parked, stopped, not mounted (R320, R456). -/
def mountRefuse (p : PosIx) (n reason : Nat) (s : State) : State :=
  let s := finish n 1 reason 0 (keySet p none s)
  packStop p (packPark p (s.updPack p fun k => { k with status := .none, owner := none, tag := 0 }))

/-- The pack key (R456, R457): none for a blank pack, one whose key is destroyed, or one whose FORMAT has not reached
its key. DEDUCED: log 97. -/
def mountKey (p : PosIx) (s : State) : Option Nat × State :=
  let k := s.packs[p]
  let early := match k.fmt with | some (st, _, _) => st < 2 | none => false
  if k.blank || k.keyGone || (early && !k.ledger.any fun r => r.body.type == 3) then (none, s) else
  match keyCandidate s k.ledger with
  | none => (some (if debugOpen s then 0x0C06 else 0x0C02), s)
  | some r =>
    match keyUnwrapOp p (keyBody r.body) s with
    | (.error e, s) => (some e, s)
    | (.ok (_, b), s) => (none, if b.isEmpty then s else queueRec p (keyRecord b) s)

/-- What the ledger and the card say of the pack (R50 to R57, R238, R318). DEDUCED: log 61. -/
def mountLedger (p : PosIx) (img : PackImage) (s : State) : State :=
  let l := readLedger img.segs
  let k0 := { s.packs[p] with
    ledger := l.recs, seg := img.segs.length, seqNext := ((maxSeq l).map (· + 1)).getD 0, blank := l.seqs.isEmpty, seen := 0 }
  let k := l.recs.foldl applyRec k0
  let dead := destroyedSeqs l.recs
  let uncast := ((Assoc.get k.tag s.lists).getD []).map fun u => { u with addr := p.val * 2 ^ 45 + u.addr % 2 ^ 45 }
  let fault := ledgerFault l
  let nearly := ledgerSegs - k.seg < ledgerReserve
  let causes := (List.zip [fault, k.roReason != 0, keysDestroyed l.recs, !cardCrcOk img.card, nearly, uncast.length ≥ 4096]
    [0x040C, k.roReason, 0x040E, 0x0804, 0x0412, 0x0413]).filterMap (fun x => if x.1 then some x.2 else none) |>.eraseDups
  let told := k.roReason = 0x0412
  let k := { k with
    cardCrc := leAt img.card 1432 4, keyGone := keysDestroyed l.recs, uncast := uncast, roCauses := causes,
    roReason := causes.head?.getD 0, cards := if cardCrcOk img.card then [(0, slice img.card 0 1436)] else [],
    roMount := k.roMount || fault, ledger := l.recs.filter fun r => !(r.body.type == 3 && dead.contains r.seq) }
  let s := s.updPack p fun _ => k
  let s := if nearly && !told && !k.roMount then queueRec p (.packState 3 k.uncal 0x0412) s else s
  if fault then s.log 0x040C srcNone p 0 0 else s

/-- The pack is read (steps 4 to 8 of R320). DEDUCED: log 61. -/
def readPack (p : PosIx) (n : Nat) (img : PackImage) (s : State) : State :=
  if cardCrcOk img.card && !cardFits img.card then mountRefuse p n 0x0403 s else
  let s := mountLedger p img s
  match mountKey p s with
  | (some r, s) => mountRefuse p n r s
  | (none, s) => (mountJournal p img.written s).updPack p fun k => { k with recon := true }

/-- Reconciliation has ended: every cast is recorded or failed, and the ledger is flushed (R98). -/
def reconciled (k : PackState) : Bool := !castsLeft k && (!k.flushDue || flushed k)

/-- MOUNT ends (R97, R320): LEDGER_FLUSHED opens the pack's journal, except on a read-only mount. DEDUCED: log 60. -/
def mountDone (p : PosIx) (n : Nat) (s : State) : State :=
  let k := s.packs[p]
  let s := if k.roMount then s else jappend p (.ledgerFlushed (onPack k)) s
  let s := s.updPack p fun k => { k with
    status := .mounted, owner := none, recon := false, power := 2,
    casts := k.casts.filter fun c => !(c.closed && c.verified && c.ranks.all fun r => r.tiles.isEmpty) }
  finish n 0 0 (if k.blank then 0 else k.tag) (packPageChange 4 p s)

/-- The controller's first step (R320). DEDUCED: log 60. -/
def mountBegin (p : PosIx) (t : Tag) (s : State) : State :=
  if s.packs[p].status != .none then finish t.num 1 0x0410 0 s
  else if !s.bit (R.posCfgPack p) then finish t.num 1 0x0401 0 s
  else if !s.bit (R.posCfgEn p) then finish t.num 1 0x0404 0 s
  else wake p (s.updPack p fun k => { PackState.reset with
    status := .mounting, owner := some t.num, roMount := bitAt (t.csp 33 1) 0, temp := k.temp, hot := k.hot })

/-- MOUNT: one call for each of its steps that is due. DEDUCED: log 60. -/
def mount (n : Nat) (img : PackImage) (s : State) : State :=
  match cmdAt s n 0x10 with
  | none => s
  | some t =>
    match t.posNamed with
    | none => s
    | some p =>
      let k := s.packs[p]
      if k.owner != some n then mountBegin p t s
      else if k.recon then (if reconciled k then mountDone p n s else wake p s)
      else if tracking s p then readPack p n img s
      else wake p s

/-- MOUNT. -/
def execMount (n : Nat) (img : PackImage) (s : State) : Out := hostDone (fun s => mount n img (admitAll s)) s

end Sys2Proof.Machine
end

