-- ==== Sys2Proof/Machine/Transmit.lean ====
section
/-! DEFINITION. The transmitter of a link (R245 to R247): what the lanes send in each block time of a tick. -/

namespace Sys2Proof.Machine

/-- The slot whose grid instant lies in the block time before boundary b, if any: 30 ns + n × 100 ns after the tick boundary, in 1/7 ns
(R247); a block time is 33/7 ns. -/
def slotDue (b : Nat) : Option Nat := (List.range 8).find? fun n => 210 + 700 * n ≤ b && b < 210 + 700 * n + 33

/-- The blocks that the logical stream deals to n lanes in one block time (R245, R246): a control-channel block in one position of 64
and never inside a packet, else the packet under way or the next, else an idle block. -/
def dealt : Nat → TxState → List TxBlock × TxState
  | 0, t => ([], t)
  | n + 1, t =>
    let u := { t with since := min 64 (t.since + 1) }
    let (b, u) : TxBlock × TxState :=
      if t.left > 0 then (.packet, { u with left := t.left - 1 })
      else match t.ctrl with
        | q :: rest => if t.since ≥ 63 then (.creq q, { u with ctrl := rest, since := 0 })
                       else if t.packets > 0 then (.packet, { u with left := 18, packets := t.packets - 1 }) else (.idle, u)
        | [] => if t.packets > 0 then (.packet, { u with left := 18, packets := t.packets - 1 }) else (.idle, u)
    let (l, u) := dealt n u
    (b :: l, u)

/-- What the n active lanes send in the block time that begins at boundary b (R246): SNUFF, then a due servo or status block, then
ALIGN, then the logical stream. Slot 6 is the data slot of two block times; SNUFF_CLR takes the next status slot's block time (R255).
A slot that SNUFF keeps from its boundary starts at the next. DEDUCED: log 106. -/
def sendBlock (n b : Nat) (late : Option Nat) (t : TxState) : List TxBlock × Option Nat × TxState :=
  let due := slotDue b <|> late
  if t.snuff then (List.replicate n .snuff, due, { t with snuff := false })
  else if t.second then (List.replicate n (.servo true), due, { t with second := false })
  else match due with
    | some 6 => (List.replicate n (.servo false), none, { t with second := true })
    | some k =>
      if t.clr then (List.replicate n .snuffClr, none, { t with clr := false })
      else (List.replicate n (.status k (min 131 (4 * (b - (210 + 700 * k))))), none, t)
    | none =>
      if t.align then (List.replicate n .align, none, { t with align := false })
      else
        let (l, t) := dealt n t
        (l, none, t)

/-- Blocks scrambled since the last ALIGN block, after a block time: ALIGN seeds the scramblers, which do not advance over a SNUFF block
(R244). -/
def scrambledAfter (l : List TxBlock) (n : Nat) : Nat :=
  match l with
  | .align :: _ => 0
  | .snuff :: _ => n
  | _ => n + 1

/-- One bit of the scrambler x³¹ + x²⁸ + 1 of a lane (R244): the bit it gives, and its next state. -/
def laneScr (x : Nat) : Nat × Nat :=
  let b := (bitsOf x 30 1 + bitsOf x 27 1) % 2
  (b, (2 * x + b) % 2 ^ 31)

/-- The scrambler of lane l after n blocks of 128 bits. -/
def laneScrAt (l n : Nat) : Nat := (List.range (128 * n)).foldl (fun x _ => (laneScr x).2) (0x12345670 + l)

/-- The payload of a lane's block as it goes out (R243, R244): the 128 bits, first bit first, XORed with the scrambler; a TRAIN, ALIGN or
SNUFF block goes out as it is. -/
def scramblePayload (l n : Nat) (bits : List Nat) : List Nat :=
  (bits.foldl (fun (a : List Nat × Nat) b => let (r, x) := laneScr a.2; (a.1 ++ [(b + r) % 2], x)) ([], laneScrAt l n)).1

/-- The block times of one tick from boundary b on, 5,600/7 ns: the boundary that the next tick begins with comes last. -/
def sendBlocks (n : Nat) : Nat → Nat → Option Nat → TxState → TxState
  | 0, b, _, t => { t with phase := b - 5600 }
  | fuel + 1, b, late, t =>
    if b ≥ 5600 then { t with phase := b - 5600 } else
    let (l, late, t) := sendBlock n b late t
    sendBlocks n fuel (b + 33) late { t with line := t.line ++ [l], scrambled := scrambledAfter l t.scrambled }

/-- One tick of the transmitter of position p (R246): an inactive link sends nothing of it, and keeps nothing to send but the latch's state. -/
def txTick (p : PosIx) (s : State) : State :=
  let n := ((List.range 4).filter fun l => bitAt (s.rd (R.iglStatLanes p)) l).length
  s.updTx p fun t =>
    if s.rd (R.iglStatState p) != 2 then { TxState.reset with latched := t.latched }
    else sendBlocks n 180 t.phase none { t with line := [] }

end Sys2Proof.Machine
end

