-- ==== Sys2Proof/Machine/FaultTime.lean ====
section
/-! DEFINITION. FLT and TIME (chapter 18): the event ring, the time base, PPS, supplies, shock, snuff clear, and the
common servo tick that drives them (R142). -/

namespace Sys2Proof.Machine

/-- An event record as it stands in the ring (Table 18.2). -/
def EventRec.bytes (r : EventRec) : List Byte :=
  let b := leBytes 8 r.seq ++ leBytes 8 r.time ++ leBytes 2 r.reason ++ leBytes 1 r.source ++ leBytes 1 r.pos ++
    leBytes 1 r.flags ++ leBytes 3 0 ++ leBytes 8 r.addr ++ leBytes 16 r.detail ++ leBytes 12 0
  b ++ leBytes 4 (crc32c b)

/-- The event log ring: the last 1 MiB of the Ember store, 16,384 records (R476). -/
def ringBase : Nat := emberBase + 0xF00000
def ringSize : Nat := 16384

/-- The oldest pending record reaches the MRAM (R476); overwriting a record sets WRAP. -/
def fltStore (r : EventRec) (s : State) : State :=
  let n := s.flt.written
  let s := s.emberWrite (ringBase + 64 * (n % ringSize)) r.bytes
  let s := pageChange 0 7 0 { s with flt := { s.flt with written := n + 1 } }
  if n ≥ ringSize then s.set1 R.fltStatWrap else s

/-- Every pending record reaches the MRAM. -/
def fltDrain (s : State) : State :=
  let l := s.flt.pend
  l.foldl (fun s r => fltStore r s) { s with flt := { s.flt with pend := [] } }

/-- TIME counts on by n cycles of 4 ns with the trim in force, after any hold (R478, R480). -/
def timeAdvance (n : Nat) (s : State) : State :=
  let acc := (s.tim.frac : Int) + 4 * n * (2 ^ 32 + s.rdI R.timeTrimTrim)
  let adv := (acc / 2 ^ 32).toNat
  let used := min s.tim.hold adv
  let s := { s with tim := { s.tim with frac := (acc % 2 ^ 32).toNat, hold := s.tim.hold - used,
                                        local_ := s.tim.local_ + 4 * n } }
  s.tickUp R.timeNowNs (adv - used)

/-- Which lanes gave a wrong result for loop l of position p at this tick. DEDUCED: log 81. -/
def wrongLanes (faults : List LaneFault) (p : PosIx) (l : Nat) : Bool × Bool × Bool :=
  match faults.find? fun f => f.p == p && f.l.val == l with
  | some f => (f.a, f.b, f.s)
  | none => (false, false, false)

/-- The boundary of tick k on every position (R142), then SRV_TICK. DEDUCED: log 79. -/
def gridTick (faults : List LaneFault) (s : State) : State :=
  let k := s.rd (R.srvTickTick 0)
  let on := allPos.filter (posOffered s)
  let s := s.forEach on fun p s => txTick p (angleTick p (tickPos p k (wrongLanes faults p) s))
  s.forEach on fun p s => s.wr (R.srvTickTick p) (k + 1)

/-- SRV_SNUFF.CLR (R167): only while no source is asserted; SNUFF_CLR goes to the PF8 (R255). -/
def snuffClear (p : PosIx) (s : State) : State :=
  if s.rd (R.srvSnuffLive p) != 0 then s else
  let s := (s.clr1 (R.srvSnuffLatch p)).wr (R.srvSnuffSeen p) 0
  if s.rd (R.iglStatState p) == 2 then
    (s.updTx p fun t => { t with clr := true }).updPf8 p fun f => { f with ignoreWick := false }
  else s

/-- SHOCK_Np past its glitch filter (R82, R83), and high again. -/
def shockFall (p : PosIx) (s : State) : State :=
  raiseSnuff p 2 { s with pins := { s.pins with shock := setBit s.pins.shock p } }
def shockRelease (p : PosIx) (s : State) : State :=
  releaseSnuff p 2 { s with pins := { s.pins with shock := clrBit s.pins.shock p } }

/-- Every offered position. -/
def eachPos (f : PosIx → State → State) (s : State) : State := s.forEach (allPos.filter (posOffered s)) f

/-- A monitor out of range (R475): FLT_VMON, the supply source on every position, reason 0x0F02. -/
def supplyOut (n : Fin 7) (s : State) : State :=
  (eachPos (fun p s => raiseSnuff p 7 s) (s.setBitOf R.fltVmonOut n)).log 0x0F02 srcNone noPos 0 n

/-- A monitor back in range: the source releases with the last cause. -/
def supplyIn (n : Fin 7) (s : State) : State :=
  let s := s.clrBitOf R.fltVmonOut n
  if s.rd R.fltVmonOut == 0 && !s.pins.pwrFail then eachPos (fun p s => releaseSnuff p 7 s) s else s

/-- The count put on a whole second (R480): the signed correction, applied forward at once or by holding. DEDUCED: log 84. -/
def ppsCorrect (r : Nat) (s : State) : State :=
  if r ≥ 500000000 then s.tickUp R.timeNowNs (1000000000 - r)
  else { s with tim := { s.tim with hold := s.tim.hold + r } }

/-- One TRIM update after AVG edges (R481), held within 200 ppm; how the quotient rounds is left open. DEDUCED: log 84. -/
def trimUpdate (s : State) : State :=
  let n := s.tim.avgCount
  if n < max 1 (s.rd R.timePpscfgAvg) then s else
  let d := openRound 0x51 (s.tim.avgSum * 2 ^ 32) (n * 1000000000)
  { (s.wrI R.timeTrimTrim (clampI (-858993) 858993 (s.rdI R.timeTrimTrim + d))) with
    tim := { s.tim with avgCount := 0, avgSum := 0 } }

/-- An accepted edge (R480, R481). DEDUCED: log 84. -/
def ppsAccept (now r at_ : Nat) (s : State) : State :=
  let s := (s.wr R.timePpscapNs now).clr1 R.timeStatHoldover
  let s := { s with tim := { s.tim with lastEdge := some at_ } }
  let corr : Int := if r ≥ 500000000 then 1000000000 - r else -r
  if s.tim.acquire then
    let s := ppsCorrect r s
    let s := match s.tim.setSec with
      | some sec => if s.rd R.timeNowNs < sec * 1000000000 then
          { (s.wr R.timeNowNs (sec * 1000000000)) with tim := { s.tim with hold := 0 } } else s
      | none => s
    { ((s.clr1 R.timeStatUnset).clr1 R.timeStatLocked) with
      tim := { s.tim with acquire := false, setSec := none, sinceAcq := 0, beyond := 0, avgCount := 0, avgSum := 0 } }
  else if corr.natAbs > s.rd R.timePpscfgWin then
    let s := (s.bump R.timePpsRej 1).log 0x0F08 srcNone noPos 0 corr.natAbs
    let n := s.tim.beyond + 1
    { s with tim := { s.tim with beyond := if n ≥ 3 then 0 else n, acquire := n ≥ 3 } }
  else
    let s := ppsCorrect r s
    let s := { s with tim := { s.tim with beyond := 0, sinceAcq := s.tim.sinceAcq + 1, avgCount := s.tim.avgCount + 1,
                                          avgSum := s.tim.avgSum + corr } }
    let s := trimUpdate s
    if s.tim.sinceAcq ≥ max 1 (s.rd R.timePpscfgAvg) then s.set1 R.timeStatLocked else s

/-- A filtered rising edge of PPS_IN, dt ns after the last tick boundary (R479). DEDUCED: log 84. -/
def ppsEdge (dt : Nat) (s : State) : State :=
  let now := s.rd R.timeNowNs + (dt - min dt s.tim.hold)
  let at_ := s.tim.local_ + dt
  let ok := match s.tim.lastEdge with
    | none => true
    | some t => t + 999900000 ≤ at_ && at_ ≤ t + 1000100000
  if ok then ppsAccept now (now % 1000000000) at_ s else s.bump R.timePpsRej 1

/-- No accepted edge for 1.5 s (R481): HOLDOVER, logged once; TRIM is frozen. -/
def ppsHoldover (s : State) : State :=
  if s.bit R.timeStatHoldover then s else
  let s := { (s.set1 R.timeStatHoldover) with tim := { s.tim with lastEdge := none, avgCount := 0, avgSum := 0 } }
  s.log 0x0F07 srcNone noPos 0 0

/-- TIME_SETSEC (R480). -/
def timeSetsec (sec : Nat) (s : State) : State :=
  { s with tim := { s.tim with setSec := some (sec % 2 ^ 34), acquire := true } }

/-- SNUFF_CLEAR. -/
def execSnuffClear (p : PosIx) (s : State) : Out := atPos p (snuffClear p) s
/-- SHOCK_FALL. -/
def execShockFall (p : PosIx) (s : State) : Out := atPos p (shockFall p) s
/-- SHOCK_RELEASE. -/
def execShockRelease (p : PosIx) (s : State) : Out := atPos p (shockRelease p) s
/-- SUPPLY_OUT_OF_RANGE. -/
def execSupplyOutOfRange (n : Fin 7) (s : State) : Out := done (supplyOut n s)
/-- SUPPLY_IN_RANGE. -/
def execSupplyInRange (n : Fin 7) (s : State) : Out := done (supplyIn n s)
/-- PPS_EDGE. -/
def execPpsEdge (dt : Nat) (s : State) : Out := done (ppsEdge dt s)
/-- PPS_HOLDOVER. -/
def execPpsHoldover (s : State) : Out := done (ppsHoldover s)
/-- TIME_SETSEC. -/
def execTimeSetsec (sec : Nat) (s : State) : Out := done (timeSetsec sec s)

end Sys2Proof.Machine
end

