-- ==== Sys2Proof/Machine/Position.lean ====
section
/-! DEFINITION. The configuration-consistency check of a position (R190, R204, R207, R334, R335, Table 11.11). -/

namespace Sys2Proof.Machine

/-- The spindle's bus thresholds ascend (R190). DEDUCED: log 68. -/
def busAscends (s : State) (p : PosIx) : Bool :=
  s.rd (R.spnOvaOv1Off p) < s.rd (R.spnOvaOv1 p) && s.rd (R.spnOvaOv1 p) < s.rd (R.spnOvbOv2 p) &&
  s.rd (R.spnOvbOv2 p) < s.rd (R.spnOvbOv3 p)

/-- ALIGN_I ≤ ILIM < IPEAK (R190), with ILIM as it acts (Table 6.7). -/
def currentsOrdered (s : State) (p : PosIx) : Bool :=
  let lim := min (s.rd (R.spnIlimIlim p)) 0x0E10
  s.rd (R.spnIlimAlignI p) ≤ lim && lim < s.rd (R.spnProtIpeak p)

/-- The virtual limits, the park position and the index position are in order (R204). -/
def limitsOrdered (s : State) (p : PosIx) : Bool :=
  let a := s.rdI (R.carVlimInPos p)
  let b := s.rdI (R.carVlimOutPos p)
  let mid := fun (x : Int) => a ≤ x && x ≤ b
  a < b && mid (s.rdI (R.carParkPos p)) && mid (s.rdI (R.carIdxPos p))

/-- The motion limits (R204). -/
def motionOk (s : State) (p : PosIx) : Bool :=
  let v := carVmax s p
  let a := s.rd (R.carAccAmax p)
  let j := s.rd (R.carAccJmax p)
  v > 0 && a > 0 && j > 0 && a * a ≤ v * j

/-- The segment table (R204). -/
def tableOk (s : State) (p : PosIx) : Bool :=
  let n := s.rd (R.carTblnN p)
  let t := fun i => s.rd (R.carTblT p i)
  let x := fun i => s.rdI (R.carTblX p i)
  let v := fun i => s.rdI (R.carTblV p i)
  let dref := s.rdI (R.carTblrefDref p)
  s.rd (R.carCfgRamp p) = 0 || (2 ≤ n && n ≤ 64 && t 0 = 0 && x 0 = 0 && v 0 = 0 &&
    (List.range (n - 1)).all (fun i => t i < t (i + 1) && x i < x (i + 1)) && x (n - 1) = dref && v (n - 1) = 0 &&
    dref ≥ s.rdI (R.carVlimOutPos p) - s.rdI (R.carVlimInPos p) &&
    (List.range n).all fun i => (v i).natAbs ≤ 256 * carVmax s p)

/-- The gear entries (R207): magnitudes of at most 2^-8, positions within the virtual limits. -/
def gearsOk (s : State) (p : PosIx) : Bool :=
  let n := min 4 (s.rd (R.carGtctlN p))
  let small := fun (r : Int) => r.natAbs ≤ 2 ^ 32
  small (s.rdI (R.carGear0Ratio p)) && (List.range n).all fun i =>
    small (s.rdI (R.carGtratRatio p i)) && s.rdI (R.carVlimInPos p) ≤ s.rdI (R.carGtposPos p i) &&
    s.rdI (R.carGtposPos p i) ≤ s.rdI (R.carVlimOutPos p)

/-- The check of POS_CFG.EN: the reason of the first failing test of Table 11.11, 0 when all pass (R334). DEDUCED: log 68. -/
def posCheck (s : State) (p : PosIx) : Nat :=
  let poles := s.rd (R.spnCfgPoles p)
  if poles < 2 || poles > 8 then 0x0301
  else if !busAscends s p then 0x0302
  else if !currentsOrdered s p then 0x0303
  else if s.rd (R.spnSmpT1 p) = s.rd (R.spnSmpT2 p) then 0x0304
  else if s.rd (R.spnProtMinon p) ≥ 2500 then 0x0305
  else if !limitsOrdered s p then 0x0306
  else if !motionOk s p then 0x0307
  else if !tableOk s p then 0x0308
  else if !gearsOk s p then 0x0309
  else if !bitAt (s.rd R.lampOptPosEn) p then 0x030A
  else 0

/-- Whether a write of 0 to POS_CFG.EN is taken (Table 11.9): the drives are at rest and no pack is mounted. DEDUCED: log 68. -/
def posFree (s : State) (p : PosIx) : Bool :=
  let sp := spnState s p
  let ca := carState s p
  (sp == spnOff || sp == spnCoast || sp == spnFault) && (ca == carOff || ca == carFault) && s.packs[p].status == .none

/-- A write to POS_CFG.EN (R334, R335). DEDUCED: log 68. -/
def positionEnable (p : PosIx) (on : Bool) (s : State) : State :=
  if on then
    let r := posCheck s p
    if r = 0 then (s.set1 (R.posCfgEn p)).wr (R.posChkReason p) 0 else s.wr (R.posChkReason p) r
  else if posFree s p then s.clr1 (R.posCfgEn p)
  else s.wr (R.posChkReason p) 0x030B

/-- POSITION_ENABLE. -/
def execPositionEnable (p : PosIx) (on : Bool) (s : State) : Out := atPos p (positionEnable p on) s

end Sys2Proof.Machine
end

