-- ==== Sys2Proof/Machine/Clocks.lean ====
section
/-! DEFINITION. Clocks and power (chapter 15): sources, PLLs, the domains, powering engines and clocks, the safe-state
latch, self-refresh; the release of cores (R367), the junction limit (R331), and the JTAG port (R412, R430, R497). -/

namespace Sys2Proof.Machine

/-- LASER_EN as the safe-state latch holds it (R438); an EXTEST instruction overrides it (R497). DEDUCED: log 36. -/
def laserHeld (s : State) : Bool := s.bit R.pwrSafeLaser && !s.pins.extest

/-- The 25 MHz crystal stops (R406): the safe-state latch sets for every position and LASER_EN, and the device enters the
fault state (R474). -/
def xtalLoss (s : State) : State :=
  enterFaultState (clkReason 0x0D01 noPos 0 0 (((s.clr1 R.clkSrcXtal).wr R.pwrSafePos 0xFF).set1 R.pwrSafeLaser))

/-- The PCIe reference clock stops (R406): the link is down and every function resets. -/
def refclkLoss (s : State) : State :=
  clkReason 0x0D07 noPos 0 0 (((pcieDown s).clr1 R.clkSrcRef).updHqi fun h => { h with refclk := false })

/-- The 32.768 kHz crystal stops (R406): the Ember domain runs from its RC oscillator. -/
def x32Loss (s : State) : State := clkReason 0x0D06 noPos 0 0 ((s.clr1 R.clkSrcX32).set1 R.pwrStatRc)

/-- Positions that a stripe operation serves. DEDUCED: log 33. -/
def striped (s : State) (p : PosIx) : Bool := s.stripes.any fun x => x.p == p

/-- The snuff source of the blocks that PLL n feeds (R409): servo mismatch for PLL_SRV, sync loss for PLL_BEAM on the
positions that its engines serve, link for PLL_IGLp. DEDUCED: log 33. -/
def pllSnuff (n : Nat) (s : State) : State :=
  if n = 5 then eachPos (fun p s => raiseSnuff p 4 s) s
  else if n = 1 then eachPos (fun p s => if striped s p then raiseSnuff p 3 s else s) s
  else if 7 ≤ n then eachPos (fun p s => if p.val = n - 7 then raiseSnuff p 5 s else s) s
  else s

/-- A running PLL loses lock (R409). DEDUCED: log 33. -/
def pllLockLoss (n : Nat) (s : State) : State :=
  if !s.bit (R.clkPllLock n) then s else clkReason 0x0D02 noPos 0 n (pllSnuff n (s.clr1 (R.clkPllLock n)))

/-- Whether the reference of PLL n is present (Table 15.2). -/
def refPresent (s : State) (n : Nat) : Bool := s.bit (if n = 6 then R.clkSrcRef else R.clkSrcXtal)

/-- A PLL that a consumer needs has locked (R409): its domains restart, and the sources that its loss held release. DEDUCED: log 33. -/
def pllLock (n : Nat) (s : State) : State :=
  if !pllWanted s n || !refPresent s n then s else
  let s := s.set1 (R.clkPllLock n)
  if n = 1 then eachPos (fun p s => releaseSnuff p 3 s) s
  else if 7 ≤ n then eachPos (fun p s => if p.val = n - 7 && !linkFaulty s p then releaseSnuff p 5 s else s) s
  else s

/-- Whether clock domain d runs (R410, Table 15.3), as CLK_DSTAT shows it. DEDUCED: log 34. -/
def domainRuns (s : State) (d : Nat) : Bool :=
  let on := fun n => s.bit (R.clkPllLock n)
  let pos := fun (p : Nat) => s.part == .oa824 || p < 4
  if d < 96 then on 1 && bitAt (s.rd R.pwrEngOn) (d / 4) && (s.part == .oa824 || d / 4 < 8)
  else if d < 160 then
    let p := (d - 96) / 8
    pos p && s.bit (R.iglCtrlEn p) && on (7 + p)
  else if d < 176 then pos ((d - 160) / 2) && on 5
  else if d < 184 then s.hqi.linkUp && d - 176 < s.hqi.width
  else if d = 184 then on 6
  else if d < 187 then on 3
  else if d < 189 then on 4
  else if d < 192 then on 0
  else if d = 192 then true
  else if d = 193 then on 5
  else if d = 194 then on 0
  else if d = 195 then true
  else if d = 196 then on 5
  else if d < 201 then bitAt (s.rd R.clkZenEn) (d - 197) && on 2
  else d < 203 && on 5

/-- CLK_PLL.ON and CLK_DSTAT follow the consumers and the locks (R409, R410, Table 15.10). DEDUCED: log 34. -/
def showClk (s : State) : State :=
  let s := s.forEach (List.range 15) fun n s => s.wr (R.clkPllOn n) (if pllWanted s n then 1 else 0)
  s.forEach (List.range 7) fun k s =>
    s.wr (R.clkDstatRun k) (((List.range 32).map fun i => if domainRuns s (32 * k + i) then 2 ^ i else 0).foldl (· + ·) 0)

/-- Whether engine e may not be powered down (R418). DEDUCED: log 35. -/
def engHeld (s : State) (e : EngIx) : Bool :=
  s.bit (R.rdStatBusy e) || s.bit (R.castStatBusy e) || s.stripes.any fun x => x.engines.contains e

/-- One bit of a write to PWR_ENG (R418). DEDUCED: log 35. -/
def enginePower (e : EngIx) (on : Bool) (s : State) : State :=
  if on == bitAt (s.rd R.pwrEngOn) e then s
  else if on then s.setBitOf R.pwrEngOn e
  else if engHeld s e then clkReason 0x0D03 noPos 0 e s
  else (s.clrBitOf R.pwrEngOn e).clrBitOf R.pwrEngrdyRdy e

/-- PWR_ENG written (R418); bits of engines that the part does not offer are RSV. DEDUCED: log 35. -/
def enginePowerAll (value : Nat) (s : State) : State :=
  pllTrim 1 (s.forEach (allEng.filter (engOffered s)) fun e s => enginePower e (bitAt value e) s)

/-- A powered engine is ready once PLL_BEAM has locked (R418). DEDUCED: log 35. -/
def engineReady (e : EngIx) (s : State) : State :=
  if bitAt (s.rd R.pwrEngOn) e && s.bit (R.clkPllLock 1) then s.setBitOf R.pwrEngrdyRdy e else s

/-- One bit of a write to CLK_ZEN (R419). -/
def zenWrite (z : CmpIx) (on : Bool) (s : State) : State :=
  if on then s.setBitOf R.clkZenEn z
  else if bitAt (s.rd R.clkZenEn) z && bitAt (s.rd R.cmpStatBusy) z then clkReason 0x0D03 noPos 0 z s
  else s.clrBitOf R.clkZenEn z

def zenWriteAll (value : Nat) (s : State) : State :=
  pllTrim 2 (s.forEach (List.finRange 4) fun z s => zenWrite z (bitAt value z) s)

/-- PWR_SAFECLR.POS bit p (R429, R438): taken when POS_CFG.EN is 1, and never in recovery mode (R441). DEDUCED: log 43. -/
def safeReleasePos (p : PosIx) (s : State) : State :=
  if s.bit (R.posCfgEn p) && !s.bit R.lampStatRecovery then s.clrBitOf R.pwrSafePos p else s

/-- PWR_SAFECLR.LASER (R429, R438). DEDUCED: log 43. -/
def safeReleaseLaser (s : State) : State :=
  if s.rd R.pwrSafePos = 0 && !s.bit R.lampStatRecovery then s.clr1 R.pwrSafeLaser else s

/-- Both devices enter self-refresh (R420), unless an access waits or an interface retrains; their PLLs stop. -/
def selfRefreshEntry (s : State) : State :=
  if !s.bit R.bufCtrlEn || !s.waitq.isEmpty || s.buf.retrain0 || s.buf.retrain1 then s
  else pllTrim 4 (pllTrim 3 { s with buf := { s.buf with selfRefresh := true } })

/-- LAMP_CREL.REL (R367): C0 releases C1 to C5; in recovery mode they stay held (R441). DEDUCED: log 44. -/
def coreRelease (value : Nat) (s : State) : State :=
  if fwUp s && !s.bit R.lampStatRecovery then s.wr R.lampCrelRel (orBits (s.rd R.lampCrelRel) (value % 32)) else s

/-- The junction temperature in 0.1 °C against THERM_TJ (Table 11.6). -/
def thermTj (t : Int) (s : State) : State :=
  let lim : Int := s.policyOf 0x61 0
  s.updLamp fun l => { l with tjHot := t ≥ lim || (l.tjHot && t > lim - 50) }

/-- CLK_XSTAT.MODE (R412, R413): request and acknowledge from the first release of C0 on, outside test mode. DEDUCED: log 36. -/
def showMode (s : State) : State :=
  s.wr R.clkXstatMode (if s.lamp.started && !s.pins.testMode && !s.pins.extest then 1 else 0)

/-- The JTAG test controller enters or leaves test mode, or holds an EXTEST instruction or no longer (R412, R497). DEDUCED: log 36. -/
def jtagMode (test extest : Bool) (s : State) : State :=
  showMode { s with pins := { s.pins with testMode := test, extest := extest } }

/-- TRST_N low (R430): the debug logic alone is reset. Its reset requests no longer stand; the levels they held are left
as the last source of each releases. DEDUCED: log 36. -/
def trstAssert (s : State) : State :=
  jtagMode false false (s.updLamp fun l => { l with dbgSys := false, dbgCore := false })

/-- XTAL_LOSS. -/
def execXtalLoss (s : State) : Out := done (xtalLoss s)
/-- REFCLK_LOSS. -/
def execRefclkLoss (s : State) : Out := hostDone refclkLoss s
/-- X32_LOSS. -/
def execX32Loss (s : State) : Out := done (x32Loss s)
/-- PLL_LOCK_LOSS. -/
def execPllLockLoss (n : Fin 15) (s : State) : Out := done (pllLockLoss n s)
/-- PLL_LOCK. -/
def execPllLock (n : Fin 15) (s : State) : Out := done (pllLock n s)
/-- ENGINE_POWER. -/
def execEnginePower (value : Nat) (s : State) : Out := done (enginePowerAll value s)
/-- ENGINE_READY. -/
def execEngineReady (e : EngIx) (s : State) : Out := atEng e (engineReady e) s
/-- COMPRESSION_CLOCK_ENABLE. -/
def execCompressionClockEnable (value : Nat) (s : State) : Out := done (zenWriteAll value s)
/-- SAFE_RELEASE_POSITION. -/
def execSafeReleasePosition (p : PosIx) (s : State) : Out := atPos p (safeReleasePos p) s
/-- SAFE_RELEASE_LASER. -/
def execSafeReleaseLaser (s : State) : Out := done (safeReleaseLaser s)
/-- SELF_REFRESH_ENTRY. -/
def execSelfRefreshEntry (s : State) : Out := done (selfRefreshEntry s)
/-- CORE_RELEASE. -/
def execCoreRelease (value : Nat) (s : State) : Out := done (coreRelease value s)
/-- THERM_TJ_CROSSING. -/
def execThermTjCrossing (t : Int) (s : State) : Out := done (thermTj t s)
/-- JTAG_TEST_MODE. -/
def execJtagTestMode (test extest : Bool) (s : State) : Out := done (jtagMode test extest s)
/-- TRST_ASSERT. -/
def execTrstAssert (s : State) : Out := done (trstAssert s)

end Sys2Proof.Machine
end

