-- ==== Sys2Proof/Machine/Taper.lean ====
section
/-! DEFINITION. The Taper stream (R384 to R396): the decoder with its checks, and the compressor, whose hash and code
construction the spec leaves to the engine. -/

namespace Sys2Proof.Machine

/-- Bit i of a byte array, least significant bit of a byte first (R387); none past its end. -/
def inBit (a : Array Byte) (i : Nat) : Option Nat := (a[i / 8]?).map fun b => b.toNat / 2 ^ (i % 8) % 2

/-- The n-bit integer field at bit i, least significant bit first (R387). -/
def inField (a : Array Byte) : (n i : Nat) → Option Nat
  | 0, _ => some 0
  | n + 1, i => (inBit a i).bind fun b => (inField a n (i + 1)).map fun v => b + 2 * v

/-- n fields of 4 bits at bit i. -/
def inLens (a : Array Byte) : (n i : Nat) → Option (List Nat)
  | 0, _ => some []
  | n + 1, i => (inField a 4 i).bind fun v => (inLens a n (i + 4)).map fun l => v :: l

/-- A code: symbol, length and value. -/
structure Code where
  sym : Nat
  len : Nat
  val : Nat
  deriving DecidableEq, Repr

/-- The symbols of length n in ascending order take the codes from c on; the codes, and the next one. -/
def codesAt (n : Nat) : List (Nat × Nat) → Nat → List Code × Nat
  | [], c => ([], c)
  | (s, l) :: t, c =>
    if l = n then
      let (r, d) := codesAt n t (c + 1)
      ({ sym := s, len := n, val := c } :: r, d)
    else codesAt n t c

/-- The canonical codes of an alphabet's lengths (R388). -/
def canonical (lens : List Nat) : List Code :=
  let syms := lens.mapIdx fun i l => (i, l)
  ((List.range 15).foldl (fun (acc : List Code × Nat) i =>
    let (r, d) := codesAt (i + 1) syms (acc.2 * 2)
    (acc.1 ++ r, d)) ([], 0)).1

/-- The Kraft sum of lengths in units of 2^-15. -/
def kraft (lens : List Nat) : Nat := (lens.map fun l => if l = 0 then 0 else 2 ^ (15 - l)).foldl (· + ·) 0

/-- A valid literal/length table, and a valid distance table (R389). -/
def litValid (lens : List Nat) : Bool := nth 0 lens 256 != 0 && kraft lens == 2 ^ 15
def distValid (lens : List Nat) : Bool :=
  let used := lens.filter (· != 0)
  used.isEmpty || used == [1] || kraft lens == 2 ^ 15

/-- Faults of decoding (Table 14.3). -/
def badHeader : Nat := 0x0B04
def badBlock : Nat := 0x0B05
def badTrailer : Nat := 0x0B06
def shortInput : Nat := 0x0B07
def extraInput : Nat := 0x0B09

/-- A symbol at bit i, the code's most significant bit first (R387): the symbol and the next bit, or the fault. `cs`: the
codes that the bits read so far leave. -/
def inSym (a : Array Byte) : (fuel : Nat) → (n val : Nat) → List Code → (i : Nat) → Except Nat (Nat × Nat)
  | 0, _, _, _, _ => .error badBlock
  | f + 1, n, val, cs, i =>
    if cs.isEmpty then .error badBlock else
    match inBit a i with
    | none => .error shortInput
    | some b =>
      let v := 2 * val + b
      match cs.find? fun c => c.len == n + 1 && c.val == v with
      | some c => .ok (c.sym, i + 1)
      | none => inSym a f (n + 1) v (cs.filter fun c => c.len > n + 1 && c.val / 2 ^ (c.len - (n + 1)) == v) (i + 1)

/-- Extra bits and base of a length symbol less 257, and of a distance symbol (Table 14.2). -/
def lenCode (v : Nat) : Nat × Nat :=
  if v < 8 then (0, 4 + v) else let j := v - 8; let e := j / 4 + 1; (e, 4 + (4 + j % 4) * 2 ^ e)
def distCode (k : Nat) : Nat × Nat :=
  if k < 4 then (0, 1 + k) else let j := k - 4; let e := j / 2 + 1; (e, 1 + (2 + j % 2) * 2 ^ e)

/-- How decoding ends: the whole stream is right, no room for the next output byte, or a fault. -/
inductive DecEnd where
  | whole | full | fault (reason : Nat)
  deriving DecidableEq, Repr

/-- The output so far, the next input bit, and the end once there is one. -/
structure Dec where
  out : Array Byte
  bit : Nat
  fin : Option DecEnd
  deriving DecidableEq, Repr

def Dec.stop (d : Dec) (e : DecEnd) : Dec := { d with fin := some e }

/-- A match copies n bytes, one at a time, from `dist` bytes back (R390); the block may reach `stop_` output bytes, the job
`lim`. -/
def copyMatch (dist stop_ lim : Nat) : Nat → Dec → Dec
  | 0, d => d
  | n + 1, d =>
    if d.fin.isSome then d
    else if d.out.size ≥ stop_ then d.stop (.fault badBlock)
    else if d.out.size ≥ lim then d.stop .full
    else copyMatch dist stop_ lim n { d with out := d.out.push (d.out[d.out.size - dist]?.getD 0) }

/-- A match with length symbol 257 + v: its extra bits, its distance and the copy. -/
def doMatch (a : Array Byte) (dist : List Code) (stop_ lim v : Nat) (d : Dec) : Dec :=
  let (e, base) := lenCode v
  match inField a e d.bit with
  | none => d.stop (.fault shortInput)
  | some x =>
    let len := base + x
    if len > 258 then d.stop (.fault badBlock) else
    match inSym a 15 0 0 dist (d.bit + e) with
    | .error r => d.stop (.fault r)
    | .ok (k, i) =>
      let (e, base) := distCode k
      match inField a e i with
      | none => d.stop (.fault shortInput)
      | some x =>
        let d := { d with bit := i + e }
        if base + x > d.out.size then d.stop (.fault badBlock) else copyMatch (base + x) stop_ lim len d

/-- The symbols of a coded block up to its end (R390, R391); the answer's bit lies past the end-of-block symbol. -/
def taperSymbols (a : Array Byte) (lit dist : List Code) (stop_ lim : Nat) : Nat → Dec → Dec
  | 0, d => d.stop (.fault shortInput)
  | f + 1, d =>
    if d.fin.isSome then d else
    match inSym a 15 0 0 lit d.bit with
    | .error r => d.stop (.fault r)
    | .ok (s, i) =>
      let d := { d with bit := i }
      if s = 256 then (if d.out.size = stop_ then d else d.stop (.fault badBlock))
      else if s < 256 then
        if d.out.size ≥ stop_ then d.stop (.fault badBlock)
        else if d.out.size ≥ lim then d.stop .full
        else taperSymbols a lit dist stop_ lim f { d with out := d.out.push (BitVec.ofNat 8 s) }
      else if s ≥ 285 then d.stop (.fault badBlock)
      else taperSymbols a lit dist stop_ lim f (doMatch a dist stop_ lim (s - 257) d)

/-- A coded block's tables (R388, R389), its symbols, and the padding to a byte boundary. -/
def codedBlock (a : Array Byte) (stop_ lim : Nat) (d : Dec) : Dec :=
  match inField a 5 d.bit, inField a 6 (d.bit + 5) with
  | some nl, some nd =>
    let nll := nl + 257
    let ndist := nd + 1
    if nll > 285 || ndist > 40 then d.stop (.fault badBlock) else
    let i := d.bit + 11
    match inLens a nll i, inLens a ndist (i + 4 * nll) with
    | some ll, some dl =>
      if !litValid ll || !distValid dl then d.stop (.fault badBlock) else
      let d := taperSymbols a (canonical ll) (canonical dl) stop_ lim (8 * a.size + 1) { d with bit := i + 4 * nll + 4 * ndist }
      if d.fin.isSome then d else { d with bit := (d.bit + 7) / 8 * 8 }
    | _, _ => d.stop (.fault shortInput)
  | _, _ => d.stop (.fault shortInput)

/-- A stored block's n bytes. -/
def storedBlock (a : Array Byte) (lim : Nat) : Nat → Dec → Dec
  | 0, d => d
  | n + 1, d =>
    if d.fin.isSome then d
    else if d.out.size ≥ lim then d.stop .full
    else match a[d.bit / 8]? with
      | none => d.stop (.fault shortInput)
      | some b => storedBlock a lim n { d with out := d.out.push b, bit := d.bit + 8 }

/-- The number in n bytes at byte i of an array; none past its end. -/
def inBytes (a : Array Byte) (i n : Nat) : Option Nat := inField a (8 * n) (8 * i)

/-- Bytes of a block by R385 when `left` bytes of the stream are to come. -/
def blockLen (left : Nat) : Nat := min 131072 left

/-- One block (R385, R391). -/
def taperBlock (a : Array Byte) (ulen lim : Nat) (d : Dec) : Dec :=
  match inField a 32 d.bit with
  | none => d.stop (.fault shortInput)
  | some h =>
    let left := ulen - d.out.size
    let n := blockLen left
    let type := bitsOf h 17 2
    if h / 2 ^ 20 != 0 || type ≥ 2 || bitAt h 19 != decide (left ≤ 131072) || h % 2 ^ 17 + 1 != n then d.stop (.fault badBlock) else
    let d := { d with bit := d.bit + 32 }
    if type = 0 then storedBlock a lim n d else codedBlock a (d.out.size + n) lim d

/-- The blocks until the output has ULEN bytes. -/
def taperBlocks (a : Array Byte) (ulen lim : Nat) : Nat → Dec → Dec
  | 0, d => d.stop (.fault shortInput)
  | f + 1, d => if d.fin.isSome || d.out.size ≥ ulen then d else taperBlocks a ulen lim f (taperBlock a ulen lim d)

/-- Whether the header bytes present are right (Table 14.1); none where they are and some are missing. -/
def headerFault (a : Array Byte) : Option Nat :=
  let want : List Byte := [0x54, 0x50, 0x52, 0x31, 0x01, 0, 0, 0]
  if (List.range 8).any fun i => match a[i]? with
    | some b => b != want.getD i 0
    | none => false then some badHeader
  else if a.size < 16 then some shortInput
  else none

/-- A whole stream decoded into at most `lim` output bytes (R392, R393). -/
def taperDecode (l : List Byte) (lim : Nat) : Dec :=
  let a := l.toArray
  let d : Dec := { out := #[], bit := 0, fin := none }
  match headerFault a with
  | some r => d.stop (.fault r)
  | none =>
    let ulen := (inBytes a 8 8).getD 0
    let d := taperBlocks a ulen lim (a.size + 1) { d with bit := 128 }
    if d.fin.isSome then d else
    match inField a 64 d.bit with
    | none => d.stop (.fault shortInput)
    | some t =>
      let d := { d with bit := d.bit + 64 }
      if t != sealFold 0 d.out.toList then d.stop (.fault badTrailer)
      else if d.bit / 8 < a.size then d.stop (.fault extraInput)
      else d.stop .whole

/-- The header of a block of n bytes (R385). -/
def blockHeader (n type : Nat) (last : Bool) : List Byte :=
  leBytes 4 (n - 1 + type * 2 ^ 17 + (if last then 2 ^ 19 else 0))

/-- What a coded block says of its bytes: a literal, or a match (R390). -/
inductive Token where
  | lit (b : Nat)
  | copy (len dist : Nat)
  deriving DecidableEq, Repr

/-- The hash of the four bytes at position i; none where fewer are left. -/
def hashAt (a : Array Byte) (i : Nat) : Option Nat :=
  if i + 4 ≤ a.size then (inBytes a i 4).map Config.hash4 else none

/-- The positions below j on the hash chain of h, nearest first, at most `depth` of them and none below `low` (R395). -/
def hashChain (a : Array Byte) (h low : Nat) : (fuel j depth : Nat) → List Nat
  | 0, _, _ => []
  | f + 1, j, depth =>
    if j ≤ low || depth = 0 then []
    else if hashAt a (j - 1) == some h then (j - 1) :: hashChain a h low f (j - 1) (depth - 1)
    else hashChain a h low f (j - 1) depth

/-- How many bytes at i, at most n, equal those at j. -/
def sameBytes (a : Array Byte) (i j : Nat) : Nat → Nat → Nat
  | 0, k => k
  | n + 1, k => if a[i + k]? == a[j + k]? then sameBytes a i j n (k + 1) else k

/-- The longest match of at least 4 bytes at position i, the nearest on equal length, as length and distance; the block ends at
`stop_` (R395). -/
def bestMatch (a : Array Byte) (depth stop_ i : Nat) : Option (Nat × Nat) :=
  match hashAt a i with
  | none => none
  | some h =>
    let lim := min 258 (stop_ - i)
    (hashChain a h (i - 1048576) i i depth).foldl (fun m j =>
      let n := sameBytes a i j lim 0
      if 4 ≤ n && ((m.map (·.1)).getD 0) < n then some (n, i - j) else m) none

/-- The literals and matches of a block from position i to its end (R395): with LAZY, a match is deferred by one position when the
one that starts there is longer. -/
def blockTokens (a : Array Byte) (depth lazy_ stop_ : Nat) : (fuel i : Nat) → List Token
  | 0, _ => []
  | f + 1, i =>
    if i ≥ stop_ then [] else
    let lit := Token.lit ((a[i]?.map (·.toNat)).getD 0)
    match bestMatch a depth stop_ i with
    | none => lit :: blockTokens a depth lazy_ stop_ f (i + 1)
    | some (n, d) =>
      if lazy_ = 1 && n < ((bestMatch a depth stop_ (i + 1)).map (·.1)).getD 0 then lit :: blockTokens a depth lazy_ stop_ f (i + 1)
      else Token.copy n d :: blockTokens a depth lazy_ stop_ f (i + n)

/-- The symbol of a match length, and of a distance, with its extra bits and their value (Table 14.2). -/
def lenSymbol (n : Nat) : Nat × Nat × Nat :=
  let v := n - 4
  if v < 8 then (257 + v, 0, 0) else
  let e := v.log2 - 2
  (265 + 4 * (e - 1) + (v / 2 ^ e - 4), e, v % 2 ^ e)
def distSymbol (d : Nat) : Nat × Nat × Nat :=
  let x := d - 1
  if x < 4 then (x, 0, 0) else
  let e := x.log2 - 1
  (4 + 2 * (e - 1) + (x / 2 ^ e - 2), e, x % 2 ^ e)

/-- The symbols that tokens use of the literal/length alphabet, and of the distance alphabet. -/
def litUses (l : List Token) : List Nat := l.map (fun t => match t with | .lit b => b | .copy n _ => (lenSymbol n).1) ++ [256]
def distUses (l : List Token) : List Nat := l.filterMap fun t => match t with | .lit _ => none | .copy _ d => some (distSymbol d).1

/-- How often each of n symbols is used. -/
def useCounts (n : Nat) (l : List Nat) : List Nat := (List.range n).map fun s => l.count s

/-- An n-bit field, least significant bit first, and a code, most significant bit first (R387). -/
def fieldBits (n v : Nat) : List Nat := (List.range n).map fun i => v / 2 ^ i % 2
def symBits (cs : List Code) (s : Nat) : List Nat :=
  match cs.find? fun c => c.sym == s with
  | some c => (List.range c.len).map fun i => c.val / 2 ^ (c.len - 1 - i) % 2
  | none => []

/-- The bits of one token. -/
def tokenBits (lit dist : List Code) : Token → List Nat
  | .lit b => symBits lit b
  | .copy n d =>
    let (s, e, x) := lenSymbol n
    let (t, g, y) := distSymbol d
    symBits lit s ++ fieldBits e x ++ symBits dist t ++ fieldBits g y

/-- Bits packed into bytes from the least significant bit up, the last byte padded with zeros (R387). -/
def packBits (l : List Nat) : List Byte :=
  (List.range ((l.length + 7) / 8)).map fun k => BitVec.ofNat 8
    (((l.drop (8 * k)).take 8).zipIdx.foldl (fun v x => v + x.1 * 2 ^ x.2) 0)

/-- Code lengths of an alphabet as they are sent: at least `lo` of them, at most `hi`, each of at most 15 bits. -/
def sentLengths (literals : Bool) (lo hi : Nat) (uses : List Nat) : List Nat :=
  let l := (Config.codeLengths literals uses).take hi
  (l ++ List.replicate (lo - l.length) 0).map (min 15)

/-- The coded form of a block that ends at `stop_` (R388, R390, R395). -/
def codedForm (a : Array Byte) (depth lazy_ start stop_ : Nat) : List Byte :=
  let l := blockTokens a depth lazy_ stop_ (stop_ - start) start
  let ll := sentLengths true 257 285 (useCounts 285 (litUses l))
  let dl := sentLengths false 1 40 (useCounts 40 (distUses l))
  let lit := canonical ll
  let dist := canonical dl
  packBits (fieldBits 5 (ll.length - 257) ++ fieldBits 6 (dl.length - 1) ++ (ll ++ dl).flatMap (fieldBits 4) ++
    l.flatMap (tokenBits lit dist) ++ symBits lit 256)

/-- Whether a bit stream is a coded form of a block: it decodes, after `before`, to the block and uses every byte (R391). -/
def codesBlock (before blk c : List Byte) : Bool :=
  let d := codedBlock c.toArray (before.length + blk.length) (before.length + blk.length)
    { out := before.toArray, bit := 0, fin := none }
  d.fin.isNone && d.out.toList == before ++ blk && d.bit == 8 * c.length

/-- A block as the compressor writes it: the coded form where its code is one of the block's and it is no longer than the stored
form (R395). -/
def putBlock (depth lazy_ : Nat) (before blk : List Byte) (last : Bool) : List Byte :=
  let c := codedForm (before ++ blk).toArray depth lazy_ before.length (before.length + blk.length)
  if codesBlock before blk c && c.length ≤ blk.length then blockHeader blk.length 1 last ++ c
  else blockHeader blk.length 0 last ++ blk

/-- The blocks of an input from byte `at_` on, as far as it goes: `total` bytes make the whole stream. -/
def putBlocks (depth lazy_ total : Nat) (input : List Byte) : Nat → Nat → List (List Byte)
  | 0, _ => []
  | f + 1, at_ =>
    let n := blockLen (total - at_)
    let blk := (input.drop at_).take n
    if n = 0 || blk.length < n then []
    else putBlock depth lazy_ (input.take at_) blk (total ≤ at_ + n) :: putBlocks depth lazy_ total input f (at_ + n)

/-- A Taper stream in pieces: the header, the blocks, and the trailer (R384, R386). -/
def taperEncode (depth lazy_ : Nat) (input : List Byte) : List (List Byte) :=
  let n := input.length
  [leBytes 4 0x31525054 ++ [0x01, 0, 0, 0] ++ leBytes 8 n] ++ putBlocks depth lazy_ n input (n / 131072 + 1) 0 ++
    [leBytes 8 (sealFold 0 input)]

/-- Input bytes of every block whose first output byte lies below `end_` output bytes (R402). -/
def consumedBy (pieces : List (List Byte)) (total end_ : Nat) : Nat :=
  let starts := (pieces.foldl (fun (acc : Nat × List Nat) x => (acc.1 + x.length, acc.2 ++ [acc.1])) (0, [])).2
  let begun := ((starts.drop 1).dropLast.filter (· < end_)).length
  min total (131072 * begun)

end Sys2Proof.Machine
end

