-- ==== Sys2Proof/Machine/Compression.lean ====
section
/-! DEFINITION. The compression engines' jobs (chapter 14): the descriptor ring, the consistency check, contexts, stops
and resumes, results, the lockstep comparison, and the completion of COMPRESS and DECOMPRESS. -/

namespace Sys2Proof.Machine

def State.updCmp (s : State) (g : CmpState → CmpState) : State := { s with cmp := g s.cmp }

/-- Fields of a job descriptor (Table 14.4). -/
def jOp (d : List Byte) : Nat := leAt d 0 1
def jResume (d : List Byte) : Bool := bitAt (leAt d 1 1) 0
def jInline (d : List Byte) : Bool := bitAt (leAt d 1 1) 1
def jHold (d : List Byte) : Bool := bitAt (leAt d 1 1) 2
def jHandle (d : List Byte) : Nat := leAt d 2 2
def jInLen (d : List Byte) : Nat := leAt d 4 4
def jInList (d : List Byte) : Nat := leAt d 8 8
def jOutMax (d : List Byte) : Nat := leAt d 16 4
def jOutList (d : List Byte) : Nat := leAt d 24 8
def jTag (d : List Byte) : Nat := leAt d 32 8

/-- The ring's size, and the address of the k-th descriptor (Table 14.6). -/
def jobLog (s : State) : Nat :=
  let l := s.rd R.cmpJringLog2
  if 4 ≤ l && l ≤ 12 then l else 8
def jobAddr (s : State) (k : Nat) : Nat := s.rd R.cmpJringAddr * 64 + 64 * (k % 2 ^ jobLog s)

/-- Whether engine z is in service (R398), and whether it can take a job (R405, R419). -/
def zInService (s : State) (z : CmpIx) : Bool := !bitAt (s.rd R.cmpStatFailed) z
def zJob (s : State) (z : CmpIx) : Option CmpJob := s.cmp.jobs.find? fun j => j.eng == z
def zIdle (s : State) (z : CmpIx) : Bool := bitAt (s.rd R.clkZenEn) z && s.bit (R.clkPllLock 2) && (zJob s z).isNone && !s.halted.contains (.comp z)

/-- The function a job belongs to: that of the command whose tag it carries. DEDUCED: log 66. -/
def jobFn (s : State) (d : List Byte) : FnIx := ((tagOf s (jTag d)).map (·.fn)).getD 0

/-- A context that a resume holds (R399, R403): its handle, its function, and no job that uses it. -/
def heldCtx (s : State) (d : List Byte) : Option CmpCtx :=
  s.cmp.ctxs.find? fun c => c.handle == jHandle d && c.handle != 0 && c.fn == jobFn s d && c.expires.isSome

/-- The consistency check of a job (R399): the first failing test's reason. DEDUCED: log 66. -/
def jobCheck (s : State) (d : List Byte) : Option Nat :=
  (if jResume d then
    match heldCtx s d with
    | none => some 0x020C
    | some c => if c.kind == jOp d && c.left == jInLen d then none else some 0x0B02
  else if s.cmp.ctxs.length ≥ 64 then some 0x0B01 else none) <|>
  if (List.finRange 4).any (zInService s) then none else some 0x0B03

/-- The tiles of a list in SRAM that n bytes take. -/
def tileList (s : State) (a n : Nat) : List Nat :=
  (List.range ((n + 65535) / 65536)).map fun i => leNat (s.sramRead (a + 4 * i) 4)

/-- n bytes read from sealed tiles, each as a use (R354). -/
def readTiles (who : Requester) : List Nat → Nat → State → Except Nat (List Byte) × State
  | [], _, s => (.ok [], s)
  | t :: ts, n, s =>
    let k := min n 65536
    if !tileOk s t || ((sealGet s t).fill < k && (sealGet s t).state != tileBad) then
      (.error 0x0A0D, s.log 0x0A0D srcBuf noPos (winBase + t * 65536) (reqCode who))
    else match tileCheck who t s with
      | (.error r, s) => (.error r, s)
      | (.ok l, s) =>
        match readTiles who ts (n - k) s with
        | (.error r, s) => (.error r, s)
        | (.ok r, s) => (.ok (l.take k ++ r), s)

/-- Bytes written to tiles by sealing writes, each tile from byte 0 on; whether every write was accepted (R352). -/
def writeTiles (who : Requester) : List Nat → List Byte → State → Bool × State
  | [], l, s => (l.isEmpty, s)
  | t :: ts, l, s =>
    if l.isEmpty then (true, s) else
    match sealingWrite who t 0 (l.take 65536) s with
    | (false, s) => (false, s)
    | (true, s) => writeTiles who ts (l.drop 65536) s

/-- Words that a requester reads from SRAM, or the reason it gets none: they lie outside SRAM (R11), or one is uncorrectable
(Table 12.3). -/
def sramFetch (who : Requester) (a n : Nat) (s : State) : Except Nat (List Byte) × State :=
  if n = 0 then (.ok [], s)
  else if !(sramBase ≤ a && a + n ≤ sramBase + sramSize) then (.error Config.reachReason.toNat, outside who a Config.reachReason.toNat s)
  else
    let (ok, s) := wordsMet (reqCode who) a n s
    (if ok then .ok (s.sramRead a n) else .error 0x0A04, s)

/-- n bytes read from the tiles that a list in SRAM names (R354). -/
def readListed (who : Requester) (la n : Nat) (s : State) : Except Nat (List Byte) × State :=
  match sramFetch who la (4 * ((n + 65535) / 65536)) s with
  | (.error r, s) => (.error r, s)
  | (.ok _, s) => readTiles who (tileList s la n) n s

/-- Bytes written to the tiles that a list in SRAM names (R352); none, or the reason they are not. -/
def writeListed (who : Requester) (la : Nat) (l : List Byte) (s : State) : Option Nat × State :=
  match sramFetch who la (4 * ((l.length + 65535) / 65536)) s with
  | (.error r, s) => (some r, s)
  | (.ok _, s) =>
    let (ok, s) := writeTiles who (tileList s la l.length) l s
    (if ok then none else some 0x0A07, s)

/-- Whether every output tile of a job is OPEN and empty (Table 14.4). -/
def outReady (s : State) (d : List Byte) : Bool :=
  (tileList s (jOutList d) (jOutMax d)).all fun t => tileOk s t && (sealGet s t).state == tileOpen && (sealGet s t).fill == 0

/-- The next count of a context's handle (R403): one higher at each reservation, skipping the one that makes handle 0. -/
def nextCount (n c : Nat) : Nat :=
  let v := (c + 1) % 1024
  if n = 0 && v = 0 then 1 else v

/-- Chain depth and LAZY at a job's start (Table 14.6). -/
def cmpDepth (s : State) : Nat := min 256 (max 1 (s.rd R.cmpCfgDepth))

/-- A context reserved for a job (R402, R403). -/
def reserveCtx (d : List Byte) (s : State) : CmpCtx × State :=
  let n := (lowestFrom (fun n => !s.cmp.ctxs.any fun c => c.num == n) 64 0).getD 0
  let k := nextCount n ((Assoc.get n s.cmp.counts).getD 0)
  let c : CmpCtx := { num := n, handle := n + 64 * k, fn := jobFn s d, kind := jOp d, left := jInLen d, total := jInLen d,
                      seen := [], sent := 0, depth := cmpDepth s, lazy := s.rd R.cmpCfgLazy, expires := none }
  (c, s.updCmp fun x => { x with ctxs := x.ctxs ++ [c], counts := Assoc.put n k x.counts })

def updCtx (n : Nat) (g : CmpCtx → CmpCtx) (s : State) : State :=
  s.updCmp fun x => { x with ctxs := x.ctxs.map fun c => if c.num == n then g c else c }
def freeCtx (n : Nat) (s : State) : State := s.updCmp fun x => { x with ctxs := x.ctxs.filter fun c => c.num != n }

/-- What a run of a job gives: input bytes consumed, output bytes, status and reason. -/
structure JobRun where
  consumed : Nat
  out : List Byte
  status : Nat
  reason : Nat
  deriving DecidableEq, Repr

/-- A compression (R395, R402): the stream from where the context stopped, as far as the output space goes; an INLINE
job never stops (R401). -/
def runCompress (c : CmpCtx) (input : List Byte) (outMax : Nat) (inline_ : Bool) : JobRun :=
  let pieces := taperEncode c.depth c.lazy (c.seen ++ input)
  let out := pieces.flatten.drop c.sent
  if inline_ || out.length ≤ outMax then { consumed := input.length, out := out, status := 1, reason := 0 }
  else { consumed := consumedBy pieces c.total (c.sent + outMax) - c.seen.length, out := out.take outMax, status := 2, reason := 0 }

/-- A decompression (R392 to R394, R402). `hold`: HOLD or INLINE, so that nothing is delivered before the check, and
the job does not stop. -/
def runDecompress (c : CmpCtx) (input : List Byte) (outMax : Nat) (hold : Bool) : JobRun :=
  let all := c.seen ++ input
  let d := taperDecode all (if hold then 2 ^ 64 else c.sent + outMax)
  let used := min input.length ((d.bit + 7) / 8 - c.seen.length)
  let out := (d.out.toList.drop c.sent).take outMax
  match d.fin with
  | some (.fault r) => { consumed := used, out := if hold then [] else out, status := 3, reason := r }
  | some .full => { consumed := used, out := out, status := 2, reason := 0 }
  | _ => { consumed := input.length, out := out, status := 1, reason := 0 }

/-- The results of a job written to its descriptor, and CMP_JDONE (R404, R405): its reason is logged, and the command
whose tag it carries learns of its end. -/
def jobResults (z : CmpIx) (a consumed produced rhandle status reason : Nat) (s : State) : State :=
  let d := s.sramRead a 64
  let s := if sramBase ≤ a && a + 64 ≤ sramBase + sramSize then
      s.sramWrite (a + 48) (leBytes 4 consumed ++ leBytes 4 produced ++ leBytes 2 rhandle ++ leBytes 1 status ++ [0] ++
        leBytes 2 reason ++ [0, 0]) else s
  let s := s.tickUp R.cmpJdoneCount 1
  let s := if reason = 0 then s else s.wr R.cmpReasonCode reason
  let s := if reason / 256 = 0x0B then s.log reason (reqCode (.comp z)) noPos a (jTag d) else s
  updTag (jTag d) (fun t => match t.work with
    | .job => { t with job := some a }
    | .inline _ => { t with job := some a }
    | _ => t) s

/-- The run of a job whose check has passed (R399, R402): its context, its input as uses, and what it makes of it. DEDUCED: log 66. -/
def runJob (z : CmpIx) (a : Nat) (d : List Byte) (s : State) : State :=
  let (c, s) := match heldCtx s d with
    | some c => if jResume d then (c, updCtx c.num (fun c => { c with expires := none }) s) else reserveCtx d s
    | none => reserveCtx d s
  let (input, s) := readListed (.comp z) (jInList d) (jInLen d) s
  let (r, s) := match input with
    | .error e => (({ consumed := 0, out := [], status := 3, reason := e } : JobRun), s)
    | .ok l =>
      let l := l.take (jInLen d)
      let r := if jOp d = 1 then runCompress c l (jOutMax d) (jInline d) else runDecompress c l (jOutMax d) (jInline d || jHold d)
      (r, updCtx c.num (fun c => { c with seen := c.seen ++ l.take r.consumed, sent := c.sent + r.out.length,
                                          left := jInLen d - r.consumed }) s)
  let j : CmpJob := { eng := z, addr := a, ctx := some c.num, consumed := r.consumed, produced := r.out.length,
                      rhandle := if r.status = 2 then c.handle else 0, status := r.status, reason := r.reason, out := r.out }
  s.updCmp fun x => { x with jobs := x.jobs ++ [j] }

/-- An idle engine takes the oldest waiting job (R399, R405). An INLINE compression waits while its output tiles are not
open (R401). A job with no valid OP ends with a reason that the spec does not give. DEDUCED: log 66. -/
def jobStart (z : CmpIx) (s : State) : State :=
  if !s.bit R.cmpCtrlEn || !zIdle s z || (s.rd R.cmpJpiCount + 2 ^ 32 - s.cmp.taken % 2 ^ 32) % 2 ^ 32 = 0 then s else
  if !zInService s z && (List.finRange 4).any (zInService s) then s else
  let a := jobAddr s s.cmp.taken
  let taken := fun (s : State) => s.updCmp fun x => { x with taken := (x.taken + 1) % 2 ^ 32 }
  match sramFetch (.comp z) a 64 s with
  | (.error r, s) => jobResults z a 0 0 0 3 r (taken s)
  | (.ok d, s) => match jobCheck s d with
  | some r => jobResults z a 0 0 0 3 r (taken s)
  | none =>
    if jOp d != 1 && jOp d != 2 then
      let (r, s) := (taken s).draw 0xB0
      jobResults z a 0 0 0 3 (r % 65536) s
    else if jInline d && jOp d = 1 && !outReady s d then s
    else showCmp (runJob z a d (taken s))

/-- A job of engine z is over: the engine is idle, its context is kept for 60 s after a stop, else freed (R403). DEDUCED: log 67. -/
def jobOver (z : CmpIx) (j : CmpJob) (status : Nat) (s : State) : State :=
  let s := s.updCmp fun x => { x with jobs := x.jobs.filter fun k => k.eng != z }
  let s := match j.ctx with
    | none => s
    | some n => if status = 2 then updCtx n (fun c => { c with expires := some (s.tim.local_ + 60000000000) }) s else freeCtx n s
  showCmp s

/-- Whether a pause holds a job at a block boundary (R290): the completion queue of its command is paused, and the job has more than
one block, after the last of which it ends. -/
def jobHeld (s : State) (j : CmpJob) : Bool :=
  let d := s.sramRead j.addr 64
  max (jInLen d) j.produced > 131072 && ((tagOf s (jTag d)).map (cqPaused s)).getD false

/-- The job of engine z ends (R404, R405): its output is written, its results posted. A sealing write that is refused fails the job. -/
def jobComplete (z : CmpIx) (s : State) : State :=
  match zJob s z with
  | none => s
  | some j =>
    if jobHeld s j then s else
    let d := s.sramRead j.addr 64
    let (lost, s) := writeListed (.comp z) (jOutList d) j.out s
    let status := if lost.isNone then j.status else 3
    let reason := lost.getD j.reason
    let s := (s.bump (R.cmpInBytes z) j.consumed).bump (R.cmpOutBytes z) j.produced
    jobResults z j.addr j.consumed j.produced (if status = 2 then j.rhandle else 0) status reason (jobOver z j status s)

/-- The copies of engine z disagree (R398) when `sent` bytes of output have left it. -/
def lockstepMismatch (z : CmpIx) (sent : Nat) (s : State) : State :=
  match zJob s z with
  | none => s
  | some j =>
    let d := s.sramRead j.addr 64
    let out := j.out.take sent
    let (_, s) := writeListed (.comp z) (jOutList d) out s
    let s := s.setBitOf R.cmpStatFailed z
    jobResults z j.addr 0 out.length 0 3 0x0B08 (jobOver z j 3 s)

/-- Whether a resume consumed and not ended holds a context (R403). -/
def resumeHeld (s : State) (c : CmpCtx) : Bool :=
  s.hqi.tags.any fun t => (t.op == 0x84 || t.op == 0x85) && bitAt t.flags 3 && t.fn == c.fn && t.csp 44 2 == c.handle && !t.done

/-- 60 s have passed since the stop that left a context (R403). -/
def contextExpiry (n : Nat) (s : State) : State :=
  match s.cmp.ctxs.find? fun c => c.num == n with
  | some c => if (c.expires.map fun t => decide (t ≤ s.tim.local_ + 10000000)).getD false && !resumeHeld s c then showCmp (freeCtx n s) else s
  | none => s

/-- CMP_JPI written (R405). -/
def jobSubmit (count : Nat) (s : State) : State := s.wr R.cmpJpiCount count

/-- The class of a failed job (Table 14.5; Table 12.3 for a tile). -/
def jobClass (reason : Nat) : Nat :=
  if reason == 0x0B01 || reason == 0x0B02 || reason == 0x0B03 || reason == 0x020C then 1
  else if reason == 0x0B08 then 6
  else 3

/-- A COMPRESS or DECOMPRESS whose job has ended completes (R336, R402): the output goes to host memory first, each tile
as a use. A check that failed at the job's start completes the command with class 1. -/
def cmpCommand (op n : Nat) (s : State) : State :=
  match cmdAt s n op with
  | none => s
  | some t =>
    match t.job with
    | none => s
    | some a =>
      let d := s.sramRead a 64
      let consumed := leAt d 48 4
      let produced := leAt d 52 4
      let reason := leAt d 60 2
      let (l, s) := readListed (.hqi 0) (jOutList d) produced s
      match l with
      | .error r => finish n 3 r (consumed % 2 ^ 24) s
      | .ok l =>
        let s := if produced = 0 then s else hostWrite t.fn (t.csp 32 8) (l.take produced) s
        let result := consumed % 2 ^ 24 + produced % 2 ^ 24 * 2 ^ 24 + leAt d 56 2 * 2 ^ 48
        if leAt d 58 1 = 3 then finish n (jobClass reason) reason result s else finish n 0 0 result s

/-- JOB_SUBMIT. -/
def execJobSubmit (count : Nat) (s : State) : Out := done (jobSubmit count s)
/-- JOB_START. -/
def execJobStart (z : CmpIx) (s : State) : Out := hostDone (jobStart z) s
/-- JOB_COMPLETE. -/
def execJobComplete (z : CmpIx) (s : State) : Out := hostDone (jobComplete z) s
/-- LOCKSTEP_MISMATCH. -/
def execLockstepMismatch (z : CmpIx) (sent : Nat) (s : State) : Out := hostDone (lockstepMismatch z sent) s
/-- CONTEXT_EXPIRY. -/
def execContextExpiry (n : Fin 64) (s : State) : Out := done (contextExpiry n s)
/-- COMPRESS. -/
def execCompress (n : Nat) (s : State) : Out := hostDone (fun s => cmpCommand 0x84 n (admitAll s)) s
/-- DECOMPRESS. -/
def execDecompress (n : Nat) (s : State) : Out := hostDone (fun s => cmpCommand 0x85 n (admitAll s)) s

end Sys2Proof.Machine
end

