-- ==== Sys2Proof/Machine/Reset.lean ====
section
/-! DEFINITION. The three reset levels (R430 to R434), their sources, power fail (R447, R448) and the Ember commit. -/

namespace Sys2Proof.Machine

/-- A register file that holds nothing but some fields of another. -/
def keepOnly (fs : List Fld) (r : RegFile) : RegFile := fs.foldl (fun n f => RegFile.wr n f (RegFile.rd r f)) []

/-- The bits of LAMP_CAUSE (R450). -/
def causeFlds : List Fld :=
  [R.lampCausePor, R.lampCauseMainsup, R.lampCausePin, R.lampCausePerst, R.lampCausePfret, R.lampCauseBoottmo,
   R.lampCauseSwsys, R.lampCauseFwact, R.lampCauseMtl, R.lampCauseDbg, R.lampCauseSwcore, R.lampCauseWdt]

/-- Fields whose reset value is an option or a fuse, and fields that show pins and monitors: no reset changes them. DESIGN CHOICE: log 9. -/
def pinFlds : List Fld :=
  [R.mtlFprFpr, R.mtlArcCount, R.mtlKeysEsc, R.fltVmonOut, R.clkSrcX32, R.clkSrcRef, R.clkSrcXtal, R.pwrStatPf,
   R.bufRepairSram, R.bufRepairEmber, R.bufRepairValid] ++
  [R.lampStatFailcnt, R.lampStatRecovMax, R.lampStatTrial, R.lampStatPref, R.lampOptSsid, R.lampOptSsvid, R.lampOptMem,
   R.lampOptPcie, R.lampOptPosEn, R.lampOptPerstLvl, R.lampOptDbglock, R.lampOptBootsrc, R.calRegionBase, R.calRegionSize,
   R.bufCfgDens, R.bufCfgSpeed] ++ (List.range 8).map fun p => R.posCfgPack p

/-- Fields that a system reset keeps beside those: the Ember domain's (R417), TIME, which resumes (R478), and fenced lanes
(R164). -/
def emberFlds : List Fld :=
  causeFlds ++ [R.pwrRtcCount, R.pwrStatRc, R.timeNowNs, R.timeStatUnset] ++
  (List.range 8).flatMap fun p => [R.srvLaneFenceA p, R.srvLaneFenceB p]

/-- POUR_ABANDONED for every rank whose write gates are open, its snuff source recorded as block reset (R96). -/
def abandonAll (s : State) : State :=
  s.forEach allPos fun p s =>
    let rs := s.packs[p].casts.flatMap fun c => c.ranks.filter fun r => r.phase == .pouring
    rs.foldl (fun s r => jappend p (.pourAbandoned r.n (rankLayer r.n) 8 r.slot) s) s

/-- Snuff sources that stand outside the position: SHOCK_Np low, and the supply source (R82, R475). -/
def raisePins (p : PosIx) (s : State) : State :=
  let s := if bitAt s.pins.shock p then raiseSnuff p 2 s else s
  if s.rd R.fltVmonOut != 0 || s.pins.pwrFail then raiseSnuff p 7 s else s

/-- What both wider levels reset (Table 16.1): everything but the Ember store, the flash, the pins, the PF8s, what the
host was sent, policy, the uncast-range lists and the numbering. DESIGN CHOICE: log 9; DEDUCED: log 39. -/
def resetDevice (kept : List Fld) (s : State) : State :=
  let s := s.forEach allPos packGone
  let l := s.lamp
  let regs := keepOnly kept s.regs
  let t : State :=
    { s with regs := regs, sram := [], gddr := [],
             marks := s.marks.filter fun e => emberBase ≤ e.1 && e.1 < emberBase + emberSize,
             resp := .none, halted := [], waitq := [],
             buf := { ceTab := [], exhausted0 := [], exhausted1 := [], retrain0 := false, retrain1 := false, selfRefresh := false },
             cch := { lines := [], plru := [], evb := [] },
             perf := { live := Vector.replicate 6 (Vector.replicate 12 0), flight := Vector.replicate 6 0,
                       sample := Vector.replicate 6 { countdown := 0, marked := none, drawn := 0 } },
             tim := { s.tim with hold := 0, setSec := none, lastEdge := none, avgCount := 0, avgSum := 0, sinceAcq := 0,
                                 beyond := 0, acquire := regs.rd R.timeStatUnset == 1 },
             pos := s.pos.map fun x => { PosState.reset with encA := x.encA, encB := x.encB, pf8 := x.pf8 },
             spares := s.spares.map fun x => match x with | .joined _ => .free | y => y,
             eng := Vector.replicate 24 .reset, stripes := [],
             hqi := { HqiState.reset with aseq := s.hqi.aseq, aseqEnd := s.hqi.aseqEnd, lanesBad := s.hqi.lanesBad,
                                          refclk := s.hqi.refclk, linkUp := false },
             fns := Vector.replicate 16 .reset, cal := .reset, cmp := .reset,
             mtl := { MtlState.reset with escrow := s.mtl.escrow, trngBad := s.mtl.trngBad },
             lamp := { l with relDue := false, waiting := false, started := false, deadline := false, header := [],
                              fwact := none, dlNext := none, wdRun := false, blk := none, restarting := none } }
  eachPos raisePins t

/-- The system level is applied (Table 16.1, R96): the Ember commit runs, and every block but the Ember domain and the
debug logic resets. -/
def systemReset (s : State) : State :=
  let s := fltDrain (journalDrain (abandonAll s))
  let s := (resetDevice (pinFlds ++ emberFlds) s).set1 R.pwrStatEmbkept
  s.updLamp fun l => { l with level := some .system, commit := true }

/-- The power-on level is applied (Table 16.1): the Ember domain is cleared too; numbering resumes from the reservations
(R309, R91, R476), TIME starts at 0 with UNSET set (R478). DESIGN CHOICE: log 11. -/
def powerOnReset (s : State) : State :=
  let s : State :=
    { s with journal := { s.journal with pend := [], next := s.journal.seqEnd },
             flt := { s.flt with pend := [], nextSeq := s.flt.seqEnd },
             hqi := { s.hqi with aseq := s.hqi.aseqEnd },
             spares := Vector.replicate 2 .free,
             tim := { s.tim with frac := 0, local_ := 0 },
             pins := { s.pins with testMode := false, extest := false } }
  let s := ((resetDevice pinFlds s).set1 R.lampCausePor).set1 R.clkSrcX32
  s.updLamp fun l => { l with level := some .power, commit := false, dbgSys := false, dbgCore := false }

/-- The core level is applied (Table 16.1, R433, R444): the cores are held; the boot-ok deadline and the watchdog's count
stop; a debug nonce ends (R462). -/
def coreReset (s : State) : State :=
  let s := ((s.wr R.lampCrelRel 0).clr1 R.lampCrelC0).clr1 R.lampStatBootok
  let s : State := { s with waitq := s.waitq.filter fun w => match w.1 with | .core _ => false | _ => true }
  (s.updMtl fun m => { m with nonce := none }).updLamp fun l =>
    { l with level := some .core, waiting := false, deadline := false, wdRun := false }

/-- A source asserts a level (R434): the widest is applied; a system or power-on reset waits for the end of a running
Ember commit. DEDUCED: log 38. -/
def assertLevel (lvl : Level) (s : State) : State :=
  match lvl, s.lamp.level with
  | .core, none => coreReset s
  | .core, some .core => coreReset s
  | .core, _ => s
  | .system, some .system => s
  | .system, some .power => s
  | .system, _ =>
    if s.lamp.commit then s.updLamp fun l => { l with arrived := some (l.arrived.getD .system) } else systemReset s
  | .power, some .power => s
  | .power, _ => if s.lamp.commit then s.updLamp fun l => { l with arrived := some .power } else powerOnReset s

/-- A reset source asserts (R431): its bit of LAMP_CAUSE, its hold if it is a held one, and its level. DEDUCED: log 38. -/
def raiseSource (cause : Fld) (lvl : Level) (hold : LampState → LampState) (s : State) : State :=
  assertLevel lvl ((s.set1 cause).updLamp hold)

/-- Whether a held source stands at a level or a wider one (R434). DEDUCED: log 38. -/
def heldAt (s : State) (lvl : Level) : Bool :=
  let l := s.lamp
  l.porHeld || (lvl != .power && (l.mainHeld || l.pinHeld || l.perstHeld || l.dbgSys || l.pfHeld)) ||
  (lvl == .core && l.dbgCore)

/-- PERST_N falls (R432): the system level when PERST_LVL is 1, else the endpoint alone. DEDUCED: log 49. -/
def perstAssert (s : State) : State :=
  if s.bit R.lampOptPerstLvl then raiseSource R.lampCausePerst .system (fun l => { l with perstHeld := true }) s
  else
    let s := (pcieDown s).updHqi fun h => { h with msix := [] }
    { s with pins := { s.pins with perst := true } }

/-- Whether the PCIe link can be up: the reference clock runs, PERST_N is high and a lane is left (R270, R406, R432). DEDUCED: log 41. -/
def linkCan (s : State) : Bool := s.hqi.refclk && !s.pins.perst && s.hqi.width > 0

/-- PERST_N rises: the endpoint's link trains again, or the held system source releases. DEDUCED: log 49. -/
def perstRelease (s : State) : State :=
  if s.bit R.lampOptPerstLvl then s.updLamp fun l => { l with perstHeld := false }
  else
    let s : State := { s with pins := { s.pins with perst := false } }
    let on := s.lamp.level != some .system && s.lamp.level != some .power
    s.updHqi fun h => { h with linkUp := h.linkUp || (linkCan s && on) }

/-- The sequence stops, and the system level is held without a commit (R447): what it had loaded so far goes. -/
def holdStart (s : State) : State :=
  let s := if s.lamp.level == some .power || s.lamp.level == some .system then s else resetDevice (pinFlds ++ emberFlds) s
  s.updLamp fun l =>
    { l with pfHeld := true, waiting := false, relDue := false, level := if l.level == some .power then l.level else some .system }

/-- PWRFAIL_N falls (R447): the supply source on every position, PWR_STAT.PF, and the Ember commit. Before the release of
C0 the sequence stops instead. DEDUCED: log 42. -/
def powerFail (s : State) : State :=
  if s.pins.pwrFail then s else
  let s : State := { s with pins := { s.pins with pwrFail := true } }
  let s := eachPos (fun p s => raiseSnuff p 7 s) (s.set1 R.pwrStatPf)
  if !s.lamp.started then holdStart s
  else
    let s := eachPos (fun p s => carPowerFail p (spnPowerFail p s)) s
    (fltDrain (journalDrain s)).updLamp fun l => { l with commit := true }

/-- PWRFAIL_N has been high for 10 ms with every supply in range (R448). DEDUCED: log 42. -/
def powerReturn (s : State) : State :=
  if !s.pins.pwrFail || s.rd R.fltVmonOut != 0 then s else
  let s := ({ s with pins := { s.pins with pwrFail := false } } : State).clr1 R.pwrStatPf
  let s := eachPos (fun p s => releaseSnuff p 7 s) s
  raiseSource R.lampCausePfret .system (fun l => { l with pfHeld := false }) s

/-- A monitor has stayed out of range for 1 ms (R475). -/
def mainSupplyFault (s : State) : State :=
  if s.rd R.fltVmonOut = 0 then s else raiseSource R.lampCauseMainsup .system (fun l => { l with mainHeld := true }) s

/-- A request of the debug port, while debug is unlocked (R431). -/
def debugReset (sys : Bool) (s : State) : State :=
  if !debugOpen s then s
  else if sys then raiseSource R.lampCauseDbg .system (fun l => { l with dbgSys := true }) s
  else raiseSource R.lampCauseDbg .core (fun l => { l with dbgCore := true }) s

/-- LAMP_SWRST written (Table 16.9): ignored without the key. -/
def softReset (cause : Fld) (lvl : Level) (key : Nat) (s : State) : State :=
  if key = 0xA5 then raiseSource cause lvl id s else s

/-- Mantle's memory or its watchdog fails (R466). -/
def mantleFault (s : State) : State :=
  raiseSource R.lampCauseMtl .system id ((s.wr R.mtlReasonCode 0x0C0A).log 0x0C0A srcMantle noPos 0 0)

/-- POWER_ON_RESET. -/
def execPowerOnReset (s : State) : Out := done (assertLevel .power (s.updLamp fun l => { l with porHeld := true }))
/-- MAIN_SUPPLY_FAULT. -/
def execMainSupplyFault (s : State) : Out := done (mainSupplyFault s)
/-- RESET_PIN. -/
def execResetPin (s : State) : Out := done (raiseSource R.lampCausePin .system (fun l => { l with pinHeld := true }) s)
/-- PERST_ASSERT. -/
def execPerstAssert (s : State) : Out := hostDone perstAssert s
/-- PERST_RELEASE. -/
def execPerstRelease (s : State) : Out := done (perstRelease s)
/-- SOFTWARE_SYSTEM_RESET. -/
def execSoftwareSystemReset (key : Nat) (s : State) : Out := done (softReset R.lampCauseSwsys .system key s)
/-- SOFTWARE_CORE_RESET. -/
def execSoftwareCoreReset (key : Nat) (s : State) : Out := done (softReset R.lampCauseSwcore .core key s)
/-- DEBUG_RESET_REQUEST. -/
def execDebugResetRequest (sys : Bool) (s : State) : Out := done (debugReset sys s)
/-- POWER_FAIL. -/
def execPowerFail (s : State) : Out := done (powerFail s)
/-- POWER_RETURN. -/
def execPowerReturn (s : State) : Out := done (powerReturn s)
/-- MANTLE_FAULT. -/
def execMantleFault (s : State) : Out := done (mantleFault s)

end Sys2Proof.Machine
end

