-- ==== Sys2Proof/Machine/Boot.lean ====
section
/-! DEFINITION. The Lamplighter sequence (R436 to R441): option bytes, images and slots, the release of C0, boot-ok and
the watchdog (R444). -/

namespace Sys2Proof.Machine

/-- Bytes of the SPI flash; an erased byte reads 0xFF. -/
def flashRead (m : List (Nat × Byte)) (a n : Nat) : List Byte :=
  (List.range n).map fun i => (Assoc.get (a + i) m).getD 0xFF
def programmed (b : Byte) : Bool := b != 0xFF

/-- The option page's own check (R436): CRC-32C over bytes 0 to 251, MAGIC and VER. -/
def optionOk (b : List Byte) : Bool :=
  leAt b 252 4 == crc32c (slice b 0 252) && leAt b 0 4 == 0x4F505447 && leAt b 4 2 == 0x0100

/-- A field of the option page, or its default (Table 16.4). -/
def optionOr (ok : Bool) (b : List Byte) (at_ n dflt : Nat) : Nat := if ok then leAt b at_ n else dflt

/-- LAMP_STAT mirrors the boot record (R439). -/
def showBoot (s : State) : State :=
  ((s.wr R.lampStatFailcnt s.lamp.failcnt).wr R.lampStatTrial (if s.lamp.trial then 1 else 0)).wr R.lampStatPref s.lamp.pref

/-- The part mask of OTP over positions (R2). -/
def partMask (s : State) : Nat := if s.part == .oa824 then 0xFF else 0x0F

/-- The OTP fields that the part shows (R8): the fingerprint of its identity key (R55), the anti-rollback fuses blown, of which
those blown in the field stay (R461), the escrow slots enrolled (R455), and the spares in use (R359). -/
def readFuses (s : State) : State :=
  let s := (s.wr R.mtlFprFpr (leNat (shake256 8 Config.identityKey))).wr R.mtlArcCount (max (s.rd R.mtlArcCount) (min 64 Config.otpFuses))
  let s := s.wr R.mtlKeysEsc (2 ^ s.mtl.escrow.length - 1)
  ((s.wr R.bufRepairSram (Config.otpSpares 0)).wr R.bufRepairEmber (Config.otpSpares 1)).wr R.bufRepairValid (Config.otpSpares 2)

/-- Step 1 (R436, R437): the option bytes are read, checked and applied; the positions that stay disabled no longer hold
back LASER_EN. DESIGN CHOICE: log 9; DEDUCED: log 43. -/
def readOptions (s : State) : State :=
  let b := s.emberRead emberBase 256
  let ok := optionOk b
  let o := optionOr ok b
  let s := if ok then s.clr1 R.lampStatOpterr else (s.set1 R.lampStatOpterr).log 0x0E08 srcLamp noPos 0 0
  let en := andBits (o 8 1 0xFF) (partMask s)
  let mem := o 10 1 0x51
  let rec_ := o 7 1 3 % 16
  let s := s.wr R.lampStatRecovMax (if rec_ = 0 then 3 else rec_)
  let s := (s.wr R.lampOptBootsrc (o 6 1 0)).wr R.lampOptPosEn en
  let s := (s.wr R.lampOptPcie (o 9 1 0x58)).wr R.lampOptMem mem
  let s := (s.wr R.lampOptDbglock (if o 11 1 1 % 2 = 1 || Config.otpDbgLock then 1 else 0)).wr R.lampOptPerstLvl (o 12 1 0)
  let s := (s.wr R.lampOptSsvid (o 18 2 Config.otpSsvid.toNat)).wr R.lampOptSsid (o 20 2 Config.otpSsid.toNat)
  let s := (s.wr R.calRegionBase (o 14 2 0x0010)).wr R.calRegionSize (o 16 1 0x40)
  let s := (s.wr R.bufCfgDens (mem % 4)).wr R.bufCfgSpeed (mem / 16)
  let s := s.wr R.pwrSafePos (andBits (s.rd R.pwrSafePos) en)
  let s := readFuses s
  s.updLamp fun l => { l with slotA := o 24 2 0, slotB := o 26 2 0x80 }

/-- Step 2 (Table 16.5): the sources are present, PLL_CORE and PLL_SRV lock; the PCIe link comes up as wide as options
and lanes allow (R268, R270). DEDUCED: log 41. -/
def startClocks (s : State) : State :=
  let s := (((s.set1 R.clkSrcXtal).set1 R.clkSrcRef).set1 (R.clkPllLock 0)).set1 (R.clkPllLock 5)
  let w := min (s.rd R.lampOptPcie % 16) (widest s.hqi.lanesBad)
  let s := s.updHqi fun h => { h with refclk := true, width := w }
  let s := s.updHqi fun h => { h with linkUp := linkCan s }
  if s.hqi.linkUp then s.set1 (R.clkPllLock 6) else s

/-- The flash base of a slot: 0 for A, 1 for B. -/
def slotBase (s : State) (slot : Nat) : Nat := (if slot = 0 then s.lamp.slotA else s.lamp.slotB) * 65536

/-- Whether an image is authentic (R460), and not rolled back (R439, R461). DESIGN CHOICE: log 26. -/
def imageAuthentic (s : State) (h code : List Byte) : Bool :=
  let d := imageDigest h code
  Config.ed448 0 d (slice h 64 114) &&
  (if Config.enrolled 2 then Config.ed448 2 d (slice h 192 114) else slice h 192 114 == List.replicate 114 0) &&
  s.rd R.mtlArcCount ≤ leAt h 16 4 && leAt h 16 4 ≤ 64

/-- Whether a header is right (R439, Table 16.6). DEDUCED: log 40. -/
def headerOk (h : List Byte) : Bool :=
  let len := leAt h 20 4
  let load := leAt h 24 8
  leAt h 0 4 == 0x4D494D47 && leAt h 4 2 == 0x0100 && 1 ≤ len && len ≤ 8384512 && load % 4096 == 0 &&
  sramBase ≤ load && load + len ≤ sramBase + sramSize

/-- Header and code of a slot, where it is valid (R439). DEDUCED: log 40. -/
def slotImage (s : State) (slot : Nat) : Option (List Byte × List Byte) :=
  let a := slotBase s slot
  let h := flashRead s.lamp.flash a 4096
  if !headerOk h then none else
  let code := flashRead s.lamp.flash (a + 4096) (leAt h 20 4)
  if imageAuthentic s h code then some (h, code) else none

/-- The image of a slot lies in SRAM (steps 6 and 7). -/
def useImage (slot : Nat) (x : List Byte × List Byte) (s : State) : State :=
  ((s.sramWrite (leAt x.1 24 8) x.2).wr R.lampStatSlot slot).updLamp fun l => { l with header := x.1 }

/-- Recovery mode is entered for a reason (R439, R441). DEDUCED: log 40. -/
def enterRecovery (reason : Nat) (s : State) : State :=
  ((s.set1 R.lampStatRecovery).log reason srcLamp noPos 0 0).updLamp fun l => { l with header := [] }

/-- Slot p, then the other, else recovery mode (R439): a start tries the preferred slot first. -/
def loadImage (p : Nat) (s : State) : State :=
  match slotImage s p with
  | some x => useImage p x s
  | none =>
    let s := s.log 0x0E03 srcLamp noPos 0 p
    match slotImage s (1 - p) with
    | some x => useImage (1 - p) x s
    | none => enterRecovery 0x0E04 s

/-- The sequence after a power-on or system reset (Table 16.5), up to the release of C0. DEDUCED: log 37. -/
def bootSequence (s : State) : State :=
  let s := showBoot (startClocks (readOptions (s.clr1 R.lampStatRecovery)))
  let s := if s.lamp.failcnt ≥ s.rd R.lampStatRecovMax || s.bit R.lampOptBootsrc then enterRecovery 0x0E0B s else loadImage s.lamp.pref s
  s.updLamp fun l => { l with level := none, waiting := true }

/-- The end of a core reset (R437): the image held in SRAM is verified again, and where it fails copied again from the slot that
it came from. DEDUCED: log 40. -/
def coreSequence (s : State) : State :=
  let h := s.lamp.header
  let s := if s.bit R.lampStatRecovery || imageAuthentic s h (s.sramRead (leAt h 24 8) (leAt h 20 4)) then s
    else loadImage (s.rd R.lampStatSlot) s
  s.updLamp fun l => { l with level := none, waiting := true }

/-- The level applied is left (R434). -/
def leaveLevel (s : State) : State :=
  let s := s.updLamp fun l => { l with relDue := false }
  match s.lamp.level with
  | none => s
  | some .core => coreSequence s
  | some _ => bootSequence s

/-- The held sources of a level release. DEDUCED: log 38. -/
def dropHeld (lvl : Level) (s : State) : State :=
  s.updLamp fun l => match lvl with
  | .power => { l with porHeld := false }
  | .system => { l with mainHeld := l.mainHeld && s.rd R.fltVmonOut != 0, pinHeld := false, perstHeld := false, dbgSys := false }
  | .core => { l with dbgCore := false }

/-- EMB cycles pass in reset: PWR_RTC counts, and after a system reset TIME is carried forward by 30,517.578 ns each
(R478). DEDUCED: log 39. -/
def carryTime (cycles : Nat) (s : State) : State :=
  let ns := (openRound 0x54 (cycles * 30517578) 1000).toNat
  let s := s.tickUp R.pwrRtcCount cycles
  let s : State := { s with tim := { s.tim with local_ := s.tim.local_ + ns } }
  if s.lamp.level == some .system then s.tickUp R.timeNowNs ns else s

/-- The last source of a level releases (R434). A wider level gives way to a narrower one still held; the sequence waits
for the Ember commit. DEDUCED: log 37. -/
def resetRelease (lvl : Level) (cycles : Nat) (s : State) : State :=
  let s := dropHeld lvl s
  match s.lamp.level with
  | none => s
  | some .core => if heldAt s .core then s else leaveLevel s
  | some cur =>
    if heldAt s cur then s
    else
      let s := carryTime cycles s
      if heldAt s .system then s.updLamp fun l => { l with level := some .system }
      else if s.lamp.commit then s.updLamp fun l => { l with relDue := true }
      else leaveLevel s

/-- The Ember commit ends (R96, R434): a level that waited for it is applied, a sequence that waited begins. -/
def emberCommitDone (s : State) : State :=
  if !s.lamp.commit then s else
  let s := s.updLamp fun l => { l with commit := false }
  match s.lamp.arrived with
  | some lvl => assertLevel lvl (s.updLamp fun l => { l with arrived := none })
  | none => if s.lamp.relDue then leaveLevel s else s

/-- Verdicts held through a core reset are taken when firmware runs again (R95, R433). -/
def decideHeld (s : State) : State :=
  s.forEach allPos fun p s =>
    let rs := s.packs[p].casts.flatMap fun c => c.ranks.filter fun r => r.phase == .awaiting && r.posted == 255
    rs.foldl (fun s r => rankDecide p r.n s) s

/-- C0 is released at ENTRY (R437, R440, R441, R444): the boot-ok deadline starts and the watchdog's count restarts, but in
recovery mode. DEDUCED: log 37. -/
def c0Release (s : State) : State :=
  if !s.lamp.waiting || s.lamp.level.isSome || s.lamp.dbgCore || s.pins.pwrFail then s else
  let run := !s.bit R.lampStatRecovery
  let wd := run && s.bit R.lampWdtEn
  let s := (s.set1 R.lampCrelC0).updLamp fun l =>
    { l with waiting := false, started := true, deadline := run, wdRun := wd, wdStart := s.tim.local_ }
  admitAll (decideHeld (showMode s))

/-- LAMP_BOOTOK.OK (R440, R461). `fuses`: the anti-rollback fuses blown once Mantle has tried to raise the counter. -/
def bootOk (fuses : Nat) (s : State) : State :=
  if !fwUp s || s.bit R.lampStatRecovery then s else
  let svn := leAt s.lamp.header 16 4
  let old := s.rd R.mtlArcCount
  let s :=
    if s.lamp.trial && old < svn then
      let n := max old (min fuses svn)
      let s := s.wr R.mtlArcCount n
      if n < svn then (s.wr R.mtlReasonCode 0x0C07).log 0x0C07 srcMantle noPos 0 n else s
    else s
  showBoot ((s.set1 R.lampStatBootok).updLamp fun l => { l with deadline := false, failcnt := 0, trial := false })

/-- No boot-ok within 2 s (R440); a start that PWRFAIL_N cut short does not count. DEDUCED: log 7. -/
def bootDeadline (s : State) : State :=
  if !s.lamp.deadline || s.pins.pwrFail then s else
  let s := (s.log 0x0E01 srcLamp noPos 0 0).updLamp fun l =>
    { l with deadline := false, failcnt := min 15 (l.failcnt + 1), pref := if l.trial then 1 - l.pref else l.pref, trial := false }
  raiseSource R.lampCauseBoottmo .system id (showBoot s)

/-- LAMP_WDT written with EN (R444): PERIOD is taken while EN is 0. -/
def watchdogEnable (period : Nat) (s : State) : State :=
  if s.bit R.lampWdtEn then s else
  ((s.wr R.lampWdtPeriod period).set1 R.lampWdtEn).updLamp fun l =>
    { l with wdRun := fwUp s && !s.bit R.lampStatRecovery, wdStart := s.tim.local_ }

/-- LAMP_WDKICK.KICK (R444). -/
def watchdogKick (s : State) : State :=
  if s.bit R.lampWdtEn && s.lamp.wdRun then s.updLamp fun l => { l with wdStart := s.tim.local_ } else s

/-- PERIOD in nanoseconds, as it acts (Table 16.9). -/
def watchdogPeriod (s : State) : Nat := 1000 * max 0x32 (min 0xF4240 (s.rd R.lampWdtPeriod))

/-- PERIOD without a kick (R444): before that the expiry is not due. -/
def watchdogExpiry (s : State) : State :=
  if s.bit R.lampWdtEn && s.lamp.wdRun && s.tim.local_ ≥ s.lamp.wdStart + watchdogPeriod s then
    raiseSource R.lampCauseWdt .core id (s.log 0x0E02 srcLamp noPos 0 0)
  else s

/-- RESET_RELEASE. -/
def execResetRelease (lvl : Level) (cycles : Nat) (s : State) : Out := done (resetRelease lvl cycles s)
/-- EMBER_COMMIT_DONE. -/
def execEmberCommitDone (s : State) : Out := done (emberCommitDone s)
/-- C0_RELEASE. -/
def execC0Release (s : State) : Out := hostDone c0Release s
/-- BOOT_OK. -/
def execBootOk (fuses : Nat) (s : State) : Out := done (bootOk fuses s)
/-- BOOT_DEADLINE_EXPIRY. -/
def execBootDeadlineExpiry (s : State) : Out := done (bootDeadline s)
/-- WATCHDOG_ENABLE. -/
def execWatchdogEnable (period : Nat) (s : State) : Out := done (watchdogEnable period s)
/-- WATCHDOG_KICK. -/
def execWatchdogKick (s : State) : Out := done (watchdogKick s)
/-- WATCHDOG_EXPIRY. -/
def execWatchdogExpiry (s : State) : Out := done (watchdogExpiry s)

end Sys2Proof.Machine
end

