-- ==== Sys2Proof/Machine/Calibration.lean ====
section
/-! DEFINITION. Calibration (chapter 8): the record region of the Ember store, lookups and stores, the injection, and
OPC runs with their evaluation. -/

namespace Sys2Proof.Machine

/-- A calibration record in the region (Table 8.3): its offset in the Ember store, its bytes, and whether its CRC
holds. -/
structure CalRec where
  off : Nat
  raw : List Byte
  ok : Bool
  deriving DecidableEq, Repr

def CalRec.kind (r : CalRec) : Nat := leAt r.raw 0 1
def CalRec.temp (r : CalRec) : Int := toSigned 16 (leAt r.raw 6 2)
def CalRec.tag (r : CalRec) : Nat := leAt r.raw 8 8
def CalRec.time (r : CalRec) : Nat := leAt r.raw 16 8
def CalRec.failed (r : CalRec) : Bool := bitAt (leAt r.raw 25 1) 0

/-- Bytes of a record, by its LEN: 64, or 192 for kind 0x06. -/
def recSize (raw : List Byte) : Nat := if leAt raw 1 1 = 6 then 192 else 64

/-- Whether a record's check word holds (R230). -/
def calCrcOk (raw : List Byte) : Bool :=
  leAt raw (recSize raw - 4) 4 == crc32c (slice raw 0 (recSize raw - 4)) && (leAt raw 1 1 == if leAt raw 0 1 = 6 then 6 else 2)

/-- The region's fabric address and size in bytes (CAL_REGION). -/
def calBase (s : State) : Nat := emberBase + s.rd R.calRegionBase * 65536
def calSize (s : State) : Nat := s.rd R.calRegionSize * 65536

/-- The records of the region in order: slots whose KIND is not zero, each with the slots that its LEN takes. -/
def calRecords (s : State) : List CalRec :=
  let base := calBase s
  let starts := (s.ember.filter fun c => base ≤ c.1 && c.1 < base + calSize s && (c.1 - base) % 64 == 0).map (·.1)
  (starts.foldl (fun (a : Nat × List CalRec) at_ =>
    if at_ < a.1 then a else
    let raw := s.emberRead at_ 192
    let raw := raw.take (recSize raw)
    (at_ + raw.length, a.2 ++ [{ off := at_, raw := raw, ok := calCrcOk raw }])) (0, [])).2

/-- Whether two records, or a record and a key's bytes, have one key (Table 8.1). -/
def sameKey (a b : List Byte) : Bool :=
  let kind := leAt a 0 1
  kind == leAt b 0 1 && leAt a 2 1 == leAt b 2 1 &&
    (kind ≥ 7 || (leAt a 8 8 == leAt b 8 8 && leAt a 3 1 == leAt b 3 1 && leAt a 4 1 == leAt b 4 1 &&
      ((kind != 1 && kind != 6) || leAt a 5 1 == leAt b 5 1)))

/-- The key of a lookup as the first bytes of a record. -/
def CalKey.bytes (k : CalKey) : List Byte :=
  leBytes 1 k.kind ++ leBytes 1 2 ++ leBytes 1 k.pos ++ leBytes 1 k.surf ++ leBytes 1 k.layer ++ leBytes 1 k.zg ++
    leBytes 2 k.temp ++ leBytes 8 k.tag

/-- Whether a kind holds records at several temperatures on this part (R231, R232). -/
def manyTemps (s : State) (kind : Nat) : Bool := s.part == .oa824 && 1 ≤ kind && kind ≤ 5

/-- Whether record b, of the same key, governs over a (R234). -/
def governs (many : Bool) (a b : CalRec) : Bool :=
  a.off != b.off && a.time < b.time && (!many || (a.temp - b.temp).natAbs ≤ 40)

/-- The valid records of a key that govern. DEDUCED: log 89. -/
def keyRecords (s : State) (key : List Byte) : List CalRec :=
  let l := (calRecords s).filter fun r => r.ok && sameKey r.raw key
  l.filter fun a => !l.any fun b => governs (manyTemps s (leAt key 0 1)) a b

/-- The fields of a value that interpolation treats, as (byte, bytes, signed) (Table 8.4). -/
def valueFields : Nat → List (Nat × Nat × Bool)
  | 1 => [(28, 2, false), (30, 2, false), (32, 2, false), (34, 2, false)]
  | 2 => [(28, 4, true), (32, 2, true), (36, 4, true)]
  | 3 => [(28, 4, true), (32, 2, true), (36, 4, true)]
  | _ => [(28, 2, true)]

/-- The value a fraction num/den of the way from a to b, rounded half up. -/
def between (a b num den : Int) : Int := a + roundHalfUp ((b - a) * num) den

/-- The record between two at a temperature, field by field (R231). DEDUCED: log 89. -/
def interpolate (lo hi : CalRec) (t : Int) : List Byte :=
  (valueFields lo.kind).foldl (fun raw f =>
    let (at_, n, signed) := f
    let get := fun (r : CalRec) => if signed then toSigned (8 * n) (leAt r.raw at_ n) else (leAt r.raw at_ n : Int)
    let v := between (get lo) (get hi) (t - lo.temp) (hi.temp - lo.temp)
    raw.take at_ ++ leBytes n (ofSigned (8 * n) v) ++ raw.drop (at_ + n)) (slice lo.raw 0 28 ++ List.replicate 36 0)

/-- The nearest record in temperature. -/
def nearest (t : Int) (l : List CalRec) : Option CalRec :=
  l.find? fun r => l.all fun q => (r.temp - t).natAbs ≤ (q.temp - t).natAbs

/-- The record of least distance below (or at or above) a temperature. -/
def below (t : Int) (l : List CalRec) : Option CalRec := nearest t (l.filter fun r => r.temp < t)
def above (t : Int) (l : List CalRec) : Option CalRec := nearest t (l.filter fun r => r.temp ≥ t)

/-- What a lookup gives: RESULT of CAL_LRES and the record's bytes (R231 to R233). DEDUCED: log 89. -/
def lookupResult (s : State) (key : CalKey) : Nat × List Byte :=
  let l := keyRecords s key.bytes
  let t := toSigned 16 key.temp
  let of := fun (code : Nat) (r : CalRec) => (if r.failed then 7 else code, r.raw)
  match nearest t l with
  | none => (if (calRecords s).any fun r => !r.ok && sameKey r.raw key.bytes then 6 else 5, [])
  | some n =>
    if !manyTemps s key.kind || n.temp = t then of 1 n else
    match below t l, above t l with
    | some a, some b => if a.failed || b.failed then of 2 n else (2, interpolate a b t)
    | some a, none => of 4 a
    | none, _ => of 3 n

/-- CAL_STAT.RECORDS follows the region. -/
def showRecords (s : State) : State := s.wr R.calStatRecords (satNat 16 ((calRecords s).filter (·.ok)).length)

/-- No record of a key is left to use, so that a fallback is in use: a measurement of the item is queued (R233, Table 8.6). -/
def measureSoon (key : CalKey) (s : State) : State :=
  s.forEach allPos fun p s =>
    if p.val != key.pos then s
    else if 1 ≤ key.kind && key.kind ≤ 6 then
      (if s.packs[p].status == .mounted && s.packs[p].tag == key.tag then queueRecal p key.layer (2 ^ key.surf) (2 ^ key.kind) s else s)
    else if key.kind = 7 || key.kind = 8 then { s with cal := { s.cal with looked := clrBit s.cal.looked (2 * key.pos + (key.kind - 7)) } }
    else s

/-- A lookup ends (R231, R233). -/
def lookupDone (key : CalKey) (s : State) : State :=
  let (res, raw) := lookupResult s key
  let l := keyRecords s key.bytes
  let s := if (calRecords s).any fun r => !r.ok && sameKey r.raw key.bytes then
      (s.set1 R.calStatCrcerr).log 0x0803 srcNone key.pos 0 0 else s
  let s := if res = 5 || res = 6 then measureSoon key s else s
  let s := ((s.wr R.calLresResult res).wr R.calLresNsets l.length).wr R.calLresTnear
    (((nearest (toSigned 16 key.temp) l).map fun r => leAt r.raw 6 2).getD 0)
  (List.range 20).foldl (fun s n => s.wr (R.calLvalVal n) (leAt raw (28 + 8 * n) 8)) s

/-- A record is freed: its KIND is zero (Table 8.3). -/
def freeRec (s : State) (r : CalRec) : State := s.emberWrite r.off [0]

/-- Where a record of n bytes fits in the region: at its start or after a record. -/
def roomFor (s : State) (n : Nat) : Option Nat :=
  let l := calRecords s
  let fits := fun (a : Nat) => a + n ≤ calBase s + calSize s && !l.any fun r => r.off < a + n && a < r.off + r.raw.length
  ((calBase s :: l.map fun r => r.off + r.raw.length).filter fits).min?

/-- The tag of the pack, not mounted, whose latest record is oldest (R234). -/
def oldestPack (s : State) : Option Nat :=
  let l := (calRecords s).filter fun r => r.kind < 7 && !allPos.any fun p => s.packs[p].status != .none && s.packs[p].tag == r.tag
  let latest := fun (tag : Nat) => ((l.filter fun r => r.tag == tag).map (·.time)).foldl max 0
  (l.find? fun r => l.all fun q => latest r.tag ≤ latest q.tag).map (·.tag)

/-- A record is stored (R231, R232, R234): written before what it replaces is freed; packs not mounted give way. DEDUCED: log 89. -/
def storeRec (raw : List Byte) : Nat → State → State
  | 0, s => (s.set1 R.calStatFull).log 0x0805 srcNone (leAt raw 2 1) 0 0
  | fuel + 1, s =>
    match roomFor s (recSize raw) with
    | some a =>
      let all := (calRecords s).filter fun r => r.ok && sameKey r.raw raw
      let many := manyTemps s (leAt raw 0 1)
      let kept := keyRecords s raw
      let t := toSigned 16 (leAt raw 6 2)
      let close := kept.filter fun r => !many || (r.temp - t).natAbs ≤ 40
      let out := if close.isEmpty && many && kept.length ≥ 6 then (nearest t kept).toList else close
      let stale := all.filter fun r => !kept.contains r
      pageChange 0 5 0 (showRecords ((out ++ stale).foldl freeRec (s.emberWrite a (slice raw 0 (recSize raw)))))
    | none =>
      match oldestPack s with
      | some tag => storeRec raw fuel (((calRecords s).filter fun r => r.kind < 7 && r.tag == tag).foldl freeRec s)
      | none => (s.set1 R.calStatFull).log 0x0805 srcNone (leAt raw 2 1) 0 0

/-- A lookup starts (R241): its key and temperature are latched. -/
def calLookup (temp : Nat) (s : State) : State :=
  let s := s.wr R.calLctrlTemp temp
  if s.bit R.calStatBusy then (s.set1 R.calStatErr).log 0x0806 srcNone noPos 0 0
  else
    let k : CalKey := { kind := s.rd R.calLkeyKind, pos := s.rd R.calLkeyPos, surf := s.rd R.calLkeySurf,
                        layer := s.rd R.calLkeyLayer, zg := s.rd R.calLkeyZg, tag := s.rd R.calLtagPacktag,
                        temp := s.rd R.calLctrlTemp }
    { s.set1 R.calStatBusy with cal := { s.cal with lookup := some k } }

/-- A store starts (R241): the record is read from SRAM. Outside SRAM it is out of CAL's reach (R11), and an uncorrectable word gives no
data (R345): nothing starts. -/
def calStore (temp : Nat) (s : State) : State :=
  let s := s.wr R.calLctrlTemp temp
  if s.bit R.calStatBusy then (s.set1 R.calStatErr).log 0x0806 srcNone noPos 0 0
  else
    let a := s.rd R.calSrcAddr * 64
    if !(sramBase ≤ a && a + 192 ≤ sramBase + sramSize) then outside .cal a Config.reachReason.toNat s
    else
      let (ok, s) := wordsMet (reqCode .cal) a 192 s
      if !ok then haltNote .cal { s with resp := .channelHalt 0x0A04 }
      else { s.set1 R.calStatBusy with cal := { s.cal with store := some (s.sramRead a 192) } }

/-- The lookup or store that runs ends (R231, R234). -/
def calDone (s : State) : State :=
  let c := s.cal
  let s := { s with cal := { c with lookup := none, store := none } }
  let s := match c.lookup with | some k => lookupDone k s | none => s
  let s := match c.store with | some raw => storeRec raw 4096 s | none => s
  s.clr1 R.calStatBusy

/-- CAL_INJ.EN = 1 (R225): sums, count and tick start at zero; a write while an injection runs does not disturb it. DEDUCED: log 91. -/
def injectionStart (p : PosIx) (l amp : Nat) (s : State) : State :=
  if s.bit R.calInjEn then s else
  let s := ((s.wr R.calInjPos p).wr R.calInjLoop l).wr R.calInjAmp amp
  let s := [R.calInjeEi, R.calInjeEq, R.calInjuUi, R.calInjuUq, R.calInjsCount].foldl State.clr1 s
  { s.set1 R.calInjEn with cal := { s.cal with tick := 0, abortDue := false } }

/-- NPER periods have been accumulated (R225). DEDUCED: log 91. -/
def injectionDone (s : State) : State :=
  if s.bit R.calInjEn && s.rd R.calInjsCount ≥ injNper s then (s.clr1 R.calInjEn).set1 R.calInjsDone else s

/-- The first test slot of an area and the slots it holds, in the order they are consumed (R32): the OPC zone, then on
L1 to L15 the system band for the inner area. -/
def testSlot (layer area i : Nat) : Option Nat :=
  let zone := 16384
  let even := layer % 2 == 0
  if area = 0 then
    if i < zone then some ((if even then 0 else 2977888) + i)
    else if layer = 0 || i ≥ zone + 30720 then none
    else some ((if even then 17408 else 2946144) + (i - zone))
  else if i < zone then some ((if even then 2977888 else 0) + i) else none

/-- The first n test slots from index i on that were not found written, with their indexes. -/
def testRun (layer area : Nat) (written : List Nat) : Nat → Nat → Nat → List (Nat × Nat)
  | 0, _, _ => []
  | fuel + 1, n, i =>
    if n = 0 then [] else
    match testSlot layer area i with
    | none => []
    | some f =>
      if written.contains f then testRun layer area written fuel n (i + 1)
      else (i, f) :: testRun layer area written fuel (n - 1) (i + 1)

/-- Radius of a slot's start and of a zone group's centre in half nanometres (R24 to R27, R215), with 355/113 for π. -/
def slotRadius (layer f : Nat) : Nat :=
  let z := zoneOf layer f
  let q := radialOf layer f
  let edge := fun (z : Nat) => 46000000 + z * 1109375
  let swept := fun (i : Nat) => 4 * i * 18960000 * 160 * 113 / 355
  if layer % 2 = 0 then isqrt (edge z * edge z + swept (q - zoneStart z))
  else isqrt (edge (z + 1) * edge (z + 1) - swept (zoneStart (z + 1) - 1 - q))
def groupRadius (g : Nat) : Nat := 46000000 + (8 * g + 4) * 1109375

/-- Step i of a run in thousandths: k_i (R220). -/
def opcK (n step i : Nat) : Int := 1000 + ((i : Int) - ((n - 1) / 2 : Nat)) * step

/-- M_i of a slot, in units of its own (R221). DEDUCED: log 90. -/
def opcMetric (x : OpcSlot) : Int :=
  ((List.range 3).map fun j =>
    let d : Int := 1000 * (nth 0 x.levels j : Nat) - 4096 * (nth 0 levelTargets j : Nat)
    d * d).foldl (· + ·) 0

/-- The trim of a level (R222), in 1/4,096, or none beyond 0.94 to 1.06. DEDUCED: log 90. -/
def opcTrim (step : Nat) (k0 lo v hi target : Int) : Option Nat :=
  let num := (4096 * target - 1000 * v) * 2 * step
  let den := 1000 * (hi - lo) * k0
  if den = 0 then none else
  let (num, den) := if den < 0 then (-num, -den) else (num, den)
  if num.natAbs * 100 > 6 * den.natAbs then none else some (4096 + roundHalfUp (4096 * num) den).toNat

/-- What a run gives for one surface (R221, R222); none where it is not valid. DEDUCED: log 90. -/
def opcEvaluate (step serMax ps : Nat) (slots : List OpcSlot) : Option OpcRes :=
  let n := slots.length
  let m := slots.map opcMetric
  let at_ := fun (i : Nat) => nth (0 : Int) m i
  let i0 := ((List.range n).find? fun i => m.all fun x => at_ i ≤ x).getD 0
  let d := at_ (i0 - 1) - 2 * at_ i0 + at_ (i0 + 1)
  if i0 = 0 || i0 + 1 ≥ n || d ≤ 0 || slots.any (·.lost) then none else
  let k0 := opcK n step i0
  let num := ps * (k0 * 2 * d + step * (at_ (i0 - 1) - at_ (i0 + 1)))
  let den := 2000 * d
  let x := nth { levels := [], ser := 0, lost := true, e2 := 0, seed := [] } slots i0
  if num < den || num > 4095 * den || x.ser > serMax then none else
  let lv := fun (i j : Nat) => ((((slots[i]?).map fun y => nth 0 y.levels j).getD 0 : Nat) : Int)
  let t := fun (j : Nat) => opcTrim step k0 (lv (i0 - 1) j) (lv i0 j) (lv (i0 + 1) j) (nth 0 levelTargets j : Nat)
  match t 0, t 1, t 2 with
  | some a, some b, some c =>
    some { ps := (roundHalfUp num den).toNat, t1 := a, t2 := b, t3 := c, e2 := x.e2, seed := slice x.seed 0 128 }
  | _, _, _ => none

/-- The media card of a layer (R238, Table 8.7): its power scale, wick table and spherical-aberration code. -/
def cardOf (s : State) (p : PosIx) (layer : Nat) : List Byte := (Assoc.get layer s.packs[p].cards).getD []
def cardPs (card : List Byte) (g : Nat) : Nat := leAt card (280 + 144 * g) 2 % 4096
def cardWick (card : List Byte) (g : Nat) : List Byte := slice card (280 + 144 * g + 16) 128
def cardSa (card : List Byte) : Nat := leAt card 20 2

/-- The zone group of a slot (R215). -/
def groupOf (layer f : Nat) : Nat := zoneOf layer f / 8

/-- A seed block as fields, and from fields (R107): 29 taps, the three target coefficients, the four levels. -/
def seedFields (b : List Byte) : List Int :=
  ((List.range 29).map fun i => toSigned 16 (leAt b (2 * i) 2)) ++
  ((List.range 3).map fun i => toSigned 10 (bitsOf (leAt b 58 4) (10 * i) 10)) ++ (List.range 4).map fun i => toSigned 8 (leAt b (62 + i) 1)
def seedBlock (l : List Int) : List Byte :=
  let tgt := ((List.range 3).map fun i => ofSigned 10 (nth 0 l (29 + i)) * 2 ^ (10 * i)).foldl (· + ·) 0
  slice (((List.range 29).flatMap fun i => leBytes 2 (ofSigned 16 (nth 0 l i))) ++ leBytes 4 tgt ++
    (List.range 4).flatMap fun i => leBytes 1 (ofSigned 8 (nth 0 l (32 + i)))) 0 128

/-- How two results of an item are compared in a field (Table 8.1): within a per mille of their mean, within num/den of a code's
distance, or not at all. -/
inductive Tol where
  | mean (mille : Nat)
  | codes (num den : Nat)
  | any
  deriving DecidableEq, Repr

/-- Two values of a field agree; and how far they lie apart, as a fraction of what is tolerated. -/
def Tol.agree (t : Tol) (a b : Int) : Bool :=
  match t with
  | .mean m => (a - b).natAbs * 2000 ≤ m * (a + b).natAbs
  | .codes n d => (a - b).natAbs * n ≤ d
  | .any => true
def Tol.gap (t : Tol) (a b : Int) : Nat × Nat :=
  match t with
  | .mean m => ((a - b).natAbs * 2000, max 1 (m * (a + b).natAbs))
  | .codes n d => ((a - b).natAbs * n, max 1 d)
  | .any => (0, 1)

/-- Two results agree where every field does; their difference is that of the field which is furthest apart (DESIGN CHOICE: log 90);
their mean is rounded half up, field by field (R216). -/
def resAgree (tols : List Tol) (a b : List Int) : Bool := (List.zip tols (List.zip a b)).all fun x => x.1.agree x.2.1 x.2.2
def resGap (tols : List Tol) (a b : List Int) : Nat × Nat :=
  (List.zip tols (List.zip a b)).foldl (fun (g : Nat × Nat) x =>
    let h := x.1.gap x.2.1 x.2.2
    if g.1 * h.2 < h.1 * g.2 then h else g) (0, 1)
def resMean (a b : List Int) : List Int := List.zipWith (fun x y => roundHalfUp (x + y) 2) a b

/-- The result of a pair of runs, where both were valid and they agree. -/
def pairMean (tols : List Tol) (a b : Option (List Int)) : Option (List Int) :=
  match a, b with
  | some a, some b => if resAgree tols a b then some (resMean a b) else none
  | _, _ => none

/-- The result of two or three runs (R216): the mean of the agreeing pair; of two pairs with run 3 the closer one, and runs 1 and 3
where they are equally close. None where no pair agrees. -/
def settleRuns (tols : List Tol) : List (Option (List Int)) → Option (List Int)
  | [a, b] => pairMean tols a b
  | [a, b, c] =>
    match pairMean tols a b, pairMean tols a c, pairMean tols b c with
    | some m, _, _ => some m
    | none, some x, some y =>
      let g := resGap tols (a.getD []) (c.getD [])
      let h := resGap tols (b.getD []) (c.getD [])
      if h.1 * g.2 < g.1 * h.2 then some y else some x
    | none, some x, none => some x
    | none, none, y => y
  | _ => none

/-- The tolerances of the OPC items (Table 8.1). -/
def opcTols : List Tol := [.mean 15, .mean 15, .mean 15, .mean 15]
def seedTols : List Tol := .mean 100 :: List.replicate 36 .any

/-- The fields of items 0x01 and 0x06 that one run gave. -/
def OpcRes.power (r : OpcRes) : List Int := [r.ps, r.t1, r.t2, r.t3]
def OpcRes.seeds (r : OpcRes) : List Int := (r.e2 : Int) :: seedFields r.seed

/-- A calibration record with its check word (Table 8.3). -/
def calRecord (s : State) (kind pos surf layer zg runs flags : Nat) (temp : Int) (tag : Nat) (value : List Byte) : List Byte :=
  let units := if kind = 6 then 6 else 2
  let b := leBytes 1 kind ++ leBytes 1 units ++ leBytes 1 pos ++ leBytes 1 surf ++ leBytes 1 layer ++ leBytes 1 zg ++
    leBytes 2 (ofSigned 16 temp) ++ leBytes 8 tag ++ leBytes 8 (s.rd R.timeNowNs) ++ leBytes 1 runs ++ leBytes 1 flags ++
    leBytes 2 0 ++ slice value 0 (32 * units - 32)
  b ++ leBytes 4 (crc32c b)

/-- A result of an item stored for position p (R230): the surface and the layer only where the kind is keyed by them, the pack only
for the kinds of a pack. -/
def storeItem (p : PosIx) (kind surf layer zg runs flags : Nat) (value : List Byte) (s : State) : State :=
  let k := s.packs[p]
  let own := kind < 7
  storeRec (calRecord s kind p (if own then surf else 255) (if own then layer else 255)
    (if kind = 1 || kind = 6 then zg else 255) runs flags k.temp (if own then k.tag else 0) value) 4096 s

/-- The zone groups of an item: eight for kinds 0x01 and 0x06, else none (Table 8.1). -/
def itemGroups (kind : Nat) : List Nat := if kind = 1 || kind = 6 then List.range 8 else [255]

/-- An item fails (R218): its failed result is stored, a value that the runs did not settle being free; reason 0x0801; and for a surface
its bit of the mask, the read-only state, and a PACK_STATE record. -/
def itemFailed (p : PosIx) (kind surf layer runs : Nat) (s : State) : State :=
  let (v, s) := s.draw 0x9A
  let s := (itemGroups kind).foldl (fun s g => storeItem p kind surf layer g runs 1 (leBytes 160 v) s) s
  let s := s.log 0x0801 srcNone p 0 0
  if kind ≥ 7 then s else
  let s := s.updPack p fun k =>
    { k with uncal := setBit k.uncal surf, calBad := if k.calBad.contains (kind, surf, layer) then k.calBad else k.calBad ++ [(kind, surf, layer)] }
  queueRec p (.packState 1 s.packs[p].uncal 0x0801) (readOnly p 0x0801 s)

/-- An item is measured after it had failed (R218): its surface's bit clears once no item of the surface is left failed, and with the
mask the cause 0x0801; where no other cause remains a PACK_STATE record says so. -/
def itemGood (p : PosIx) (kind surf layer : Nat) (s : State) : State :=
  if kind ≥ 7 || !bitAt s.packs[p].uncal surf then s else
  let s := s.updPack p fun k => { k with calBad := k.calBad.filter (· != (kind, surf, layer)) }
  if s.packs[p].calBad.any fun x => x.2.1 == surf then s else
  let s := s.updPack p fun k => { k with uncal := clrBit k.uncal surf }
  if s.packs[p].uncal != 0 then s else
  let s := liftReadOnly p 0x0801 s
  if s.packs[p].roReason = 0 then queueRec p (.packState 0 0 0) s else s

/-- The value of a record of kind 0x01 and of kind 0x06 (Table 8.4). -/
def powerValue (l : List Int) : List Byte := (List.range 4).flatMap fun i => leBytes 2 (nth 0 l i).toNat
def fieldsOf01 (raw : List Byte) : List Nat := (List.range 4).map fun i => leAt raw (28 + 2 * i) 2

/-- The record of the same kind, position and surface at the nearest layer, of any pack (Table 8.5). -/
def nearestLayer (s : State) (kind pos surf layer : Nat) : Option CalRec :=
  let l := (calRecords s).filter fun r => r.ok && !r.failed && r.kind == kind && leAt r.raw 2 1 == pos && leAt r.raw 3 1 == surf
  let far := fun (r : CalRec) => ((leAt r.raw 4 1 : Int) - layer).natAbs
  l.find? fun r => l.all fun q => far r ≤ far q

/-- The value of a kind at its registers' reset values (Table 8.5), from byte 28 of a record on. -/
def resetValue (p : PosIx) (kind : Nat) : List Byte :=
  match kind with
  | 2 | 3 => leBytes 4 (R.loopGainGain p 0).rst ++ leBytes 2 0
  | 6 => (List.range 29).flatMap (fun i => leBytes 2 (ofSigned 16 (toSigned 14 (R.eqTapTap 0 i).rst))) ++
      leBytes 4 ((R.detTgtG0 0).rst + (R.detTgtG1 0).rst * 1024 + (R.detTgtG2 0).rst * 1048576) ++
      leBytes 1 (R.detLvlA0 0).rst ++ leBytes 1 (R.detLvlA1 0).rst ++ leBytes 1 (R.detLvlA2 0).rst ++ leBytes 1 (R.detLvlA3 0).rst
  | 8 => leBytes 2 (R.carAlignOfs p).rst ++ leBytes 2 0 ++ leBytes 4 (R.carIdxPos p).rst
  | _ => []

/-- The fallback for a key (R233, R236, Table 8.5), as a record with FLAGS.FALLBACK set. -/
def fallback (s : State) (p : PosIx) (kind surf layer zg : Nat) : List Byte :=
  let k := s.packs[p]
  let value := match kind with
    | 1 => leBytes 2 (cardPs (cardOf s p layer) zg) ++ leBytes 2 4096 ++ leBytes 2 4096 ++ leBytes 2 4096
    | 5 => leBytes 2 (cardSa (cardOf s p layer))
    | 2 | 3 | 4 => match nearestLayer s kind p surf layer with
      | some r => r.raw.drop 28
      | none => resetValue p kind
    | _ => resetValue p kind
  calRecord s kind p surf layer zg 2 2 k.temp k.tag value

/-- What the controller uses for an item now (R231 to R233, R236): the record that a lookup at the pack temperature gives, else the
fallback; and whether it is the fallback. -/
def inForce (s : State) (p : PosIx) (kind surf layer zg : Nat) : List Byte × Bool :=
  let k := s.packs[p]
  let own := kind < 7
  let key : CalKey := { kind := kind, pos := p.val, surf := if own then surf else 255, layer := if own then layer else 255,
                        zg := if kind = 1 || kind = 6 then zg else 255, tag := if own then k.tag else 0, temp := ofSigned 16 k.temp }
  let (res, raw) := lookupResult s key
  if 1 ≤ res && res ≤ 4 then (raw, false) else (fallback s p kind surf layer zg, true)

/-- The wick table of a pour (R222): the card's, the POWER of every entry of level L multiplied by trim t_L. -/
def trimTable (card : List Byte) (zg : Nat) (trims : List Nat) : List Byte :=
  let tab := cardWick card zg
  (List.range 64).flatMap fun w =>
    let t := if w / 16 = 0 then 4096 else nth 4096 trims (w / 16 - 1)
    slice tab (2 * w) 1 ++ leBytes 1 (min 255 (roundHalfUp (leAt tab (2 * w + 1) 1 * t) 4096).toNat)

/-- A level trim moves toward its new value by at most 0.25 % of itself (R235). -/
def trimStep (old new : Nat) : Nat :=
  let d := old / 400
  if new ≤ old + d && old ≤ new + d then new else if old < new then old + d else old - d

/-- The write values of a surface of a layer at a cast's first rank (R219, R235, R236): those of the record, or the fallback; the trims
go to them step by step, at once on the layer's first pour in the mount. -/
def castUse (p : PosIx) (layer zg f : Nat) (s : State) : State :=
  let (raw, fall) := inForce s p 1 f layer zg
  let v := fieldsOf01 raw
  let new := v.drop 1
  let trims := match Assoc.get (layer * 8 + f) s.packs[p].opcUse with
    | some u => List.zipWith trimStep u.trims new
    | none => new
  let u : OpcUse := { zg := zg, ps := nth 0 v 0, trims := trims, table := trimTable (cardOf s p layer) zg trims, fallback := fall }
  s.updPack p fun k => { k with opcUse := Assoc.put (layer * 8 + f) u k.opcUse }

/-- Firmware looks up the write values of every surface at the first rank of a cast (R235); where the layer's OPC found no test slot
left, values in use stay (R219). -/
def castLookup (p : PosIx) (n : Nat) (s : State) : State :=
  let layer := rankLayer n
  let keep := s.packs[p].roCauses.contains 0x0802
  if n % 128 != 0 then s else
  (List.range 8).foldl (fun s f =>
    if keep && (Assoc.get (layer * 8 + f) s.packs[p].opcUse).isSome then s
    else castUse p layer (groupOf layer (homeSlot n)) f s) s

/-- The fields of a result a fraction of the way from the inner to the outer one (R223, R227). -/
def fieldsBetween (a b : List Int) (num den : Int) : List Int := List.zipWith (fun x y => between x y num den) a b

/-- Records of one OPC item of a surface of a layer, for the eight zone groups (R223, R227). The targets and levels of a seed are
interpolated as its taps are (DESIGN CHOICE: log 97). DEDUCED: log 97. -/
def opcStore (p : PosIx) (kind layer f runs : Nat) (r0 r1 : Nat) (a b : List Int) (s : State) : State :=
  (List.range 8).foldl (fun s g =>
    let v := fieldsBetween a b ((groupRadius g : Int) - r0) ((r1 : Int) - r0)
    storeItem p kind f layer g runs 0 (if kind = 6 then seedBlock (v.drop 1) else powerValue v) s) s

/-- The OPC at the head of the queue is over. -/
def opcNext (p : PosIx) (s : State) : State :=
  s.updPack p fun k => { k with opc := k.opc.drop 1, opcRuns := [], opcDiscards := 0 }

/-- One item of a surface when both areas of the layer have their results (R218, R223). -/
def opcItem (p : PosIx) (kind layer f runs r0 r1 : Nat) (a b : Option (List Int)) (s : State) : State :=
  match a, b with
  | some a, some b => itemGood p kind f layer (opcStore p kind layer f runs r0 r1 a b s)
  | _, _ => itemFailed p kind f layer runs s

/-- Both areas of a layer have their results: records, failed items, the layer's values in use (R218, R223, R224). -/
def opcFinish (p : PosIx) (o : OpcRun) (runs : Nat) (inner outer : Nat × List (Option (List Int)) × List (Option (List Int)))
    (s : State) : State :=
  let r0 := slotRadius o.layer inner.1
  let r1 := slotRadius o.layer outer.1
  let s := (List.range 8).foldl (fun s f =>
    opcItem p 6 o.layer f runs r0 r1 (nth none inner.2.2 f) (nth none outer.2.2 f)
      (opcItem p 1 o.layer f runs r0 r1 (nth none inner.2.1 f) (nth none outer.2.1 f) s)) s
  s.updPack p fun k => { k with opcHalf := none, opcDone := setBit k.opcDone o.layer,
                                tempOf := (k.tempOf.filter fun e => e.1 != o.layer) ++ [(o.layer, k.temp)] }

/-- An area has its results. -/
def opcArea (p : PosIx) (o : OpcRun) (runs : Nat) (res : Nat × List (Option (List Int)) × List (Option (List Int))) (s : State) : State :=
  let half := s.packs[p].opcHalf
  let s := opcNext p s
  match half with
  | some h => if o.area = 1 then opcFinish p o runs h res s else s.updPack p fun k => { k with opcHalf := some res }
  | none => s.updPack p fun k => { k with opcHalf := some res }

/-- The first blank index of a test area, found by bisection (R220): the area is consumed contiguously in path order. -/
def bisect (written : Nat → Bool) : Nat → Nat → Nat → Nat
  | 0, lo, _ => lo
  | fuel + 1, lo, hi =>
    if hi ≤ lo then lo else
    let m := (lo + hi) / 2
    if written m then bisect written fuel (m + 1) hi else bisect written fuel lo m

/-- Test slots that an area of a layer holds. -/
def areaSlots (layer area : Nat) : Nat := if area = 0 && layer != 0 then 16384 + 30720 else 16384

/-- Test slots used in an area of a layer: after the last one used in this mount, at mount as the bisection finds it. -/
def opcUsed (k : PackState) (layer area : Nat) (written : List Nat) : Nat :=
  (Assoc.get layer (if area = 0 then k.opcIn else k.opcOut)).getD
    (bisect (fun i => match testSlot layer area i with | some f => written.contains f | none => true) 17 0 (areaSlots layer area))
def setUsed (layer area v : Nat) (k : PackState) : PackState :=
  if area = 0 then { k with opcIn := Assoc.put layer v k.opcIn } else { k with opcOut := Assoc.put layer v k.opcOut }

/-- A test area holds too few blank slots (R219): the layer's OPC is over without results. -/
def opcNoRoom (p : PosIx) (o : OpcRun) (s : State) : State :=
  let s := readOnly p 0x0802 (s.log 0x0802 srcNone p 0 0)
  let s := queueRec p (.packState 1 s.packs[p].uncal 0x0802) s
  s.updPack p fun k => { k with opc := k.opc.filter fun x => x.layer != o.layer, opcRuns := [], opcDiscards := 0, opcHalf := none,
                                opcDone := setBit k.opcDone o.layer }

/-- SER_MAX of the engine that pours a surface of position p. -/
def serLimit (s : State) (p : PosIx) (f : Nat) : Nat :=
  match (s.stripes.find? fun x => x.p == p).bind fun x => x.engines[f]? with
  | some e => serMax s e
  | none => 0x180

/-- OPC of a layer is queued (R224): its inner area, then its outer. -/
def queueOpc (p : PosIx) (layer : Nat) (s : State) : State :=
  if s.packs[p].opc.any fun o => o.layer == layer then s else
  s.updPack p fun k => { k with opc := k.opc ++ [{ layer := layer, area := 0, surfaces := 255 }, { layer := layer, area := 1, surfaces := 255 }] }

/-- The pour descriptor of run slot f on a surface (R220, Table 3.2): OPC area, no logical rank, one clear codeword after another of
4,096 zero bytes, the card's power scale; the wick table's address is firmware's. -/
def opcDescriptor (layer f surf ps tag wick : Nat) : List Byte :=
  leBytes 4 f ++ leBytes 1 (layer * 16 + surf * 2) ++ leBytes 1 0 ++ leBytes 1 3 ++ leBytes 1 0 ++ leBytes 4 0xFFFFFFFF ++
    leBytes 2 ps ++ leBytes 1 5 ++ leBytes 1 0 ++ leBytes 8 0 ++ leBytes 8 tag ++ leBytes 8 wick ++ leBytes 8 0 ++
    ((List.range 16).flatMap fun _ => leBytes 2 4096) ++ leBytes 48 0

/-- The wick table of step i of a run (R220): every POWER multiplied by k_i, rounded half up and clamped to 255. -/
def opcTable (card : List Byte) (g : Nat) (k : Int) : List Byte :=
  let tab := cardWick card g
  (List.range 64).flatMap fun w =>
    slice tab (2 * w) 1 ++ leBytes 1 (min 255 (roundHalfUp (leAt tab (2 * w + 1) 1 * k) 1000).toNat)

/-- The test frames of a run: descriptor and wick table, slot by slot and surface by surface (R70, R220). -/
def opcFrames (s : State) (p : PosIx) (layer n : Nat) (run : List (Nat × Nat)) : List (List Byte × List Byte) :=
  let card := cardOf s p layer
  run.zipIdx.flatMap fun x =>
    let g := groupOf layer x.1.2
    (List.range 8).map fun f =>
      (opcDescriptor layer x.1.2 f (cardPs card g) s.packs[p].tag (128 * Config.free 0x9B (x.2 * 8 + f)),
        opcTable card g (opcK n (s.policyOf 0x21 p) x.2))

/-- Whether a queued OPC may run (R85, R220, R224): between stripe operations of its position, and in a pour at the next cast
boundary; not while snuffed, not after PWRFAIL_N, not without the cores. DEDUCED: log 90. -/
def opcMayRun (s : State) (p : PosIx) : Bool :=
  let k := s.packs[p]
  let between := k.casts.all fun c =>
    let begun := c.ranks.any fun r => r.phase == .pouring || r.phase == .awaiting || r.phase == .cast
    !(c.ranks.any fun r => r.phase == .pouring || r.phase == .awaiting) &&
      (!begun || c.failed.isSome || !c.ranks.any fun r => r.phase == .assembled && r.repour == 0)
  let reads := s.stripes.any fun x => x.p == p && !x.pour &&
    x.engines.any fun e => s.bit (R.rdStatBusy e) || s.bit (R.castStatBusy e)
  between && !reads && k.lpour.isNone && !(allEng.any fun e => s.eng[e].gate && (s.eng[e].home.map (·.1)) == some p) &&
    !s.bit (R.srvSnuffLatch p) && !s.pins.pwrFail && fwUp s && !k.roMount

/-- A queued OPC makes one run (R220 to R224, R227). DEDUCED: log 90. -/
def opcRun (p : PosIx) (x : OpcData) (s : State) : State :=
  match s.packs[p].opc with
  | [] => s
  | o :: _ =>
    if !opcMayRun s p then s else
    let n := s.policyOf 0x20 p
    let used := opcUsed s.packs[p] o.layer o.area x.written
    let run := testRun o.layer o.area x.written (n + x.written.length + 1) n used
    if run.length < n then opcNoRoom p o s else
    let dead := x.written.filter fun f => (List.range (n + x.written.length + 1)).any fun i => testSlot o.layer o.area (used + i) == some f
    let s := dead.foldl (fun s f => deadSlot p o.layer f s) s
    let last := (run.map (·.1)).foldl max 0
    let first := ((run.head?).map (·.2)).getD 0
    let frames := opcFrames s p o.layer n run
    let s := s.updPack p fun k => { setUsed o.layer o.area (last + 1) k with stream := none, opcPour := frames }
    if x.discarded then
      let s := s.updPack p fun k => { k with opcDiscards := k.opcDiscards + 1 }
      if s.packs[p].opcDiscards ≥ 4 then opcArea p o 2 (first, List.replicate 8 none, List.replicate 8 none) s else s
    else
      let ps := cardPs (cardOf s p o.layer) (groupOf o.layer first)
      let res := (List.range 8).map fun f =>
        if x.drift then none
        else opcEvaluate (s.policyOf 0x21 p) (serLimit s p f) ps ((nth [] x.slots f).take n)
      let runs := s.packs[p].opcRuns ++ [res]
      let s := s.updPack p fun k => { k with opcRuns := runs }
      let of := fun (tols : List Tol) (g : OpcRes → List Int) => (List.range 8).map fun f =>
        settleRuns tols (runs.map fun r => ((nth none r f : Option OpcRes)).map g)
      let got := (of opcTols OpcRes.power, of seedTols OpcRes.seeds)
      if runs.length ≥ 3 || (runs.length = 2 && got.1.all (·.isSome) && got.2.all (·.isSome)) then opcArea p o runs.length (first, got) s
      else s

/-- After the first cast poured in a zone group in a mount, the taps at the end of that cast replace the group's seed (R227): on the
surface of the engine that gives the verdict of the cast's last home rank. -/
def castSeed (e : EngIx) (d : List Byte) (s : State) : State :=
  match s.eng[e].home with
  | none => s
  | some (p, f) =>
    let key := (dLayer d * 8 + groupOf (dLayer d) (dSlot d)) * 8 + f.val
    if !dIsRank d || dArea d != 0 || dRank d % 128 != 127 || s.packs[p].seeded.contains key then s else
    let b := seedBlock (taps s e ++ [s.rdI (R.detTgtG0 e), s.rdI (R.detTgtG1 e), s.rdI (R.detTgtG2 e)] ++ amps s e)
    storeItem p 6 f (dLayer d) (groupOf (dLayer d) (dSlot d)) 2 0 b (s.updPack p fun k => { k with seeded := k.seeded ++ [key] })

/-- CAL_LOOKUP. -/
def execCalLookup (temp : Nat) (s : State) : Out := done (calLookup temp s)
/-- CAL_STORE. -/
def execCalStore (temp : Nat) (s : State) : Out := done (calStore temp s)
/-- CAL_OPERATION_DONE. -/
def execCalOperationDone (s : State) : Out := done (calDone s)
/-- INJECTION_START. -/
def execInjectionStart (p : PosIx) (l amp : Nat) (s : State) : Out := atPos p (injectionStart p l amp) s
/-- OPC_RUN. -/
def execOpcRun (p : PosIx) (x : OpcData) (s : State) : Out := atPos p (opcRun p x) s
/-- RANK_ASSEMBLY. -/
def execRankAssembly (p : PosIx) (n : Nat) (mism : List (Fin 8)) (s : State) : Out :=
  atPos p (fun s => castLookup p n (assemble p n mism s)) s
/-- FRAME_VERDICT. -/
def execFrameVerdict (e : EngIx) (mismatch : Bool) (s : State) : Out :=
  atEng e (fun s => match s.eng[e].poured.head? with
    | some x => castSeed e x.desc (frameVerdict e mismatch s)
    | none => frameVerdict e mismatch s) s

end Sys2Proof.Machine
end

