-- ==== Sys2Proof/Machine/Reading.lean ====
section
/-! DEFINITION. The read mode of the beam engines, sample packets, results, rank reconstruction and the retry ladder
(chapter 4). -/

namespace Sys2Proof.Machine

/-- Bytes that engine e reads from SRAM or the buffer, or the reason it gets none (Table 12.3). -/
def engRead (e : EngIx) (a n : Nat) (s : State) : Except Nat (List Byte) × State :=
  if sramBase ≤ a && a + n ≤ sramBase + sramSize then
    let (ok, s) := wordsMet (reqCode (.beam e)) a n s
    (if ok then .ok (s.sramRead a n) else .error 0x0A04, s)
  else if winBase ≤ a && s.inData (a - winBase) && s.inData (a - winBase + n - 1) then
    tileBytes (.beam e) (a - a % 64) ((n + 127) / 64) (n + a % 64) s |> fun r => (r.1.map (·.drop (a % 64)), r.2)
  else (.error 0, outside (.beam e) a Config.reachReason.toNat s)

/-- Bytes that engine e writes to the buffer, line by line; where they leave the data area the rest is not written (R11). -/
def engWriteBuf (e : EngIx) : Nat → Nat → List Byte → State → State
  | 0, _, _, s => s
  | fuel + 1, a, l, s =>
    if l.isEmpty then s
    else if !(winBase ≤ a && s.inData (a - winBase)) then outside (.beam e) a Config.reachReason.toNat s
    else
      let k := 64 - a % 64
      engWriteBuf e fuel (a + k) (l.drop k) (cacheWrite (.beam e) (cacheClass (.beam e)) a (l.take k) 0 s).2
def engStore (e : EngIx) (a : Nat) (l : List Byte) (s : State) : State := engWriteBuf e (l.length / 64 + 2) a l s

/-- The result of a read posted (Table 4.10); what the loops carry over to the next slot stays. -/
def readPost (e : EngIx) (r : Nat) (s : State) : State :=
  takeMode e ((((s.wr (R.rdStatResult e) r).set1 (R.rdStatDone e)).clr1 (R.rdStatBusy e)).updEng e fun x =>
    { x with slot := { x.slot.begin false [] 0 0 (.fresh false 0 0) with on := false } })

/-- A read that an uncorrectable word ends (Table 12.3). -/
def readLost (e : EngIx) (s : State) : State := { readPost e 7 s with resp := .readAborted }

/-- The seed block of a descriptor (R107): taps, target and levels. -/
def loadSeed (e : EngIx) (b : List Byte) (s : State) : State :=
  let t := (List.range 29).map fun i => toSigned 14 (leAt b (2 * i) 2)
  let s := (t.zipIdx).foldl (fun s x => s.wrI (R.eqTapTap e x.2) x.1) (s.updEng e fun x => { x with seed := t })
  let g := leAt b 58 4
  let a := leAt b 62 4
  let s := ((s.wr (R.detTgtG0 e) (bitsOf g 0 10)).wr (R.detTgtG1 e) (bitsOf g 10 10)).wr (R.detTgtG2 e) (bitsOf g 20 10)
  (((s.wr (R.detLvlA0 e) (bitsOf a 0 8)).wr (R.detLvlA1 e) (bitsOf a 8 8)).wr (R.detLvlA2 e) (bitsOf a 16 8)).wr
    (R.detLvlA3 e) (bitsOf a 24 8)

/-- The seed block is loaded where the descriptor names one. -/
def seedIn (e : EngIx) (s : State) : State :=
  let a := leAt s.eng[e].rdesc 32 8
  if a = 0 then s else
  match engRead e a 128 s with
  | (.ok b, s) => loadSeed e b s
  | (.error _, s) => readLost e s

/-- Slag entries up to the first out of order, and whether one was (R113). -/
def slagList : Nat → List (Nat × Nat) → List (Nat × Nat) × Bool
  | _, [] => ([], false)
  | last, r :: t => if r.1 < last then ([], true) else let (l, b) := slagList r.1 t; (r :: l, b)

/-- The slag list of a descriptor (R113). -/
def slagIn (e : EngIx) (s : State) : State :=
  let d := s.eng[e].rdesc
  let n := min 256 (leAt d 48 2)
  if n = 0 then s.updEng e fun x => { x with slag := [] } else
  match engRead e (leAt d 40 8) (8 * n) s with
  | (.ok b, s) =>
    let (l, bad) := slagList 0 ((List.range n).map fun i => (leAt b (8 * i) 4, leAt b (8 * i + 4) 2))
    setIf bad (R.rdStatSlagerr e) (s.updEng e fun x => { x with slag := l })
  | (.error _, s) => readLost e s

/-- The position, surface, layer and zone that engine e reads under a descriptor. -/
def readPlace (s : State) (e : EngIx) (d : List Byte) : Nat × Nat × Nat × Nat :=
  (((s.eng[e].home.map (·.1.val)).getD noPos), rPlace d)

/-- A slot whose samples come from a capture (R119): everything has been received. -/
def capturedSlot (b : List Byte) (q : SlotRead) : SlotRead :=
  { q with recvd := [316000, 316000, 316000, 0],
           raw := (List.range 3).flatMap fun st => (List.range 316000).map fun k => (symKey st k, (nth 0 b (4 * k + st)).toNat % 64) }

/-- The slot of engine e begins (R104, R107): it is the engine's previous slot from here on. -/
def slotBegins (e : EngIx) (base : Nat) (s : State) : State :=
  let d := s.eng[e].rdesc
  s.updEng e fun x => { x with last := some (readPlace s e d),
                               slot := x.slot.begin false d 0 base (.fresh (rLedger d) 0 16) }

/-- Steps 1 and 2 begin at once with the captured samples and the descriptor's seed (Table 4.7). -/
def captureStart (e : EngIx) (s : State) : State :=
  let s := seedIn e s
  if !s.bit (R.rdStatBusy e) then s else
  match engRead e (rCapt s.eng[e].rdesc) 1264000 s with
  | (.error _, s) => readLost e s
  | (.ok b, s) => (slotBegins e 0 s).updEng e fun x => { x with slot := capturedSlot b x.slot }

/-- RD_CTRL.START (R128, R107): ignored with ERR in cast mode, while BUSY, or where SEED = 0 would carry on from
another surface, layer or zone. RESULT and the codeword registers keep what the last read left until this one posts
(DESIGN CHOICE: log 100). -/
def readStart (e : EngIx) (s : State) : State :=
  if s.bit (R.castCtrlEn e) || s.eng[e].mode || s.bit (R.castStatBusy e) || s.bit (R.rdStatBusy e) then s.set1 (R.rdStatErr e) else
  match engRead e (s.rd (R.rdDescAddr e) * 128) 128 s with
  | (.error _, s) => readLost e s
  | (.ok d, s) =>
    if leAt d 32 8 = 0 && s.eng[e].last.isSome && s.eng[e].last != some (readPlace s e d) then s.set1 (R.rdStatErr e) else
    let s := (s.set1 (R.rdStatBusy e)).updEng e fun x => { x with rdesc := d, slot := { x.slot with on := false } }
    let s := match s.eng[e].home with
      | some (p, f) => zonePreset p f e (rPlace d).2.2 (s.updPack p fun k => { k with stream := none })
      | none => s
    let s := slagIn e s
    if !s.bit (R.rdStatBusy e) then s
    else if rStep d = 1 || rStep d = 2 then captureStart e s
    else match s.eng[e].home with
      | some (p, f) => engCreq p e (0x104 + 0x20 * f) (if rStep d = 5 then 3 else 1) s
      | none => s

/-- RD_CTRL.ABORT (R129). -/
def readAbort (e : EngIx) (s : State) : State := if s.bit (R.rdStatBusy e) then readPost e 7 s else s

/-- Whether two other engines of the position read with the trailing spot, so that this one waits for a later revolution (R135). -/
def deepFull (s : State) (e : EngIx) : Bool :=
  ((allEng.filter fun k => k != e && s.eng[k].slot.on && s.bit (R.rdStatBusy k) && rStep s.eng[k].rdesc == 5 &&
    (s.eng[k].home.map (·.1)) == (s.eng[e].home.map (·.1))).length ≥ 2)

/-- A slot to be read comes under the spot (R104). `w`: the wobble phase values of the unit of its eighth 0. -/
def readSlotStart (e : EngIx) (w : List Nat) (symcnt : Nat) (s : State) : State :=
  let x := s.eng[e]
  let d := x.rdesc
  if !s.bit (R.rdStatBusy e) || x.slot.on || (rStep d = 5 && deepFull s e) then s else
  let r := wauNibbles w
  let ok := wobbleAt r (dLayer d) (dSurf d) (dSlot d) 0 ||
    (!wobbleDecodes r && dSlot d > 0 && wobbleAt x.word (dLayer d) (dSurf d) (dSlot d - 1) 7)
  if !ok then readPost e 6 s else
  let s := seedIn e s
  if s.bit (R.rdStatBusy e) then slotBegins e (symcnt % 2 ^ 32) s else s

/-- Whether samples that arrive now are erased by what holds on the position (R111). -/
def eraseNow (s : State) (p : PosIx) : Bool :=
  let l := s.rd (R.srvSnuffLive p)
  bitAt l 0 || bitAt l 1 || bitAt l 2

/-- Whether the samples of a packet are erasures (R101, R111). -/
def packetLost (s : State) (p : PosIx) (e : EngIx) (x : SamplePacket) : Bool :=
  !x.crcOk || !x.lock || !s.bit (R.trStatLocked e) || eraseNow s p

/-- A packet's samples enter a slot (R111, R253). The trailing spot of deep read is 133 symbols behind (R135). -/
def slotSamples (x : SamplePacket) (lost : Bool) (q : SlotRead) : SlotRead :=
  let st := x.stream.val
  let off : Int := ((x.symcnt + 2 ^ 32 - q.base) % 2 ^ 32 : Nat)
  let start := (if off ≥ 2 ^ 31 then off - 2 ^ 32 else off) - (if st = 3 && !q.cast then 133 else 0)
  let first := min 316500 (max 0 start).toNat
  let last := min 316500 (max 0 (start + 384)).toNat
  let want := nth 0 q.recvd st
  let gap := if want < first then [(want, first - want)] else []
  let ers := if lost && first < last then [(first, last - first)] else []
  let ix := ((List.range 384).filter fun (i : Nat) => 0 ≤ start + i && start + i < 316500 && x.crcOk).map fun (i : Nat) =>
    (i, (start + i).toNat)
  { q with recvd := setNth q.recvd st (max want last), symErs := q.symErs ++ gap ++ ers,
           raw := ix.foldl (fun m i => Assoc.put (symKey st i.2) (nth 0 x.raw i.1 % 64) m) q.raw }

/-- The slot of engine e takes a packet, and what it makes ready goes through the channel (R102 to R112). -/
def takeSamples (p : PosIx) (e : EngIx) (x : SamplePacket) (s : State) : State :=
  let lost := packetLost s p e x
  let ledger := dLedger s.eng[e].slot.desc
  let s := s.updEng e fun y => { y with slot := slotSamples x lost y.slot }
  showPhase e (advance e ledger false 1200 (scanDefects e 0 1200 s))

/-- A packet reaches the slot that engine e reads or verifies, and the poured slot before it whose verdict is due. -/
def takePacket (p : PosIx) (e : EngIx) (x : SamplePacket) (s : State) : State :=
  let s := if s.eng[e].poured.any fun y => y.slot.isSome then onPoured e (takeSamples p e x) s else s
  if !s.eng[e].slot.on then s else
  let s := if x.lock || s.eng[e].slot.cast then s else s.set1 (R.rdStatLock e)
  takeSamples p e x s

/-- Whether nibbles are the address of eighth n of the slot that engine e reads or verifies. -/
def expectWord (s : State) (e : EngIx) (f : Fin 8) (n : Nat) (r : List Nat) : Bool :=
  let d := s.eng[e].slot.desc
  wobbleAt r (dLayer d) f (dSlot d) n

/-- A wobble address word at engine e: it confirms a realignment (R125), stands for the slot before the next (R104), and in a
slot two in succession that do not match are a loss of sync (Table 3.5). `n`: the eighth by the engine's count. -/
def takeWord (p : PosIx) (f : Fin 8) (e : EngIx) (n : Nat) (r : List Nat) (s : State) : State :=
  let s := s.updEng e fun x => { x with word := r }
  if !s.eng[e].slot.on || n > 7 then s else
  let ok := expectWord s e f n r
  let s := s.updEng e fun x =>
    { x with wordMiss := if ok then 0 else x.wordMiss + 1, slot := { x.slot with sync := realignWord n ok x.slot.sync } }
  if s.eng[e].wordMiss ≥ 2 then pulseSnuff p 3 (s.updEng e fun x => { x with wordMiss := 0 }) else s

/-- The eighth of the slot of engine e in which a symbol count lies nearest to the start of an address unit (R28). -/
def eighthAt (q : SlotRead) (sym : Nat) : Nat :=
  let k := (sym + 2 ^ 32 - q.base) % 2 ^ 32
  if k ≥ 2 ^ 31 then 0 else (k + 19750) / 39500

/-- One wobble of the pickup of engine e (R28, R125): of its phase values the last 720 are kept. 80 of them that spell a sync
field mark an eighth of the slot; 720 that begin with one carry the address word. DEDUCED: log 99. -/
def takeWobble (p : PosIx) (f : Fin 8) (e : EngIx) (sym v : Nat) (s : State) : State :=
  let l := ((v, sym) :: s.eng[e].wob).take 720
  let s := s.updEng e fun x => { x with wob := l }
  let ph := fun (n : Nat) => ((l.take n).map (·.1)).reverse
  let from_ := fun (n : Nat) => ((l.take n).getLast?.map (·.2)).getD 0
  let s := if l.length ≥ 80 && s.eng[e].slot.on && wobCells 8 (ph 80) == syncField then
      s.updEng e fun x =>
        let n := eighthAt x.slot (from_ 80)
        { x with slot := { x.slot with fields := if n > 7 || x.slot.fields.contains n then x.slot.fields else x.slot.fields ++ [n] } }
    else s
  if l.length = 720 && wobCells 8 ((ph 720).take 80) == syncField then
    takeWord p f e (eighthAt s.eng[e].slot (from_ 720)) (wauNibbles (ph 720)) s
  else s

/-- The wobble phase values of a packet, 50 symbols apart from its first wobble boundary on (R253). -/
def takeWobbles (p : PosIx) (e : EngIx) (x : SamplePacket) (s : State) : State :=
  x.wob.zipIdx.foldl (fun s v => takeWobble p x.pickup e ((x.symcnt + x.wobofs + 50 * v.2) % 2 ^ 32) v.1 s) s

/-- A sample packet and its tail (R250, R253). DEDUCED: log 76, 77. -/
def samplePacket (p : PosIx) (x : SamplePacket) (s : State) : State :=
  let key := 4 * x.pickup.val + x.stream.val
  let gap := match Assoc.get key s.pos[p].igl.symNext with
    | some n => n != x.symcnt % 2 ^ 32
    | none => false
  let s := if gap || !x.crcOk then s.bump (R.iglScrcCount p) 1 else s
  let s := s.updIgl p fun g => { g with symNext := Assoc.put key ((x.symcnt + 384) % 2 ^ 32) g.symNext }
  s.forEach allEng fun e s =>
    if s.eng[e].home != some (p, x.pickup) then s else
    let s := takePacket p e x s
    if x.stream != 0 || !x.crcOk then s else
    let s := takeWobbles p e x s
    if x.slip && (s.eng[e].slot.on || s.eng[e].gate) then pulseSnuff p 3 s else s

/-- A signed sum raised, held at the ends of its field (R137). -/
def bumpI (f : Fld) (v : Int) (s : State) : State :=
  s.wrI f (clampI (-(2 ^ (f.w - 1))) (2 ^ (f.w - 1) - 1) (s.rdI f + v))

/-- The result of codeword c: 1 OK, 2 FAIL, 3 MISCORRECT, 4 UNREADABLE (Table 4.4). -/
def cwResult (d : List Byte) (c : Nat) (x : CwDec) : Nat :=
  let info := x.info
  if !x.ok then 2
  else if leAt info 4124 4 != crc32c (slice info 0 4124) then 3
  else if !metaOk d c (slice info 4096 28) then 4
  else 1

/-- The counters of the margin block over one codeword (R137, Table 4.18). The decoder makes at least one iteration in read mode,
so MRG_ITER0 counts 1 to 4. DEDUCED: log 77, 100. -/
def margin (e : EngIx) (step res eras ser : Nat) (x : CwDec) (m : CwSums) (s : State) : State :=
  let s := (s.bump (R.mrgCwCw e) 1).bump (R.mrgErsErs e) eras
  let s := if step = 0 && res != 1 then s.bump (R.mrgCwFail0 e) 1 else s
  let s := if res = 3 then s.bump (R.mrgMiscMisc e) 1 else s
  if !x.ok then s.bump (R.mrgIterCount e 15) 1
  else if res != 1 then s
  else
    let s := (s.bump (R.mrgSerSer e) ser).bump (R.mrgIterCount e (min 14 ((x.iter - 1) / 4))) 1
    let s := (s.bump (R.mrgVarVar e) (openRound 0x9B m.e2 (2 ^ 24)).toNat).bump (R.mrgPsigPsig e) (openRound 0x9B m.r2 (2 ^ 24)).toNat
    let s := s.bump (R.mrgSirnSirn e) m.n
    if s.bit (R.mrgCtrlSirEn e) then bumpI (R.mrgSirbSirb e) m.b (bumpI (R.mrgSiraSira e) m.a s) else s

/-- A codeword as it is posted: its number, result, erased symbols, raw symbol errors, and what the decoder has. -/
structure CwPost where
  c : Nat
  res : Nat
  eras : Nat
  ser : Nat
  dec : CwDec
  deriving DecidableEq, Repr

/-- Codeword c's result in its register and its bytes at OUT (R115 to R117, Table 4.11). A codeword that CWMASK leaves out gets
result 0 with its erasures, and zero for the rest. DESIGN CHOICE: log 100. -/
def postCw (e : EngIx) (d : List Byte) (x : CwPost) (s : State) : State :=
  let s := ((s.wr (R.rdCwEras e x.c) x.eras).wr (R.rdCwSer e x.c) x.ser).wr (R.rdCwResult e x.c) x.res
  let s := ((s.wr (R.rdCwIter e x.c) x.dec.iter).wr (R.rdCwStep e x.c) (rStep d)).wr (R.rdCwGlobal e x.c) x.dec.passes
  if !bitAt (leAt d 50 2) x.c then s
  else engStore e (rOut d + 4128 * x.c) (if x.res = 1 then x.dec.info else List.replicate 4128 0) s

/-- R472: a mismatch of the XTS lane's pair, which deciphers codewords with ENC, fails the codeword. -/
def laneTorn (e : EngIx) (mism : List (Fin 16)) (x : CwPost) (s : State) : CwPost × State :=
  if x.res = 1 && (mism.any fun m => m.val == x.c) && bitAt (leAt x.dec.info 4113 1) 0 then
    ({ x with res := 2 }, s.log 0x0F04 (reqCode (.beam e)) ((s.eng[e].home.map (·.1.val)).getD noPos) 0 x.c)
  else (x, s)
def lanesTorn (e : EngIx) (mism : List (Fin 16)) : List CwPost → State → List CwPost × State
  | [], s => ([], s)
  | x :: t, s =>
    let (x, s) := laneTorn e mism x s
    let (t, s) := lanesTorn e mism t s
    (x :: t, s)

/-- The error that the shared cache meets at the first line of a capture area that it holds (Table 13.4): whether it lost data. -/
def captureLookup (e : EngIx) (a : Nat) (err : Option CacheError) (s : State) : Bool × State :=
  match err with
  | none => (false, s)
  | some x => cacheError (reqCode (.beam e)) (a - a % 64) x s

/-- The ratios that the capture area of a descriptor holds (Table 4.5), or the reason that they cannot be read. -/
def storedRatios (e : EngIx) (d : List Byte) (err : Option CacheError) (s : State) :
    Except Nat (List (Int × Int)) × State :=
  match captureLookup e (rCapt d + 0x140000) err s with
  | (true, s) => (.error 0x0A12, s)
  | (false, s) =>
  match engRead e (rCapt d + 0x140000) 614400 s with
  | (.ok b, s) => (.ok ((List.range 307200).map fun p => (toSigned 8 (nth 0 b (2 * p)).toNat, toSigned 8 (nth 0 b (2 * p + 1)).toNat)), s)
  | (.error r, s) => (.error r, s)

/-- The ratios of a slot into its capture area (R119, R130). -/
def storeRatios (e : EngIx) (d : List Byte) (l : List (Int × Int)) (s : State) : State :=
  engStore e (rCapt d + 0x140000) (l.map fun x => [BitVec.ofInt 8 x.1, BitVec.ofInt 8 x.2]).flatten s

/-- Flagged runs of a slot in data symbols, as the run table gives them (R112, R119): none longer than LEN can say. -/
def runTable (s : State) (e : EngIx) (q : SlotRead) : List (Nat × Nat) :=
  (unionRuns ((defectRuns s e q).map (toData q.sync.starts)).flatten).flatMap fun r =>
    (List.range ((r.2 + 65534) / 65535)).map fun i => (r.1 + 65535 * i, min 65535 (r.2 - 65535 * i))

/-- The samples and the run table of a slot into its capture area (R119, Table 4.5). -/
def storeCapture (e : EngIx) (d : List Byte) (s : State) : State :=
  let q := s.eng[e].slot
  let smp := ((List.range 316000).map fun k => (List.range 4).map fun st =>
    BitVec.ofNat 8 ((Assoc.get (symKey st k) q.raw).getD 0)).flatten
  let runs := runTable s e q
  let tab := leBytes 4 runs.length ++ leBytes 4 (min 256 runs.length) ++ leBytes 8 0 ++
    ((runs.take 256).map fun r => leBytes 4 r.1 ++ leBytes 2 r.2 ++ [1, 0]).flatten
  engStore e (rCapt d + 0x1D6000) tab (engStore e (rCapt d) smp s)

/-- Data symbols for which a capture holds no information: both ratios are 0 (R111, R119). DEDUCED: log 100. -/
def silentSyms (l : List (Int × Int)) : List (Nat × Nat) :=
  unionRuns ((l.zipIdx.filter fun x => x.1 == (0, 0)).map fun x => (x.2, 1))

/-- The reading of rank n, and changes of it. -/
def readOf (s : State) (p : PosIx) (n : Nat) : Option RankRead := s.packs[p].reads.find? fun r => r.n == n
def updRead (p : PosIx) (n : Nat) (g : RankRead → RankRead) (s : State) : State :=
  s.updPack p fun k => { k with reads := k.reads.map fun r => if r.n == n then g r else r }

/-- The columns of rank n that one command needs (R130): a READ those of the data codewords it names, a VERIFY all. -/
def tagCols (n : Nat) (t : Tag) (p : PosIx) : List Nat :=
  match t.work with
  | .read q vaddr len _ verify _ _ _ =>
    if q != p || t.done || !(ranksOf vaddr len).contains n then []
    else if verify then List.range 16
    else (List.range 16).filter fun c => (List.range 6).any fun k =>
      let a := n * rankBytes + 4096 * (16 * k + c)
      vaddr < a + 4096 && a < vaddr + len
  | _ => []

/-- The policy values that govern the reading of rank n (R331): those of the first admitted of the commands that need it, else those
in force. -/
def readPolicy (s : State) (p : PosIx) (n : Nat) : List (Nat × Nat) :=
  let l := s.hqi.tags.filter fun t => !(tagCols n t p).isEmpty
  ((l.find? fun t => l.all fun u => t.aseq ≤ u.aseq).map (·.policy)).getD s.policy

/-- A rank's reading begins with its first frame. DEDUCED: log 78. -/
def readBegin (p : PosIx) (d : List Byte) (s : State) : State :=
  if (readOf s p (dRank d)).isSome then s else
  let r : RankRead :=
    { n := dRank d, slot := dSlot d, layer := dLayer d, outs := List.replicate 8 0, posted := 0,
      result := List.replicate 128 0, okMask := 0, lateMask := 0, builtMask := 0, step := 0, sub := 0, revs := 0, digest := false,
      moved := 0, final := false, policy := readPolicy s p (dRank d) }
  s.updPack p fun k => { k with reads := k.reads ++ [r] }

/-- A frame's results enter its rank's reading: a codeword that passes at any step is OK from then on (R134). DEDUCED: log 78. -/
def readNote (e : EngIx) (f : Nat) (d : List Byte) (r : RankRead) (s : State) : RankRead :=
  let role := roleOf f (dSlot d)
  let one := fun (r : RankRead) (c : Nat) =>
    let res := s.rd (R.rdCwResult e c)
    let i := 16 * role + c
    if res = 0 || bitAt r.okMask i then r
    else if res = 1 then
      let late := if rStep d > 0 then setBit r.lateMask i else r.lateMask
      { r with okMask := setBit r.okMask i, result := setNth r.result i 1, lateMask := late }
    else { r with result := setNth r.result i res }
  let up := rStep d > r.step
  (List.range 16).foldl one
    { r with outs := setNth r.outs role (rOut d), posted := setBit (if up then 0 else r.posted) f, step := max r.step (rStep d),
             sub := if up then 0 else r.sub }

/-- The metadata that a rebuilt codeword gets, from the values expected of it (R115, R133). DEDUCED: log 75. -/
def builtMeta (s : State) (p : PosIx) (r : RankRead) (role c : Nat) : List Byte :=
  let k := (rankOf s p r.n).getD { rankFresh r.n with slot := r.slot }
  rankMeta s.packs[p] { k with slot := r.slot, repour := if r.slot = homeSlot r.n then 0 else 1 } role c

/-- Information bytes of codeword c of a role, where the engine put them. -/
def outBytes (s : State) (r : RankRead) (role c : Nat) : List Byte :=
  gRead s (nth 0 r.outs role + 4128 * c - winBase) 4128

/-- The roles of a column that have not passed. -/
def failedRoles (r : RankRead) (c : Nat) : List Nat := (List.range 8).filter fun k => !bitAt r.okMask (16 * k + c)

/-- The user bytes of a column after erasure decoding, by role, and whether the spare syndromes are zero (R133, R134). DEDUCED: log 75. -/
def columnFill (s : State) (r : RankRead) (c : Nat) (miss : List Nat) : List (List Byte) × Bool :=
  let cols := (List.range 8).map fun k => outBytes s r k c
  let l := (List.range 4096).map fun b => colFill miss (cols.map fun x => (nth 0 x b).toNat)
  ((List.range 8).map fun k => l.map fun v => BitVec.ofNat 8 (nth 0 v k), l.all fun v => colSyn v == (0, 0))

/-- The check word of codeword i of a rank that has been read: from its information bytes, or rebuilt where it alone of its column
failed and the spare syndrome is zero (R134). -/
def readCrc (s : State) (p : PosIx) (r : RankRead) (i : Nat) : Option Nat :=
  if bitAt r.okMask i then some (leAt (outBytes s r (i / 16) (i % 16)) 4124 4) else
  match failedRoles r (i % 16) with
  | [k] =>
    let (cols, syn) := columnFill s r (i % 16) [k]
    if syn then some (crc32c (nth [] cols k ++ builtMeta s p r k (i % 16))) else none
  | _ => none

/-- Whether every rank of a cast has been read at step 0 for a digest check (R134). -/
def castGathered (s : State) (p : PosIx) (m : Nat) : Bool :=
  (List.range 128).all fun i => ((readOf s p (128 * m + i)).map fun r => r.step > 0 || r.posted == 255).getD false

/-- The check words of a cast in the order of R56 with rebuilt codewords of rank n in their places; none where one cannot be
obtained. -/
def castCrcs (s : State) (p : PosIx) (n : Nat) (built : List (Nat × Nat)) : Option (List Nat) :=
  ((List.range 16384).map fun j =>
    let m := 128 * (n / 128) + j / 128
    match if m = n then Assoc.get (j % 128) built else none with
    | some v => some v
    | none => (readOf s p m).bind fun r => readCrc s p r (j % 128)).foldr (fun x l => x.bind fun v => l.map (v :: ·)) (some [])

/-- The digest of the governing CAST record of cast m. -/
def recordDigest (s : State) (p : PosIx) (m : Nat) : Option (List Byte) :=
  s.packs[p].ledger.reverse.findSome? fun x => match x.body with
    | .cast k _ _ d _ => if k == m then some d else none
    | _ => none

/-- The check of a column rebuilt from two failures (R134): against RANK_CAST while it is in the journal, else against the digest
of the CAST record once the rest of the cast has been read; none while it has not. DEDUCED: log 75. -/
def twoCheck (s : State) (p : PosIx) (n : Nat) (built : List (Nat × Nat)) : Option Bool :=
  match entryCrcs s p n with
  | [] =>
    match recordDigest s p (n / 128) with
    | none => some false
    | some dig =>
      if !castGathered s p (n / 128) then none
      else some (((castCrcs s p n built).map fun l => castDigest l == dig).getD false)
  | l => some (built.all fun b => nth 0 l b.1 == b.2)

/-- A column with a failed data codeword and at most two failures is rebuilt and checked (R133, R134). -/
def rebuildColumn (p : PosIx) (n c : Nat) (s : State) : State :=
  match readOf s p n with
  | none => s
  | some r =>
    let miss := failedRoles r c
    if miss.isEmpty || miss.length > 2 || miss.all (· ≥ 6) then s else
    let (cols, syn) := columnFill s r c miss
    let info := fun k => infoBytes (nth [] cols k) (builtMeta s p r k c)
    let built := miss.map fun k => (16 * k + c, leAt (info k) 4124 4)
    match if miss.length = 1 then some syn else twoCheck s p n built with
    | none => updRead p n (fun r => { r with digest := true }) s
    | some false => s
    | some true => miss.foldl (fun s k =>
        let s := engStore 0 (nth 0 r.outs k + 4128 * c) (info k) s
        updRead p n (fun r => { r with okMask := setBit r.okMask (16 * k + c), builtMask := setBit r.builtMask (16 * k + c) }) s) s

/-- Reconstruction of every column of a rank. -/
def reconstruct (p : PosIx) (n : Nat) (s : State) : State :=
  (List.range 16).foldl (fun s c => rebuildColumn p n c s) (updRead p n (fun r => { r with digest := false }) s)

/-- The columns of rank n that are needed: by commands, by a patrol all of them, and none by a cast-digest check alone (R130). -/
def neededCols (s : State) (p : PosIx) (n : Nat) : List Nat :=
  let l := (s.hqi.tags.flatMap fun t => tagCols n t p).eraseDups
  if s.packs[p].patrolling == some n then List.range 16
  else if !l.isEmpty then l
  else if s.packs[p].reads.any fun r => r.digest && r.n != n && r.n / 128 == n / 128 then []
  else List.range 16

/-- Whether every data codeword of some columns of a rank is there. -/
def colsOk (r : RankRead) (cols : List Nat) : Bool := cols.all fun c => (List.range 6).all fun k => bitAt r.okMask (16 * k + c)

/-- Surfaces of a rank that hold a failed codeword of some columns. -/
def failedSurfaces (r : RankRead) (cols : List Nat) : Nat :=
  (List.range 8).foldl (fun m k =>
    if cols.any fun c => !bitAt r.okMask (16 * k + c) then setBit m (surfaceOf k r.slot) else m) 0

/-- Whether the results of the present reading of a rank are in: of all surfaces at step 0, of those with a needed failed codeword
at later steps (R130). -/
def readDone (r : RankRead) (cols : List Nat) : Bool :=
  if r.step = 0 then r.posted == 255 else andNotBits (failedSurfaces r cols) r.posted == 0

/-- Re-reads that a step makes (Table 4.7). -/
def stepReads (r : RankRead) (p : PosIx) (step : Nat) : Nat :=
  if step = 4 then 4 else if step = 5 then policyIn r.policy 0x13 p else 1

/-- The set-point codes that re-read `sub` of step 4 adds to focus and track (R130, R151): FE has 32,768 codes in 160 nm, TE in
38.4 nm; policies give tenths of a nanometre. DEDUCED: log 78. -/
def stepOffset (r : RankRead) (p : PosIx) (sub : Nat) : Int × Int :=
  let fo := roundHalfUp (32768 * policyIn r.policy 0x14 p) 1600
  let tk := roundHalfUp (32768 * policyIn r.policy 0x15 p) 384
  if sub = 0 then (fo, 0) else if sub = 1 then (-fo, 0) else if sub = 2 then (0, tk) else (0, -tk)

/-- Offsets of step 4 added to the set-points of some surfaces, or with `sign` -1 removed. -/
def shiftSetPoints (p : PosIx) (surfs : Nat) (sign : Int) (o : Int × Int) (s : State) : State :=
  s.forEach (List.finRange 8) fun f s =>
    if !bitAt surfs f then s else
    let at_ := fun (fld : Fld) (v : Int) (s : State) => s.wrI fld (clampI (-32768) 32767 (s.rdI fld + sign * v))
    at_ (R.srvSpTrack p f) o.2 (at_ (R.srvSpFocus p f) o.1 s)

/-- The next re-read of the present step begins (Table 4.7). -/
def nextReRead (p : PosIx) (r : RankRead) (s : State) : State :=
  let s := if r.step = 4 then shiftSetPoints p r.moved 1 (stepOffset r p (r.sub + 1)) (shiftSetPoints p r.moved (-1) (stepOffset r p r.sub) s)
    else s
  updRead p r.n (fun r => { r with sub := r.sub + 1, posted := 0 }) s

/-- What a step has set is taken back when it ends (R130). -/
def stepEnds (p : PosIx) (r : RankRead) (s : State) : State :=
  if r.step = 4 && r.moved != 0 then
    updRead p r.n (fun r => { r with moved := 0 }) (shiftSetPoints p r.moved (-1) (stepOffset r p r.sub) s)
  else s

/-- Whether a command, or the patrol's setting, asks for deep read of rank n (R135, R315, R316, R331). -/
def deepAsked (s : State) (p : PosIx) (n : Nat) : Bool :=
  (s.hqi.tags.any fun t => !(tagCols n t p).isEmpty && (t.op == 0x82 || t.op == 0x83) && bitAt t.flags 2) ||
    (s.packs[p].patrolling == some n && s.policyOf 0x32 p = 1)

/-- Readings of a cast that wait for the rest of it are looked at again (R134). -/
def settleDigests (p : PosIx) (m : Nat) (s : State) : State :=
  if !castGathered s p m then s else
  s.packs[p].reads.foldl (fun s r => if r.digest && r.n / 128 == m then
    let s := reconstruct p r.n s
    updRead p r.n (fun x => { x with final := x.final || colsOk x (neededCols s p r.n) }) s else s) s

/-- What a rank's reading comes to once the results of its present step are in (R130, R132 to R134). DEDUCED: log 78. -/
def readSettle (p : PosIx) (n : Nat) (s : State) : State :=
  match readOf s p n with
  | none => s
  | some r =>
    let cols := neededCols s p n
    if r.final || !readDone r cols then s
    else if !colsOk r cols && r.sub + 1 < stepReads r p r.step then nextReRead p r s
    else
      let s := stepEnds p r s
      let s := if r.step ≥ policyIn r.policy 0x10 p || deepAsked s p n then reconstruct p n s else s
      settleDigests p (n / 128) (updRead p n (fun r => { r with final := colsOk r cols }) s)

/-- The engine reads encrypted frames of a position whose key slot is empty (R452): its XTS lane returns no data. DEDUCED: log 71. -/
def laneUnkeyed (s : State) (e : EngIx) : Bool :=
  rFlag s.eng[e].rdesc 0 && ((s.eng[e].home.map fun x => (Assoc.get x.1.val s.mtl.keys).isNone).getD false)

/-- The bits that margin figures take as decoded (R137, R139): of OK codewords, or with REF those of the codewords at OUT. -/
def truthBits (s : State) (e : EngIx) (d : List Byte) (l : List CwPost) : List (Nat × List Nat) :=
  (l.filter fun x => x.res = 1).map fun x =>
    (x.c, codeBits (if s.bit (R.mrgCtrlRef e) then gRead s (rOut d + 4128 * x.c - winBase) 4128 else x.dec.info))

/-- The codewords of a slot decoded (R114, R115): `old` holds the ratios that a re-read adds to. -/
def slotCws (s : State) (e : EngIx) (d : List Byte) (ers : List (Nat × Nat)) (old : List (Int × Int)) : List CwPost :=
  let q := s.eng[e].slot
  let ledger := rLedger d
  let mask := maskBits ledger (dLayer d) (dSlot d) (leAt d 16 8)
  let dec := decodePasses ledger (s.rd (R.ldpcCfgNorm e)) (iterLimit s e (rStep d))
    (fun prior => combine old (channelRatios s e q mask ers prior)) (passLimit s e (rStep d))
    (((List.range 16).filter fun c => bitAt (leAt d 50 2) c).map fun c => (c, CwDec.none))
  (List.range 16).map fun c =>
    let eras := erasOf ledger ers c
    match Assoc.get c dec with
    | none => { c := c, res := 0, eras := eras, ser := 0, dec := .none }
    | some x =>
      let bits := (List.range 38400).map fun i => if decided x.final i then 1 else 0
      { c := c, res := cwResult d c x, eras := eras, ser := symErrors ledger q (cwLevel ledger mask bits c) c, dec := x }

/-- Margin counters over a slot (R137, R139). -/
def slotMargin (e : EngIx) (d : List Byte) (ers : List (Nat × Nat)) (l : List CwPost) (s : State) : State :=
  if !s.bit (R.mrgCtrlEn e) then s else
  let ledger := rLedger d
  let mask := maskBits ledger (dLayer d) (dSlot d) (leAt d 16 8)
  let sums := marginSums s e ledger (s.bit (R.mrgCtrlSirEn e)) s.eng[e].slot mask ers (truthBits s e d l)
  let none_ : CwSums := { n := 0, e2 := 0, r2 := 0, a := 0, b := 0 }
  (l.filter fun x => x.res != 0).foldl (fun s x =>
    margin e (rStep d) x.res x.eras x.ser x.dec ((Assoc.get x.c sums).getD none_) s) s

/-- SYNC_STAT after a slot (Table 4.17). -/
def showSync (e : EngIx) (x : SyncState) (s : State) : State :=
  (((s.wr (R.syncStatFly e) (min 255 x.flown.length)).wr (R.syncStatReject e) x.reject).wr (R.syncStatLost e) x.losses).wr
    (R.syncStatRealignBad e) (if x.bad then 1 else 0)

/-- A frame's results reach its rank's reading. -/
def noteFrame (e : EngIx) (d : List Byte) (s : State) : State :=
  match s.eng[e].home with
  | some (p, f) =>
    if rLedger d || dArea d > 1 then s
    else
      let s := readBegin p d s
      readSettle p (dRank d) (updRead p (dRank d) (fun r => readNote e f d r s) s)
  | none => s

/-- The codewords of a slot are decoded and posted (R115 to R119). -/
def decodeSlot (e : EngIx) (mism : List (Fin 16)) (old : List (Int × Int)) (s : State) : State :=
  let d := s.eng[e].rdesc
  let q := s.eng[e].slot
  let again := rStep d ≥ 3
  let ers := unionRuns (erasures s e q ++ if rStep d = 1 || rStep d = 2 then silentSyms old else [])
  let mask := maskBits (rLedger d) (dLayer d) (dSlot d) (leAt d 16 8)
  let old := if again then old else []
  let s := if rCapture d && rStep d = 0 then storeCapture e d s else s
  let s := if again || (rCapture d && rStep d = 0) then
      storeRatios e d (combine old (channelRatios s e q mask ers fun _ => (0, 0))) s else s
  let (l, s) := lanesTorn e mism (slotCws s e d ers old) s
  let s := slotMargin e d ers l s
  let s := l.foldl (fun s x => postCw e d x s) s
  let ok := l.all fun x => !bitAt (leAt d 50 2) x.c || x.res == 1
  readPost e (if ok then 1 else 2) (noteFrame e d s)

/-- The engine posts the results of its slot (R118, R127). -/
def readResultPost (e : EngIx) (mism : List (Fin 16)) (err : Option CacheError) (s : State) : State :=
  let d := s.eng[e].rdesc
  if !s.bit (R.rdStatBusy e) || !s.eng[e].slot.on then s else
  let s := finishSlot e (rLedger d) (if rStep d = 2 then 8 else 0) s
  let s := showSync e (syncEnd s.eng[e].slot.sync) s
  if rBlank d then readPost e (blankResult s e (rLedger d) s.eng[e].slot) s
  else if laneUnkeyed s e then
    readPost e 7 (s.log 0x0C0B (reqCode (.beam e)) ((s.eng[e].home.map (·.1.val)).getD noPos) 0 (dSlot d))
  else if rStep d = 0 then decodeSlot e mism [] s
  else match storedRatios e d err s with
    | (.ok old, s) => decodeSlot e mism old s
    | (.error _, s) => readLost e s

/-- Revolutions of a ladder step (Table 4.7). -/
def stepRevs (r : RankRead) (p : PosIx) (step : Nat) : Nat := if step < 3 then 0 else stepReads r p step

/-- Whether the stripe read of a rank's commands has ended: no engine of the position reads, and each of their ranks has been read
at step 0 or comes from the tundish (R132). -/
def stripeRead (s : State) (p : PosIx) (n : Nat) : Bool :=
  !(allEng.any fun e => s.bit (R.rdStatBusy e) && (s.eng[e].home.map (·.1)) == some p) &&
  s.hqi.tags.all fun t => (tagCols n t p).isEmpty || match t.work with
    | .read _ vaddr len moved _ _ _ _ => (ranksOf (vaddr + moved) (len - moved)).all fun m =>
        ((readOf s p m).map fun r => r.final || r.step > 0 || r.posted == 255).getD
          (((rankOf s p m).map fun r => r.phase != .cast || (castFailedAt s p (m / 128))).getD false)
    | _ => true

/-- Whether rank r is the one that the retry pass visits next (R132): a step under way ends first, then the lowest step, in
ascending slot order. DEDUCED: log 78. -/
def retryTurn (s : State) (p : PosIx) (r : RankRead) : Bool :=
  s.packs[p].reads.all fun x => x.final || x.n == r.n || x.digest ||
    (readDone x (neededCols s p x.n) && (r.step < x.step || (r.step == x.step && r.slot ≤ x.slot)))

/-- The retry pass takes a deferred rank one step up the ladder, or ends its climb (R132, R134, R135). DEDUCED: log 78. -/
def retryPass (p : PosIx) (n : Nat) (deep : Bool) (s : State) : State :=
  match readOf s p n with
  | none => s
  | some r =>
    let cols := neededCols s p n
    if r.final || r.digest || !readDone r cols || !stripeRead s p n || !retryTurn s p r then s else
    let s := reconstruct p n s
    match readOf s p n with
    | none => s
    | some r =>
      let deep := deep || deepAsked s p n
      let next := r.step + 1
      let last := if deep then 5 else min 5 (policyIn r.policy 0x11 p)
      let revs := stepRevs r p next
      if r.digest then s
      else if colsOk r cols || next > last || (!deep && r.revs + revs > policyIn r.policy 0x12 p) then
        updRead p n (fun r => { r with final := true }) s
      else
        let moved := if next = 4 then failedSurfaces r cols else 0
        let s := if next = 4 then shiftSetPoints p moved 1 (stepOffset r p 0) s else s
        updRead p n (fun r => { r with step := next, sub := 0, revs := r.revs + revs, posted := 0, moved := moved }) s

/-- MRG_CTRL.CLR (R137). -/
def marginClear (e : EngIx) (s : State) : State :=
  ([R.mrgCwFail0 e, R.mrgCwCw e, R.mrgMiscMisc e, R.mrgSerSer e, R.mrgErsErs e, R.mrgSiraSira e, R.mrgSirbSirb e,
    R.mrgSirnSirn e, R.mrgVarVar e, R.mrgPsigPsig e] ++ (List.range 16).map (R.mrgIterCount e)).foldl (fun s f => s.wr f 0) s

/-- READ_START. -/
def execReadStart (e : EngIx) (s : State) : Out := atEng e (engWrite e (readStart e)) s
/-- READ_ABORT. -/
def execReadAbort (e : EngIx) (s : State) : Out := atEng e (engWrite e (readAbort e)) s
/-- READ_SLOT_START. -/
def execReadSlotStart (e : EngIx) (wobble : List Nat) (symcnt : Nat) (s : State) : Out :=
  atEng e (readSlotStart e wobble symcnt) s
/-- SAMPLE_PACKET. -/
def execSamplePacket (p : PosIx) (x : SamplePacket) (s : State) : Out := atPos p (samplePacket p x) s
/-- READ_RESULT_POST. -/
def execReadResultPost (e : EngIx) (mismatch : List (Fin 16)) (upsets : List Upset) (cacheErr : Option CacheError) (s : State) :
    Out :=
  atEng e (fun s => readResultPost e mismatch cacheErr (applyUpsets upsets s)) s
/-- RETRY_PASS. -/
def execRetryPass (p : PosIx) (n : Nat) (deep : Bool) (upsets : List Upset) (s : State) : Out :=
  atPos p (fun s => retryPass p n deep (applyUpsets upsets s)) s
/-- MARGIN_CLEAR. -/
def execMarginClear (e : EngIx) (s : State) : Out := atEng e (engWrite e (marginClear e)) s

end Sys2Proof.Machine
end

