-- ==== Sys2Proof/Machine/Data.lean ====
section
/-! DEFINITION. The data commands (R313 to R317, R400, R401): the ends of APPEND and PLACE, READ and VERIFY from the
tundish and the medium, patrol reads, stripe operations, and the first access to a layer. -/

namespace Sys2Proof.Machine

/-- What reading one codeword gives: its 4,096 user bytes, its VALID, and whether it was recovered late or rebuilt; or
nothing yet; or an unrecovered codeword with its result and step; or the end of the command with a class and a reason. -/
inductive CwRead where
  | ok (bytes : List Byte) (valid : Nat) (late : Bool)
  | wait
  | bad (surface result step : Nat)
  | ends (cls reason : Nat)
  deriving DecidableEq, Repr

/-- A codeword of padding (R40). -/
def padRead : CwRead := .ok (List.replicate 4096 0) 0 false

/-- Whether a rank's bytes come from the tundish (R310, R317): its data is not yet cast, or its cast has failed. -/
def inTundish (s : State) (p : PosIx) (n : Nat) : Option Rank :=
  match castOf s p (n / 128), rankOf s p n with
  | some c, some r => if r.phase != .cast || c.failed.isSome then some r else none
  | _, _ => none

/-- Codeword u of a rank in the tundish, given what the uses of its frames' tiles gave. DEDUCED: log 65. -/
def tundishCw (r : Rank) (frames : List (Nat × Except Nat (List Byte))) (u : Nat) : CwRead :=
  if u ≥ r.assigned || bitAt r.pads u then padRead
  else if nth 0 r.fill (u / 16) < 4096 * (u % 16) + 4096 then .wait
  else match Assoc.get (u / 16) frames with
    | some (.ok l) => .ok (slice l (4096 * (u % 16)) 4096) (((r.valids.find? fun v => v.1 == u).map (·.2)).getD 4096) false
    | some (.error e) => .ends 3 e
    | none => .wait

/-- The uses of the tiles that hold codewords u0 up to u1 of a rank (R354). -/
def tundishFrames (r : Rank) (u0 u1 : Nat) (s : State) : List (Nat × Except Nat (List Byte)) × State :=
  ((List.range 6).filter fun k => u0 < 16 * (k + 1) && 16 * k < u1).foldl (fun (acc : List (Nat × Except Nat (List Byte)) × State) k =>
    match Assoc.get k r.tiles with
    | none => acc
    | some t =>
      let (l, s) := tileCheck (.hqi 0) t acc.2
      (acc.1 ++ [(k, l)], s)) ([], s)

/-- User bytes as they are delivered (R40, R117): zero from VALID on. -/
def validBytes (l : List Byte) (valid : Nat) : List Byte := slice (l.take valid) 0 4096

/-- Codeword u of a rank read from the medium (R117, R136, R452): never bytes of a codeword that has not passed; deciphered where
ENC is 1. DEDUCED: log 65. -/
def mediumCw (s : State) (p : PosIx) (r : RankRead) (u : Nat) : CwRead :=
  if bitAt r.okMask u then
    let l := outBytes s r (u / 16) (u % 16)
    let late := bitAt r.lateMask u || bitAt r.builtMask u
    let valid := leAt l 4114 2
    if bitAt (leAt l 4112 1) 4 then .ok (List.replicate 4096 0) 0 late
    else if !bitAt (leAt l 4113 1) 0 then .ok (validBytes (l.take 4096) valid) valid late
    else match Assoc.get p.val s.mtl.keys with
      | some key => .ok (validBytes (xtsDec key (leAt l 4096 8) (l.take 4096)) valid) valid late
      | none => .ends 2 0x040E
  else .bad (surfaceOf (u / 16) r.slot) (nth 0 r.result u) r.step

/-- A free tile outside the mirror regions, for plaintext that has been read (R349): the lowest. DESIGN CHOICE: log 104. -/
def readTile (s : State) : Option Nat :=
  lowestFrom (fun t => tileOk s t && !mirrored s (t * 65536) && (sealGet s t).state == tileFree) (s.cap / 65536) 0

/-- The plaintext of one frame's codewords, sealed into a read tile and used from there (R117, R352, R354); none where no tile is
free. A tile whose seal fails is freed, and the codewords are read again (Table 12.6). -/
def throughTile (l : List CwRead) (s : State) : Option (List CwRead × State) :=
  let data := (l.filterMap fun c => match c with | .ok b _ _ => some b | _ => none).flatten
  if data.isEmpty then some (l, s) else
  (readTile s).map fun t =>
    let s := (sealingWrite (.beam 0) t 0 data (tileOpenAct t (sealGet s t) s)).2
    match tileCheck (.hqi 0) t s with
    | (.ok _, s) => (l, sealPut t { sealGet s t with state := tileFree } s)
    | (.error _, s) => (l.map fun _ => .wait, sealPut t { sealGet s t with state := tileFree } s)

/-- Codewords by data frame through read tiles, in order. -/
def throughTiles : List (List CwRead) → State → List CwRead × State
  | [], s => ([], s)
  | l :: t, s =>
    match throughTile l s with
    | none => (l.map fun _ => .wait, s)
    | some (l, s) =>
      let (r, s) := throughTiles t s
      (l ++ r, s)

/-- Codewords u0 up to u1 of rank n, in order. DEDUCED: log 65. -/
def rankCws (p : PosIx) (n u0 u1 : Nat) (s : State) : List CwRead × State :=
  if u1 ≤ u0 then ([], s) else
  let us := (List.range (u1 - u0)).map (u0 + ·)
  match inTundish s p n with
  | some r =>
    let (frames, s) := tundishFrames r u0 u1 s
    (us.map (tundishCw r frames), s)
  | none =>
    let layer := rankLayer n
    if bitAt s.packs[p].badCard layer then (us.map fun _ => .ends 2 0x0403, s)
    else if !bitAt s.packs[p].seen layer then (us.map fun _ => .wait, wake p s)
    else match readOf s p n with
      | some r =>
        if r.final then throughTiles ((List.range 6).map fun k => (us.filter fun u => u / 16 == k).map (mediumCw s p r)) s
        else (us.map fun _ => .wait, s)
      | none => (us.map fun _ => .wait, wake p s)

/-- The first byte of [lo, hi) that an entry of log page 0x02 of another cause than 1 lists (R317). -/
def firstLost (s : State) (p : PosIx) (lo hi : Nat) : Option Nat :=
  ((s.packs[p].uncast.filter fun u => u.cause != 1 && u.addr % 2 ^ 45 < hi && lo < u.addr % 2 ^ 45 + u.len).map fun u =>
    max lo (u.addr % 2 ^ 45)).min?

/-- A reading that a command has used is over: a later command reads the rank again. -/
def dropRead (p : PosIx) (n : Nat) (s : State) : State :=
  let s := s.updPack p fun k => { k with reads := k.reads.filter fun r => r.n != n }
  -- readings that only a digest check of this rank wanted go with it (R134)
  s.updPack p fun k => { k with reads := k.reads.filter fun r =>
    r.n / 128 != n / 128 || r.digest || (s.hqi.tags.any fun t => !(tagCols r.n t p).isEmpty) || k.patrolling == some r.n ||
    (k.reads.any fun x => x.digest && x.n / 128 == n / 128) }

/-- An entry of log page 0x03 or 0x06 for codeword u of rank n. -/
def unrecOf (s : State) (p : PosIx) (n u surface result step aseq : Nat) : Unrec :=
  { addr := p.val * 2 ^ 45 + n * rankBytes + 4096 * u, rank := n, surface := surface, result := result, step := step,
    aseq := aseq, time := s.rd R.timeNowNs }

/-- Unrecovered codewords among those read of a rank from codeword u0 on. -/
def badOnes (s : State) (p : PosIx) (n u0 aseq : Nat) (l : List CwRead) : List Unrec :=
  (l.zipIdx.filterMap fun x => match x.1 with
    | .bad f res step => some (unrecOf s p n (u0 + x.2) f res step aseq)
    | _ => none)

/-- The leading codewords that were read: their bytes, with how many there are. -/
def goodBytes : List CwRead → List (List Byte)
  | .ok b _ _ :: t => b :: goodBytes t
  | _ => []
def lateCount (l : List CwRead) : Nat :=
  (l.filter fun c => match c with | .ok _ _ late => late | _ => false).length

/-- Bytes to the host memory of a command, from an offset of its buffer. -/
def toHost (t : Tag) (off : Nat) (l : List Byte) (s : State) : State := scatter t.fn t.pieces off l s

/-- One rank's part of a READ (R315, R317): bytes up to the first that cannot be given, then the command's end. DEDUCED: log 48, 65. -/
def readRank (t : Tag) (p : PosIx) (vaddr len moved : Nat) (s : State) : State :=
  let lo := vaddr + moved
  let n := lo / rankBytes
  let hi := min (vaddr + len) ((n + 1) * rankBytes)
  let cut := firstLost s p lo hi
  let stop_ := cut.getD hi
  let u0 := lo % rankBytes / 4096
  let u1 := (stop_ - n * rankBytes + 4095) / 4096
  let (cws, s) := rankCws p n u0 u1 s
  if cws.any (· == .wait) then s else
  let good := goodBytes cws
  let l := (good.flatten.drop (lo % 4096)).take (stop_ - lo)
  let done_ := moved + l.length
  let s := if l.isEmpty then s else toHost t moved l s
  let s := updTag t.num (fun t => { t with started := true, work := .read p vaddr len done_ false done_ 0 0 }) s
  let bad := badOnes s p n u0 t.aseq cws
  let s := dropRead p n (bad.foldl (fun s u => unrecEntry t.fn u s) s)
  match cws.drop good.length with
  | .bad _ _ _ :: _ => finish t.num 2 0x040A done_ s
  | .ends c r :: _ => finish t.num c r done_ s
  | _ => if cut.isSome then finish t.num 2 0x040B done_ s else if done_ ≥ len then finish t.num 0 0 len s else s

/-- One rank's part of a VERIFY (R316): its codewords are counted. DEDUCED: log 48. -/
def verifyRank (t : Tag) (p : PosIx) (vaddr len moved late bad : Nat) (s : State) : State :=
  let lo := vaddr + moved
  let n := lo / rankBytes
  let hi := min (vaddr + len) ((n + 1) * rankBytes)
  let cut := firstLost s p lo hi
  let stop_ := cut.getD hi
  let u0 := lo % rankBytes / 4096
  let u1 := (stop_ - n * rankBytes + 4095) / 4096
  let (cws, s) := rankCws p n u0 u1 s
  if cws.any (· == .wait) then s else
  let lost := badOnes s p n u0 t.aseq cws
  let late := late + lateCount cws
  let bad := bad + lost.length
  let s := updTag t.num (fun t => { t with started := true, work := .read p vaddr len (moved + (stop_ - lo)) true 0 late bad }) s
  let s := dropRead p n (lost.foldl (fun s u => unrecEntry t.fn u s) s)
  let result := late % 2 ^ 32 + bad % 2 ^ 32 * 2 ^ 32
  match cws.find? fun c => match c with | .ends _ _ => true | _ => false with
  | some (.ends c r) => finish t.num c r result s
  | _ =>
    if cut.isSome then finish t.num 2 0x040B result s
    else if stop_ ≥ vaddr + len then
      (if bad = 0 then finish t.num 0 0 result s else finish t.num 2 0x040A result s)
    else s

/-- The codewords of a whole range, rank by rank. -/
def rangeCws (p : PosIx) (vaddr len : Nat) (s : State) : List (Nat × CwRead) × State :=
  (ranksOf vaddr len).foldl (fun (acc : List (Nat × CwRead) × State) n =>
    let lo := max vaddr (n * rankBytes)
    let hi := min (vaddr + len) ((n + 1) * rankBytes)
    let (l, s) := rankCws p n (lo % rankBytes / 4096) ((hi - n * rankBytes + 4095) / 4096) acc.2
    (acc.1 ++ l.zipIdx.map (fun x => (96 * n + lo % rankBytes / 4096 + x.2, x.1)), s)) ([], s)

/-- A DECOMP READ (R315, R401): the whole stored stream is decoded with HOLD; nothing is delivered unless its trailer verifies. -/
def readDecomp (t : Tag) (p : PosIx) (vaddr len : Nat) (s : State) : State :=
  let cut := firstLost s p vaddr (vaddr + len)
  let (cws, s) := rangeCws p vaddr len s
  if cws.any (·.2 == .wait) then s else
  let s := (ranksOf vaddr len).foldl (fun s n => dropRead p n s) s
  let bad := cws.filterMap fun x => match x.2 with
    | .bad f res step => some (unrecOf s p (x.1 / 96) (x.1 % 96) f res step t.aseq)
    | _ => none
  let s := bad.foldl (fun s u => unrecEntry t.fn u s) s
  let good := goodBytes (cws.map (·.2))
  match cws.drop good.length with
  | (_, .bad _ _ _) :: _ => finish t.num 2 0x040A 0 s
  | (_, .ends c r) :: _ => finish t.num c r 0 s
  | _ =>
    if cut.isSome then finish t.num 2 0x040B 0 s else
    let valid := match cws.getLast? with | some (_, .ok _ v _) => v | _ => 0
    let stored := good.flatten.take (len - 4096 + valid)
    let d := taperDecode stored (2 ^ 64)
    match d.fin with
    | some (.fault r) => finish t.num 3 r 0 (s.log r srcHqi p vaddr t.num)
    | _ =>
      let out := d.out.toList
      let l := out.take t.dlen
      let s := if l.isEmpty then s else toHost t 0 l s
      let result := l.length % 2 ^ 32 + out.length % 2 ^ 32 * 2 ^ 32
      if out.length ≤ t.dlen then finish t.num 0 0 result s else finish t.num 5 0x0210 result s

/-- READ and VERIFY: one rank, or for DECOMP the range, once its bytes can be had (R310, R315, R316). DEDUCED: log 60. -/
def readCmd (op n : Nat) (s : State) : State :=
  match cmdAt s n op with
  | none => s
  | some t =>
    if !mayTransfer s t || s.pins.pwrFail then s else
    match t.work with
    | .read p vaddr len moved verify _ late bad =>
      if verify then verifyRank t p vaddr len moved late bad s
      else if t.decomp then readDecomp t p vaddr len s
      else readRank t p vaddr len moved s
    | _ => s

/-- A stream copied into tundish tiles as a write's data, from its byte `moved` on (R400). -/
def copyStream (n : Nat) (stream : List Byte) (tiles : List Nat) (s : State) : State :=
  match tagOf s n with
  | none => s
  | some t =>
    match t.work with
    | .write p a len moved force =>
      let (k, s) := stageBytes (.comp 0) p (a + len) 300 (a + moved) (stream.drop moved) tiles s
      endWrites (readyRange p a len (updTag n (fun t => { t with work := .write p a len (moved + k) force }) s))
    | _ => s

/-- The output of an ended job, each tile as a use. -/
def jobOutput (a : Nat) (s : State) : Except Nat (List Byte) × State :=
  let d := s.sramRead a 64
  readListed (.comp 0) (jOutList d) (leAt d 52 4) s

/-- An INLINE write whose stream is complete (R400): checks 4 to 6 again, then admission with the codewords of the stream;
a job that failed admits the command with an empty range. DEDUCED: log 67. -/
def admitInline (n a : Nat) (tiles : List Nat) (s : State) : State :=
  match tagOf s n with
  | none => s
  | some t =>
    let d := s.sramRead a 64
    let fail := fun (reason : Nat) (s : State) => finish n (jobClass reason) reason 0 (issueAseq n s)
    if leAt d 58 1 != 1 then fail (leAt d 60 2) s
    else
      let len := leAt d 52 4
      match check4 s t <|> check5 s t <|> check6 s t len <|> checkOpen s t len with
      | some r => refuse n r (updTag n (fun t => { t with work := .none }) s)
      | none =>
        match jobOutput a s with
        | (.error r, s) => fail r s
        | (.ok l, s) => copyStream n l tiles (assignWrite n len (issueAseq n s))

/-- APPEND and PLACE beyond admission and staging (R59, R313, R400): a write that has its end completes; an INLINE write
is admitted when its job has ended, and its stream is copied as the tundish takes it. -/
def writeCmd (op n : Nat) (tiles : List Nat) (s : State) : State :=
  match tagOf s n with
  | none => s
  | some t =>
    if t.op != op || t.done || t.orphan || !fwUp s then s else
    match t.work, t.job with
    | .inline _, some a => admitInline n a tiles s
    | .write _ _ len moved _, some a =>
      if moved ≥ len then endWrites s
      else match jobOutput a s with
        | (.ok l, s) => copyStream n l tiles s
        | (.error r, s) => finish n 3 r 0 (stopWork t r s)
    | .write _ _ _ _ _, none => endWrites s
    | _, _ => s

/-- Whether some READ or VERIFY waits for engines: its position runs no stripe operation. -/
def readWaits (s : State) : Bool :=
  s.hqi.tags.any fun t => !t.done && match t.work with
    | .read p _ _ _ _ _ _ _ => !streaming s p
    | _ => false

/-- A patrol read of a recorded rank (R331): it starts while no command waits for a stripe, and is counted when its outcome is final. -/
def patrolRead (p : PosIx) (n : Nat) (s : State) : State :=
  let k := s.packs[p]
  if k.status != .mounted || s.policyOf 0x30 p = 0 || !fwUp s then s else
  match k.patrolling with
  | none =>
    if readWaits s || !k.recorded.contains (n / 128) || !tracking s p then s
    else s.updPack p fun k => { k with patrolling := some n, reads := k.reads.filter fun r => r.n != n }
  | some m =>
    match readOf s p m with
    | some r =>
      if m != n || !r.final then s else
      let lost := (List.range 96).filterMap fun u =>
        if bitAt r.okMask u then none else some (unrecOf s p m u (surfaceOf (u / 16) r.slot) (nth 0 r.result u) r.step 0)
      let ones := fun (mask : Nat) => ((List.range 128).filter (bitAt mask)).length
      let s := s.updPack p fun k =>
        { k with patrolling := none, reads := k.reads.filter (fun r => r.n != m), patrolErr := (lost.reverse ++ k.patrolErr).take 256,
                 patrol := (k.patrol.1, k.patrol.2.1 + 1, k.patrol.2.2.1 + ones r.lateMask, k.patrol.2.2.2.1 + ones r.builtMask,
                            k.patrol.2.2.2.2 + lost.length) }
      if lost.isEmpty then s else packPageChange 6 p s
    | none => s

/-- Stripe operations that may run at once (R14, THERM_TJ). DESIGN CHOICE: log 10; DEDUCED: log 69. -/
def stripeLimit (s : State) : Nat :=
  let n := if s.part == .oa408 then 1 else 3
  if s.lamp.tjHot then min 2 n else n

/-- POUR_SHARE, 1 on the OA408 (Table 11.6). -/
def pourShare (s : State) : Nat := if s.part == .oa408 then 1 else s.policyOf 0x50 0

/-- Whether eight engines can be allocated to position p: distinct, ready, idle and free (R13, R418). DEDUCED: log 69. -/
def enginesFree (s : State) (p : PosIx) (es : List EngIx) : Bool :=
  es.length == 8 && (es.map (·.val)).eraseDups.length == 8 && es.all fun e =>
    engOffered s e && engReady s e && !s.bit (R.castStatBusy e) && !s.bit (R.rdStatBusy e) && !s.eng[e].gate &&
    s.eng[e].poured.isEmpty &&
    (((s.eng[e].home.map (·.1)).getD p) == p || !s.stripes.any fun x => x.engines.contains e && stripeRuns s x)

/-- Stripe operations other than those of p that run. DEDUCED: log 69. -/
def othersRun (s : State) (p : PosIx) (f : Stripe → Bool) : Nat :=
  (s.stripes.filter fun x => x.p != p && f x && stripeRuns s x).length

/-- Engine e serves surface f of position p from here on: what it had of another pickup's clock and wobble goes (R101). -/
def rehome (e : EngIx) (p : PosIx) (f : Fin 8) (s : State) : State :=
  if s.eng[e].home == some (p, f) then s else
  (s.clr1 (R.trStatLocked e)).updEng e fun y =>
    { y with home := some (p, f), preset := none, word := [], wordMiss := 0, wob := [] }

/-- A stripe operation begins (R13, R14, R505): the pack is locked and tracking, its channels run, firmware runs, and its
engines are allocated. A pour waits for OPC of its layer (R224), for POUR_SHARE and for the pack's temperature. DEDUCED: log 69. -/
def stripeStart (p : PosIx) (pour : Bool) (layer : Nat) (es : List EngIx) (s : State) : State :=
  let k := s.packs[p]
  if k.status == .none || !fwUp s || s.pins.pwrFail || streaming s p || !enginesFree s p es ||
      (if pour then pourPaused s p else readsPaused s p) then s
  else if !tracking s p then wake p s
  else if s.rd (R.iglStatSuspend p) != 0 || othersRun s p (fun _ => true) ≥ stripeLimit s then s
  else if pour && (k.hot || k.roMount || (readWaits s && othersRun s p (·.pour) ≥ pourShare s)) then s
  else if pour && !bitAt k.opcDone layer then queueOpc p layer s
  else
    let gone := s.stripes.filter fun x => x.p == p || x.engines.any fun e => es.contains e
    let s := gone.foldl (fun s x => endStripes x.p s) s
    let s := es.zipIdx.foldl (fun s x => rehome x.1 p ⟨x.2 % 8, by omega⟩ s) s
    -- another operation than a pour on the stream's layer stops the stream (R77)
    let s := s.updPack p fun k => { k with stream := k.stream.filter fun x => pour && x.1 == layer }
    setPower p 3 { s with stripes := s.stripes ++ [{ p := p, pour := pour, engines := es }] }

/-- Whether an item of a surface has to be measured at the first access to its layer (Table 8.6): no record of it lies within RECAL_DT
of the pack temperature, or the one that governs there is older than RECAL_AGE. -/
def itemDue (s : State) (p : PosIx) (kind surf layer : Nat) : Bool :=
  let k := s.packs[p]
  let key : CalKey := { kind := kind, pos := p.val, surf := surf, layer := layer, zg := 255, tag := k.tag, temp := 0 }
  let near := (keyRecords s key.bytes).filter fun r => !r.failed && 10 * (r.temp - k.temp).natAbs ≤ 16 * s.policyOf 0x22 p
  match nearest k.temp near with
  | none => true
  | some r => r.time + s.policyOf 0x23 p * 86400000000000 < s.rd R.timeNowNs

/-- The first access to a layer in a mount (R51, R237, R238, R321). `cards`: per surface the card frames read in order; the first
that passes its CRC is the layer's card. -/
def layerAccess (p : PosIx) (layer : Nat) (cards : List (List (List Byte))) (s : State) : State :=
  let k := s.packs[p]
  if k.status == .none || bitAt k.seen layer then s else
  let found := (List.range 8).map fun f => (nth [] cards f).find? cardCrcOk
  let own := fun (x : Option (List Byte) × Nat) => layer != 0 || x.2 != 0
  let misfit := found.zipIdx.any fun x => own x && match x.1 with
    | some c => !cardFits c
    | none => false
  let card := found.findSome? id
  let s := s.updPack p fun k =>
    { k with seen := setBit k.seen layer, badCard := if misfit then setBit k.badCard layer else k.badCard,
             cards := (card.map fun c => Assoc.put layer c k.cards).getD k.cards,
             tempOf := (k.tempOf.filter fun e => e.1 != layer) ++ [(layer, k.temp)] }
  let s := if misfit then readOnly p 0x0403 s else s
  let s := if card.isNone then readOnly p 0x0804 (s.log 0x0804 srcNone p layer 0) else s
  (List.range 8).foldl (fun s f =>
    let due := ([5, 2, 3, 4].filter fun kind => itemDue s p kind f layer).foldl setBit 0
    if due = 0 then s else queueRecal p layer (2 ^ f) due s) s

/-- APPEND. -/
def execAppend (n : Nat) (tiles : List Nat) (s : State) : Out := hostDone (fun s => writeCmd 0x80 n tiles (admitAll s)) s
/-- PLACE. -/
def execPlace (n : Nat) (tiles : List Nat) (s : State) : Out := hostDone (fun s => writeCmd 0x81 n tiles (admitAll s)) s
/-- READ. -/
def execRead (n : Nat) (s : State) : Out := hostDone (fun s => readCmd 0x82 n (admitAll s)) s
/-- VERIFY. -/
def execVerify (n : Nat) (s : State) : Out := hostDone (fun s => readCmd 0x83 n (admitAll s)) s
/-- PATROL_READ. -/
def execPatrolRead (p : PosIx) (n : Nat) (s : State) : Out := atPos p (patrolRead p n) s
/-- STRIPE_START. -/
def execStripeStart (p : PosIx) (pour : Bool) (layer : Fin 16) (engines : List EngIx) (s : State) : Out :=
  atPos p (stripeStart p pour layer engines) s
/-- LAYER_FIRST_ACCESS. -/
def execLayerFirstAccess (p : PosIx) (layer : Fin 16) (cards : List (List (List Byte))) (s : State) : Out :=
  atPos p (layerAccess p layer cards) s

end Sys2Proof.Machine
end

