-- ==== Sys2Proof/Machine/Firmware.lean ====
section
/-! DEFINITION. FW_DOWNLOAD and FW_ACTIVATE (R442, R443), and the single-block reset (R445, R446). -/

namespace Sys2Proof.Machine

/-- The slot not in use (R442): not the one that started the running firmware; B where none did. DEDUCED: log 40. -/
def unusedSlot (s : State) : Nat := 1 - s.rd R.lampStatSlot

/-- A reset or boot reason for a command: logged, and its completion (R449). -/
def bootFail (n cls reason : Nat) (s : State) : State := finish n cls reason 0 (s.log reason srcLamp noPos 0 n)

/-- One part of an image (R442); a failed erase or program leaves unknown bytes where the part lies. -/
def imagePart (n off : Nat) (data : List Byte) (ok : Bool) (s : State) : State :=
  let len := data.length
  if off % 4096 != 0 || len % 4096 != 0 || len < 4096 || len > 1048576 || off + len > 8388608 ||
      (off != 0 && s.lamp.dlNext != some off) then bootFail n 1 0x0E07 s
  else
    let a := slotBase s (unusedSlot s)
    let m := if off = 0 then Mem.drop s.lamp.flash a 8388608 else s.lamp.flash
    if ok then finish n 0 0 0 (s.updLamp fun l => { l with flash := Mem.put programmed m (a + off) data, dlNext := some (off + len) })
    else
      let (v, s) := s.draw 0xB1
      bootFail n 6 0x0E0D (s.updLamp fun l =>
        { l with flash := Mem.put programmed m (a + off) (leBytes len v), dlNext := none })

/-- An option page (R442). -/
def optionPart (n off : Nat) (data : List Byte) (s : State) : State :=
  if off != 0 || data.length != 256 then bootFail n 1 0x0E07 s
  else if !optionOk data then bootFail n 1 0x0E08 s
  else finish n 0 0 0 (s.emberWrite emberBase data)

/-- FW_DOWNLOAD (R442). DEDUCED: log 46. -/
def fwDownload (n : Nat) (data : List Byte) (ok : Bool) (s : State) : State :=
  match cmdAt s n 0x20 with
  | none => s
  | some t =>
    let d := slice data 0 t.dlen
    match t.csp 32 1 with
    | 0 => imagePart n (t.csp 36 4) d ok s
    | 1 => optionPart n (t.csp 36 4) d s
    | _ => finish n 1 0x0211 0 s

/-- FW_ACTIVATE (R443). DEDUCED: log 46. -/
def fwActivate (n : Nat) (s : State) : State :=
  match cmdAt s n 0x21 with
  | none => s
  | some t =>
    let act := t.csp 32 1
    let slot := unusedSlot s
    if act != 1 && act != 2 then finish n 1 0x0211 0 s
    else if (slotImage s slot).isNone then bootFail n 1 0x0E0C s
    else if act = 2 && allPos.any fun p => s.packs[p].status != .none then bootFail n 1 0x0E05 s
    else
      let s := s.updLamp fun l => { l with pref := slot, trial := true, failcnt := 0, fwact := if act = 2 then some n else l.fwact }
      finish n 0 0 slot (showBoot s)

/-- 10 ms after the CQE of an ACTION 2 (R443): its tag is free again. DEDUCED: log 46. -/
def fwActivateReset (s : State) : State :=
  match s.lamp.fwact with
  | none => s
  | some n =>
    if (tagOf s n).any fun t => t.op == 0x21 then s
    else raiseSource R.lampCauseFwact .system id (s.updLamp fun l => { l with fwact := none })

/-- The block that LAMP_BRST names, where the part offers it. -/
def blockNamed (s : State) (position : Bool) (index : Nat) : Option BlockId :=
  if position then (if h : index < 8 then (if posOffered s ⟨index, h⟩ then some (.position ⟨index, h⟩) else none) else none)
  else if h : index < 24 then (if engOffered s ⟨index, h⟩ then some (.engine ⟨index, h⟩) else none) else none

/-- LAMP_BRST.GO (R445). DEDUCED: log 45. -/
def blockReset (position : Bool) (index : Nat) (s : State) : State :=
  let refused := (s.wr R.lampBrstatResult 3).log 0x0E0A srcLamp noPos 0 index
  if s.bit R.lampBrstatBusy then refused else
  match blockNamed s position index with
  | none => refused
  | some b =>
    let s := (s.wr R.lampBrstKind (if position then 1 else 0)).wr R.lampBrstIndex index
    ((s.set1 R.lampBrstatBusy).wr R.lampBrstatResult 0).updLamp fun l => { l with blk := some b }

/-- Ranks of a position that await a verdict. -/
def awaitingRanks (s : State) (p : PosIx) : List Nat :=
  (s.packs[p].casts.flatMap fun c => c.ranks.filter fun r => r.phase == .awaiting).map (·.n)

/-- Whether the block is idle (R445). DEDUCED: log 45. -/
def blockIdle (s : State) : BlockId → Bool
  | .engine e => !s.bit (R.rdStatBusy e) && !s.bit (R.castStatBusy e) && !s.eng[e].gate && s.eng[e].poured.isEmpty
  | .position p => !gatesOpen s p && (awaitingRanks s p).isEmpty &&
      (List.finRange 8).all fun f => (s.pos[p].srv.surfs[f].jump).isNone

/-- Fields of a register range kept through the reset of its block. -/
def resetKeeping (fs : List Fld) (lo hi : Nat) (s : State) : State :=
  let old := fs.map fun f => (f, s.rd f)
  old.foldl (fun s x => s.wr x.1 x.2) { s with regs := RegFile.resetRange s.regs lo hi }

/-- The fabric channels of engine e begin anew: not halted, no access waiting. -/
def freshChannel (e : EngIx) (s : State) : State :=
  { s with halted := s.halted.filter (· != .beam e), waitq := s.waitq.filter fun w => w.1 != .beam e }

/-- Engine e returns to its register reset values (R446). DEDUCED: log 45. -/
def engineReset (e : EngIx) (s : State) : State :=
  freshChannel e <| (resetKeeping [] (engBase e) (engBase e + 0x10000) s).updEng e fun x => { EngState.reset with home := x.home }

/-- Position p returns to its reset values (R446): its pack stays mounted and has to be brought back, its stripe operation
ends, its link is stopped, and a measurement's run is cut (R217). Fenced lanes stay fenced (R164), the common tick goes on (R142).
DEDUCED: log 45. -/
def positionReset (p : PosIx) (s : State) : State :=
  let s := resetKeeping [R.srvTickTick p, R.posCfgPack p, R.srvLaneFenceA p, R.srvLaneFenceB p] (posBase p) (posBase p + 0x100000) s
  let s := s.updPos p fun x => { PosState.reset with encA := x.encA, encB := x.encB, pf8 := x.pf8 }
  let s : State := { s with spares := s.spares.map fun x => if x == .joined p then .free else x }
  let s := (endStripes p s).updPack p fun k => { k with power := 0, goOff := false, goPark := false }
  let s : State := { s with cal := { s.cal with meas := s.cal.meas.map fun m => if m.task.p == p then { m with cut := m.on } else m } }
  raisePins p (pllTrim (7 + p) s)

/-- The block is reset with a result (R445); crossings of the block use two flip-flops until its restart ends. -/
def resetBlock (b : BlockId) (result : Nat) (s : State) : State :=
  let s := match b with
    | .engine e => engineReset e s
    | .position p => positionReset p s
  (s.wr R.lampBrstatResult result).updLamp fun l => { l with blk := none, restarting := some b }

/-- Requests that waited on the block's crossings end (R415): a register access of a core with a bus error, the channel of a
DMA requester halts. -/
def flushRequests (l : List Requester) (s : State) : State :=
  l.foldl (fun s r =>
    haltNote r { clkReason 0x0D05 noPos 0 (reqCode r) (s.bump R.clkXstatFlush 1) with
      waitq := s.waitq.filter fun w => w.1 != r, resp := refusal r 0x0D05 }) s

/-- The block is idle within TMO (R445). -/
def blockResetIdle (flushed : List Requester) (s : State) : State :=
  match s.lamp.blk with
  | some b => if blockIdle s b then flushRequests flushed (resetBlock b 1 s) else s
  | none => s

/-- An engine that a forced reset takes out of a pour: its verdict reads 4 (R445). -/
def forceVerdict (e : EngIx) (s : State) : State :=
  (((s.wr (R.castStatVerdict e) 4).set1 (R.castStatDone e)).clr1 (R.castStatBusy e)).updEng e fun x =>
    { x with poured := [], armed := false, gate := false, slot := { x.slot with on := false } }

/-- A rank that awaited its verdict is re-poured, reason 2 (Table 3.9). -/
def dropVerdict (p : PosIx) (n : Nat) (s : State) : State :=
  match rankOf s p n with
  | some r => if r.phase == .awaiting then rankFail p n 2 r.slot s else s
  | none => s

/-- The position concerned, its ranks, and the engines that a forced reset takes out of their pour (R445, Table 3.9). -/
def forceOut (b : BlockId) (s : State) : State :=
  match b with
  | .engine e =>
    match s.eng[e].home with
    | none => s
    | some (p, _) =>
      let s := pulseSnuff p 8 s
      s.eng[e].poured.foldl (fun s x =>
        if dLedger x.desc then tearLedger p s else if dIsRank x.desc then dropVerdict p (dRank x.desc) s else s) s
  | .position p =>
    let s := pulseSnuff p 8 s
    let s := (awaitingRanks s p).foldl (fun s n => dropVerdict p n s) s
    let es := allEng.filter fun e => (s.eng[e].home.map (·.1)) == some p && !s.eng[e].poured.isEmpty
    let torn := es.any fun e => s.eng[e].poured.any fun x => dLedger x.desc
    let s := if torn then tearLedger p s else s
    s.forEach es forceVerdict

/-- TMO expires first (R445): the block reset snuff source, and the block is reset at once. -/
def blockResetTimeout (flushed : List Requester) (s : State) : State :=
  match s.lamp.blk with
  | none => s
  | some b =>
    let s := resetBlock b 2 (forceOut b s)
    let s := match b with
      | .engine e => forceVerdict e s
      | .position _ => s
    flushRequests flushed (s.log 0x0E09 srcLamp (match b with | .position p => p.val | .engine _ => noPos) 0
      (match b with | .engine e => e.val | .position p => p.val))

/-- The restart of a reset block ends (R445, R446). -/
def blockRestartDone (s : State) : State :=
  match s.lamp.restarting with
  | some _ => (s.clr1 R.lampBrstatBusy).updLamp fun l => { l with restarting := none }
  | none => s

/-- FW_DOWNLOAD. -/
def execFwDownload (n : Nat) (data : List Byte) (ok : Bool) (s : State) : Out :=
  hostDone (fun s => fwDownload n data ok (admitAll s)) s
/-- FW_ACTIVATE. -/
def execFwActivate (n : Nat) (s : State) : Out := hostDone (fun s => fwActivate n (admitAll s)) s
/-- FW_ACTIVATE_RESET. -/
def execFwActivateReset (s : State) : Out := done (fwActivateReset s)
/-- BLOCK_RESET. -/
def execBlockReset (position : Bool) (index : Nat) (s : State) : Out := done (blockReset position index s)
/-- BLOCK_RESET_IDLE. -/
def execBlockResetIdle (flushed : List Requester) (s : State) : Out := done (blockResetIdle flushed s)
/-- BLOCK_RESET_TIMEOUT. -/
def execBlockResetTimeout (flushed : List Requester) (s : State) : Out := done (blockResetTimeout flushed s)
/-- BLOCK_RESTART_DONE. -/
def execBlockRestartDone (s : State) : Out := done (blockRestartDone s)

end Sys2Proof.Machine
end

