-- ==== Sys2Proof/Machine/Operands.lean ====
section
/-! DEFINITION. Operand forms. A command's operands are the arguments of its constructor, typed in Syntax.lean; parts that
come as bytes are read where they are used (host rings in HostOps.lean, descriptors in Format.lean and Channel.lean). Here
is the one form that many commands share: the bits of a written value that a register field takes. -/

namespace Sys2Proof.Machine

/-- The bits of a written value that a field takes (R4). -/
def fieldOperand (f : Fld) (x : Nat) : Nat := bitsOf x f.lo f.w

end Sys2Proof.Machine
end

