-- ==== Sys2Proof/Machine/Perf.lean ====
section
/-! DEFINITION. PERF (R378 to R381): the live counters, snapshots, and instruction sampling. -/

namespace Sys2Proof.Machine

/-- A live counter raised, saturating at 64 bits (R379). -/
def satAdd (a b : Nat) : Nat := satNat 64 (a + b)

/-- Instructions in flight before an interval's end: those of before and those that issued. -/
def issuedIn (flight : Nat) (l : List Nat) : Nat := flight + 2 * nth 0 l 0 + nth 0 l 1

/-- SQUASHED and RETIRED of an interval: no more leave than are in flight, and at most 32 stay (R378). DESIGN CHOICE: log 32. -/
def squashedIn (flight : Nat) (l : List Nat) : Nat := min (nth 0 l 9) (issuedIn flight l)
def retiredIn (flight : Nat) (l : List Nat) : Nat :=
  let left := issuedIn flight l - squashedIn flight l
  max (left - 32) (min left (nth 0 l 8))

/-- The twelve counts of an interval from the eleven an operand gives: CYC is the sum of the seven classes, and SHORT is
a part of SINGLE (R378). DESIGN CHOICE: log 32. -/
def intervalCounts (flight : Nat) (l : List Nat) : List Nat :=
  let n := nth 0 l
  [n 0 + n 1 + n 3 + n 4 + n 5 + n 6 + n 7, n 0, n 1, min (n 2) (n 1), n 3, n 4, n 5, n 6, n 7, retiredIn flight l,
   squashedIn flight l, n 10]

/-- The live counters of a core after an interval. DESIGN CHOICE: log 32. -/
def countersAdd (flight : Nat) (k : Counters) (l : List Nat) : Counters :=
  k.mapFinIdx fun i v _ => satAdd v (nth 0 (intervalCounts flight l) i)

/-- The snapshot registers of core c, in the order of Table 13.7. -/
def snapFlds (c : Nat) : List Fld :=
  [R.perfCycCyc c, R.perfDualDual c, R.perfSingleSingle c, R.perfShortShort c, R.perfEmptyEmpty c, R.perfLwcchLwcch c,
   R.perfLwfarLwfar c, R.perfDepwaitDepwait c, R.perfBlockBlock c, R.perfRetiredRetired c, R.perfSquashedSquashed c,
   R.perfRedirectRedirect c]

/-- The counters of core c copied to its registers. -/
def showCounters (c : Fin 6) (s : State) : State :=
  (List.range 12).foldl (fun s i => s.wr (nth (R.perfCycCyc c) (snapFlds c) i) (nth 0 s.perf.live[c].toList i)) s

def State.updPerf (s : State) (g : PerfState → PerfState) : State := { s with perf := g s.perf }

/-- PERF_SNAP.GO (R379): what the counters counted since the last command of PERF, then every counter of every core copied,
and SEQ one higher. DESIGN CHOICE: log 32. -/
def perfSnapshot (counts : List (List Nat)) (s : State) : State :=
  let s := s.updPerf fun x => { x with
    live := x.live.mapFinIdx fun i k _ => countersAdd (nth 0 x.flight.toList i) k (nth [] counts i),
    flight := x.flight.mapFinIdx fun i v _ =>
      issuedIn v (nth [] counts i) - squashedIn v (nth [] counts i) - retiredIn v (nth [] counts i) }
  (s.forEach (List.finRange 6) showCounters).tickUp R.perfSnapSeq 1

/-- PERF_CTRL.CLR (R379). -/
def perfClear (s : State) : State :=
  s.updPerf fun x => { x with live := Vector.replicate 6 (Vector.replicate 12 0) }

def updSample (c : CoreIx) (g : SampleState → SampleState) (s : State) : State :=
  s.updPerf fun x => { x with sample := x.sample.set c (g x.sample[c]) }

/-- BASE + (rnd & (2^JIT - 1)) (R381): BASE 0 acts as 1, JIT above 16 as 16, a seed of 0 as 1. -/
def sampleInterval (s : State) (c : CoreIx) (n : Nat) : Nat :=
  max 1 (s.rd (R.perfSmpctlBase c)) +
    Config.sampleRandom (max 1 (s.rd (R.perfSmpseedSeed c))) n % 2 ^ min 16 (s.rd (R.perfSmpctlJit c))

/-- The countdown reloads with the generator's next number. -/
def sampleReload (c : CoreIx) (s : State) : State :=
  let v := sampleInterval s c s.perf.sample[c].drawn
  updSample c (fun x => { x with countdown := v, drawn := x.drawn + 1 }) s

/-- EN of PERF_SMPCTLc set: the generator loads its seed, and the countdown loads. -/
def sampleEnable (c : CoreIx) (s : State) : State :=
  sampleReload c (updSample c (fun x => { x with marked := none, drawn := 0 }) s)

/-- `events` trigger events of core c have come (R381). DESIGN CHOICE: log 32. -/
def sampleTrigger (c : CoreIx) (events : Nat) (s : State) : State :=
  if !s.bit (R.perfSmpctlEn c) || events = 0 then s else
  let x := s.perf.sample[c]
  if events < x.countdown then updSample c (fun x => { x with countdown := x.countdown - events }) s
  else match x.marked with
    | none => updSample c (fun x => { x with countdown := 0, marked := some (s.rd (R.perfSmpctlTrig c)) }) s
    | some _ => sampleReload c (s.bump (R.perfSstatBusy c) 1)

/-- Records in the ring of core c, log2 (Table 13.7). -/
def sampleLog (s : State) (c : CoreIx) : Nat :=
  let l := s.rd (R.perfSbufLog2 c)
  if 7 ≤ l then l else 7

/-- FLAGS of a sample record. -/
def sampleFlags (x : SampleRec) : Nat :=
  (match x.priv with | .user => 0 | .supervisor => 1 | .machine => 3) + (if x.retired then 4 else 8) +
    (if x.redirect then 16 else 0) + (if x.serial then 32 else 0)

/-- The 64 bytes of a sample record (Table 13.5). -/
def sampleBytes (c : CoreIx) (trig time : Nat) (x : SampleRec) : List Byte :=
  leBytes 8 x.pc ++ leBytes 8 x.daddr ++ leBytes 1 trig ++ leBytes 1 (sampleFlags x) ++ leBytes 1 x.level ++ leBytes 1 c ++
  leBytes 2 (satNat 16 x.toqueue) ++ leBytes 2 (satNat 16 x.toissue) ++ leBytes 2 (satNat 16 x.todone) ++
  leBytes 2 (satNat 16 x.toretire) ++ leBytes 1 x.waitcls ++ leBytes 3 0 ++ leBytes 8 time ++ leBytes 24 0

/-- The marked instruction of core c retires or is cancelled (R381). PERF reaches SRAM alone (Table 1.2). -/
def sampleRecord (c : CoreIx) (x : SampleRec) (s : State) : State :=
  match s.perf.sample[c].marked with
  | none => s
  | some trig =>
    let w := s.rd (R.perfSwpCount c)
    let n := 2 ^ sampleLog s c
    let a := s.rd (R.perfSbufAddr c) * 4096 + 64 * (w % n)
    let s := if (w + 2 ^ 32 - s.rd (R.perfSrpCount c)) % 2 ^ 32 = n then s.bump (R.perfSstatDrop c) 1
      else
        let s := if sramBase ≤ a && a + 64 ≤ sramBase + sramSize then s.sramWrite a (sampleBytes c trig (s.rd R.timeNowNs) x) else s
        s.tickUp (R.perfSwpCount c) 1
    let s := updSample c (fun x => { x with marked := none }) s
    if s.bit (R.perfSmpctlEn c) then sampleReload c s else s

/-- PERF_SNAPSHOT. -/
def execPerfSnapshot (counts : List (List Nat)) (s : State) : Out := done (perfSnapshot counts s)
/-- PERF_CLEAR. -/
def execPerfClear (s : State) : Out := done (perfClear s)
/-- SAMPLE_TRIGGER. -/
def execSampleTrigger (c : CoreIx) (events : Nat) (s : State) : Out := done (sampleTrigger c events s)
/-- SAMPLE_RECORD. -/
def execSampleRecord (c : CoreIx) (x : SampleRec) (s : State) : Out := done (sampleRecord c x s)

end Sys2Proof.Machine
end

