-- ==== Sys2Proof/Machine/RegAccess.lean ====
section
/-! DEFINITION. Register space and BAR0 (R4 to R8, R18 to R20, R273): the register at an address, what a read returns and
clears, and what a write does to fields that have no command of their own. -/

namespace Sys2Proof.Machine

/-- The block that a register address lies in (Table 1.4). -/
inductive Home where
  | sys (n : Fin 12)
  | eng (e : EngIx)
  | srv (p : PosIx)
  | spn (p : PosIx)
  | car (p : PosIx)
  | igl (p : PosIx)
  | fn (f : FnIx)
  deriving DecidableEq, Repr

/-- The block of a fabric address (R18). -/
def homeOf (a : Nat) : Option Home :=
  let o := a - 0x0200000000
  if a < 0x0200000000 then none
  else if h : o / 0x100000 < 12 then some (.sys ⟨o / 0x100000, h⟩)
  else if h : 16 ≤ o / 0x100000 ∧ o / 0x100000 < 24 then
    let p : PosIx := ⟨o / 0x100000 - 16, by omega⟩
    let k := o % 0x100000
    some (if k < 0x40000 then .srv p else if k < 0x60000 then .spn p else if k < 0x80000 then .car p else .igl p)
  else if h : 0x2000000 ≤ o ∧ o < 0x2180000 then some (.eng ⟨(o - 0x2000000) / 0x10000, by omega⟩)
  else none

/-- The registers of the loop block, the jump block or the rest of SRV that an address lies in. -/
def srvRegsAt (p a : Nat) : List Reg :=
  let o := a - posBase p
  if 0x1000 ≤ o && o < 0x4000 then
    let l := (o - 0x1000) / 0x200
    let k := (o - 0x1000) % 0x200
    if k < 0x100 then R.loopRegs p l
    else
      let n := (k - 0x100) % 0x80 / 0x14
      let j := (k - 0x100) % 0x80 % 0x14 / 4
      if n < 6 then [⟨a - a % 4, 32, [R.loopCoefCoef p l ((k - 0x100) / 0x80) n j]⟩] else []
  else if 0x4000 ≤ o && o < 0x4200 then R.jmpRegs p ((o - 0x4000) / 0x40)
  else R.srvRegs p

/-- The registers among which an address is looked up. -/
def homeRegs (h : Home) (a : Nat) : List Reg :=
  match h with
  | .sys 0 => R.lampRegs | .sys 1 => R.clkRegs | .sys 2 => R.pwrRegs | .sys 3 => R.timeRegs | .sys 4 => R.fltRegs
  | .sys 5 => R.hqiRegs | .sys 6 => R.bufRegs | .sys 7 => R.cchRegs | .sys 8 => R.perfRegs | .sys 9 => R.cmpRegs
  | .sys 10 => R.mtlRegs | .sys 11 => R.calRegs
  | .eng e => R.engRegs e
  | .srv p => srvRegsAt p a
  | .spn p => R.spnRegs p
  | .car p => R.carRegs p
  | .igl p => R.iglRegs p
  | .fn f => R.fnRegs f

/-- The registers that an access of a size touches. -/
def regsTouched (l : List Reg) (a size : Nat) : List Reg :=
  l.filter fun r => r.addr < a + size && a < r.addr + r.width / 8

/-- Whether an access that names no register at its full width touches one (R7): it may begin in one group of SRV's registers
and end in the next. -/
def touchesReg (h : Home) (a size : Nat) : Bool :=
  !(regsTouched (homeRegs h a ++ homeRegs h (a + (size - 1))) a size).isEmpty

/-- The register that an access names at its full width (R7). -/
def regExact (l : List Reg) (a size : Nat) : Option Reg := l.find? fun r => r.addr == a && r.width == 8 * size

/-- A field as a read shows it: FN_STS.RDY reads zero while HQI_CTRL.EN is 0 (R304). DEDUCED: log 23. -/
def fieldShown (s : State) (f : Fld) : Nat :=
  if !s.bit R.hqiCtrlEn && allFn.any (fun n => f == R.fnStsRdy n) then 0 else f.readValue (s.rd f)

/-- A register's value as a read returns it (R4). -/
def regValue (s : State) (r : Reg) : Nat := (r.flds.map fun f => fieldShown s f * 2 ^ f.lo).foldl (· + ·) 0

/-- The head of an event queue leaves with the read (Tables 9.11 and 10.11). -/
def popEvents (h : Home) (a : Nat) (s : State) : State :=
  match h with
  | .igl p => if a = (R.iglEvtValid p).addr then
      showIglEvt p (s.updIgl p fun g => { g with events := g.events.drop 1, evtLost := false }) else s
  | .sys 5 => if a = R.hqiEvtValid.addr then
      showHqiEvt (s.updHqi fun x => { x with events := x.events.drop 1, evtLost := false }) else s
  | _ => s

/-- MTL_DATA is cleared once every word of a key operation's result has been read (Table 17.5). DEDUCED: log 47. -/
def mtlRead (a : Nat) (s : State) : State :=
  let i := (a - (R.mtlDataData 0).addr) / 8
  if a < (R.mtlDataData 0).addr || i ≥ 32 || !bitAt s.mtl.unread i then s else
  let u := clrBit s.mtl.unread i
  let s := s.updMtl fun m => { m with unread := u }
  if u = 0 then s.forEach (List.range 32) fun i s => s.wr (R.mtlDataData i) 0 else s

/-- What a read leaves (R4, R6): RC fields clear, an event queue moves on. -/
def regAfterRead (h : Home) (r : Reg) (s : State) : State :=
  let s := r.flds.foldl (fun s f => s.wr f (f.afterRead (s.rd f))) s
  mtlRead r.addr (popEvents h r.addr s)

/-- Whether a block is one of a disabled position or engine (R2), and whether its registers answer (R418). -/
def homeOffered (s : State) : Home → Bool
  | .eng e => engOffered s e
  | .srv p => posOffered s p
  | .spn p => posOffered s p
  | .car p => posOffered s p
  | .igl p => posOffered s p
  | _ => true
def homePowered (s : State) : Home → Bool
  | .eng e => bitAt (s.rd R.pwrEngrdyRdy) e
  | _ => true

/-- An access to the registers of an engine that is not ready (R418). -/
def unpowered (who : Requester) (a : Nat) (s : State) : State :=
  { clkReason 0x0D04 noPos a (reqCode who) s with resp := refusal who 0x0D04 }

/-- A read of register space (R4, R6, R7, R18). CLK shows its domains as they are now. DEDUCED: log 13. -/
def regRead (who : Requester) (h : Home) (a size : Nat) (s : State) : State :=
  if !homeOffered s h then { s with resp := .value 0 }
  else if !homePowered s h then unpowered who a s
  else
    let s := match h with | .sys 1 => showClk s | _ => s
    match regExact (homeRegs h a) a size with
    | some r => { regAfterRead h r s with resp := .value (regValue s r) }
    | none =>
      if touchesReg h a size then { s with resp := refusal who 0 } else { s with resp := .value 0 }

/-- Fields that a write hands to the command of its own row (regCommand), which decides what they become. -/
def ownRow : Home → List Fld
  | .sys 0 => [R.lampCrelRel, R.lampWdtEn]
  | .sys 1 => [R.clkZenEn]
  | .sys 2 => [R.pwrEngOn]
  | .sys 5 => [R.hqiCciCount]
  | .sys 6 => [R.bufCtrlM1Off, R.bufCtrlM0Off, R.bufCtrlEn]
  | .sys 9 => [R.cmpJpiCount]
  | .sys _ => []
  | .eng _ => []
  | .srv p => [R.srvCtrlEn p, R.posCfgEn p] ++
      (List.range 24).map (fun l => R.loopCtrlMode p l) ++
      (List.range 8).flatMap fun f => [R.srvSpTilt p f, R.srvSpTrack p f, R.srvSpFocus p f]
  | .spn p => [R.spnSpdTarget p]
  | .car p => [R.carTgtTgt p]
  | .igl p => [R.iglCtrlEn p]
  | .fn f => [R.fnCtlEn f]

/-- Registers whose writes are ignored for now: as their tables state, and R190, R204, R206, R241, R361. DEDUCED: log 14. -/
def regLocked (s : State) (h : Home) (a x : Nat) : Bool :=
  match h with
  | .sys 0 => a == R.lampWdtPeriod.addr && (s.bit R.lampWdtEn || bitAt x 31)
  | .sys 5 => a == R.hqiCringLog2.addr && s.bit R.hqiCtrlEn
  | .sys 6 => s.bit R.bufCtrlEn && (a == R.bufSealtAddr.addr ||
      (List.range 4).any fun n => a == (R.bufMirBase n).addr || a == (R.bufVrgnBase n).addr)
  | .sys 8 => (List.range 6).any fun c => a == (R.perfSbufAddr c).addr && s.bit (R.perfSmpctlEn c)
  | .sys 9 => s.bit R.cmpCtrlEn && (a == R.cmpJringAddr.addr || a == R.cmpCtxbaseAddr.addr)
  | .sys 10 => s.bit R.mtlStatBusy && (List.range 32).any fun i => a == (R.mtlDataData i).addr
  | .sys 11 => (a == R.calRegionBase.addr && s.bit R.calStatBusy) || (a == R.calInjEn.addr && bitAt x R.calInjEn.lo)
  | .spn p => s.bit (R.posCfgEn p) &&
      [(R.spnCfgPoles p).addr, (R.spnSmpT1 p).addr, (R.spnOvaOv1 p).addr, (R.spnOvbOv2 p).addr].contains a
  | .car p =>
    (s.bit (R.posCfgEn p) &&
      ([(R.carCfgRamp p).addr, (R.carVlimInPos p).addr, (R.carVlimOutPos p).addr, (R.carIdxPos p).addr,
        (R.carTblrefDref p).addr, (R.carTblnN p).addr].contains a ||
       (List.range 64).any fun i => a == (R.carTblT p i).addr || a == (R.carTblX p i).addr || a == (R.carTblV p i).addr)) ||
    (carState s p == carGeared && (List.range 4).any fun i =>
      (i < s.rd (R.carGtctlNext p) || (i == s.rd (R.carGtctlNext p) && i < gearN s p)) && (a == (R.carGtposPos p i).addr || a == (R.carGtratRatio p i).addr))
  | .fn f => s.bit (R.fnCtlEn f) &&
      [(R.fnAqaAcqlog f).addr, (R.fnAsqAddr f).addr, (R.fnAcqAddr f).addr].contains a
  | _ => false

/-- What follows from a write beside the fields themselves. DEDUCED: log 23. -/
def regHook (h : Home) (a x : Nat) (before s : State) : State :=
  match h with
  | .sys 1 => s.forEach (List.range 15) fun n s =>
      if a = (R.clkPllForce n).addr then pllTrim n (if n ≥ 5 then s.clr1 (R.clkPllSsc n) else s) else s
  | .sys 5 =>
    if a = R.hqiCqselFn.addr then showCq s else s
  | .sys 6 =>
    -- EN written 0 closes the interfaces; EN written 1 is BUF_ENABLE
    if a = R.bufCtrlEn.addr && !bitAt x R.bufCtrlEn.lo then pllTrim 4 (pllTrim 3 (s.clr1 R.bufCtrlEn)) else s
  | .sys 8 => s.forEach (List.finRange 6) fun c s =>
      if a = (R.perfSmpctlEn c).addr && s.bit (R.perfSmpctlEn c) && !before.bit (R.perfSmpctlEn c) then sampleEnable c s else s
  | _ => s

/-- The fields of a register after a write of x, where `mask` says which of them the access covers (R4). -/
def fieldsWritten (own : List Fld) (x : Nat) (mask : Fld → Bool) (l : List Fld) (s : State) : State :=
  l.foldl (fun s f => if own.contains f || !mask f then s else s.wr f (f.written (s.rd f) (fieldOperand f x))) s

end Sys2Proof.Machine
end

