-- ==== Sys2Proof/Machine/RegCommands.lean ====
section
/-! DEFINITION. Writes to register space (R4, R7, R18): what the fields of a register take, and the command that some of them
give. A write by address and the row of the command named in a field's table have one effect. -/

namespace Sys2Proof.Machine

/-- A one-bit field of a written value. -/
def asks (f : Fld) (x : Nat) : Bool := fieldOperand f x == 1

/-- The effect g where field f of the register at address a is written 1. -/
def whenAsked (a x : Nat) (f : Fld) (g : State → State) (s : State) : State := if a == f.addr && asks f x then g s else s

/-- The effect g of the value written to field f, where its register lies at address a. -/
def whenWritten (a x : Nat) (f : Fld) (g : Nat → State → State) (s : State) : State :=
  if a == f.addr then g (fieldOperand f x) s else s

/-- SPN_CMD.OP (Table 6.3): other values are refused. -/
def spnCommand (p : PosIx) (op : Nat) (s : State) : State :=
  match op with
  | 1 => spnStart p s | 2 => spnStop p false s | 3 => spnStop p true s | 4 => spnCoastCmd p s | 5 => spnClear p s
  | _ => spnRefuse p s

/-- CAR_CMD.OP (Table 7.2): other values are refused with 0x0708. -/
def carCommand (p : PosIx) (op : Nat) (s : State) : State :=
  match op with
  | 1 => carEnable p s | 2 => carHome p s | 3 => carSeekCmd p s | 4 => carDirectCmd p s | 5 => carGearCmd p s
  | 6 => carStopCmd p s | 7 => carParkCmd p s | 8 => carOffCmd p s | 9 => carClearCmd p s
  | _ => carRefuse p 0x0708 s

/-- BUF_TCMD.GO (Table 12.5). A code that the table does not list runs nothing (DESIGN CHOICE: log 13). -/
def tileCommand (op t : Nat) (s : State) : State :=
  match op with
  | 1 => tileCmd 1 t (tileOpenAct t) s | 2 => tileCmd 2 t (tileCloseAct t) s | 3 => tileCmd 3 t (tileFreeAct t) s
  | 4 => tileCmd 4 t (tileVerifyAct t) s
  | _ => s

/-- BUF_RCMD.GO (R362): code 3 is reserved and ignored. -/
def rangeCommand (op : Nat) (s : State) : State :=
  match op with
  | 0 => bufRange 0 vclrLine s | 1 => bufRange 1 poisonLine s | 2 => bufRange 2 scrubLine s
  | _ => s

/-- CCH_RCMD.GO (R375). -/
def cacheCommand (op cls : Nat) (all : Bool) (s : State) : State :=
  match op with
  | 0 => cchRange 0 cchCleanAct all s | 1 => cchRange 1 cchInvAct all s | 2 => cchRange 2 cchCleanInvAct all s
  | _ => cchLoadCmd cls s

/-- MTL_CMD.GO (Table 17.3). A code that the table does not list runs nothing (DESIGN CHOICE: log 13). -/
def mailCommand (op : Nat) (s : State) : State :=
  match op with
  | 1 => mailGo 1 mailKeyNew s | 2 => mailGo 2 mailUnwrap s | 3 => mailGo 3 mailDrop s | 4 => mailGo 4 mailDestroy s
  | 5 => mailGo 5 mailEscrow s | 6 => mailGo 6 mailChal s | 7 => mailGo 7 mailUnlock s | 8 => mailGo 8 mailTrng s
  | _ => s

/-- BUF_CTRL (R358, R361): the OFF bits, and EN; how training ends the device alone knows. -/
def bufControl (x : Nat) (s : State) : State :=
  let off := fun (d : DevIx) (s : State) =>
    if asks (offFld d) x == s.bit (offFld d) then s else if asks (offFld d) x then deviceOffline d s else deviceOnline d s
  let s := off 1 (off 0 s)
  if asks R.bufCtrlEn x then
    let (a, s) := s.draw 0x86
    let (b, s) := s.draw 0x87
    bufEnable (a % 2 == 1) (b % 2 == 1) s
  else s

/-- The loop coefficient at an offset of SRV's registers: its loop, bank, section and place (Table 5.10). -/
def coefAt (p : PosIx) (a : Nat) : Option (Fin 24 × Fin 2 × Fin 6 × Fin 5) :=
  let o := a - posBase p
  let k := (o - 0x1000) % 0x200
  let i := (k - 0x100) % 0x80
  if h : 0x1000 ≤ o ∧ o < 0x4000 ∧ 0x100 ≤ k ∧ i / 0x14 < 6 then
    some (⟨(o - 0x1000) / 0x200, by omega⟩, ⟨(k - 0x100) / 0x80, by omega⟩, ⟨i / 0x14, h.2.2.2⟩, ⟨i % 0x14 / 4, by omega⟩)
  else none

/-- What a write to SRV's registers commands (R142, R149 to R151, R153, R157, R158, R167, R334). -/
def srvCommand (p : PosIx) (a x : Nat) (s : State) : State :=
  let s := whenAsked a x (R.srvSnuffClr p) (snuffClear p) s
  let s := whenWritten a x (R.srvJmpgoMask p) (srvJmpgo p) s
  let s := whenWritten a x (R.srvCtrlEn p) (fun v => srvEnable p (v == 1)) s
  let s := whenWritten a x (R.posCfgEn p) (fun v => positionEnable p (v == 1)) s
  let s := s.forEach allSurfs fun f s =>
    let s := if a == (R.srvSpFocus p f).addr then setpointWrite p f x s else s
    whenAsked a x (R.jmpCtrlAbort p f) (jumpAbort p f) (whenAsked a x (R.jmpCtrlGo p f) (jumpGo p f) s)
  s.forEach allLoops fun l s =>
    whenAsked a x (R.loopCtrlGainNow p l) (loopGainNow p l) (whenWritten a x (R.loopCtrlMode p l) (loopModeWrite p l) s)

/-- What a write of x to the register at an address commands: the operation that the row of the field's command has. What such a
row takes from outside the register is a free value here. DEDUCED: log 13. -/
def regCommand (h : Home) (a x : Nat) (s : State) : State :=
  match h with
  | .sys 0 =>
    let key := fieldOperand R.lampSwrstKey x
    let s := whenAsked a x R.lampSwrstSys (softReset R.lampCauseSwsys .system key) s
    let s := whenAsked a x R.lampSwrstCore (softReset R.lampCauseSwcore .core key) s
    let s := if a == R.lampBootokOk.addr && asks R.lampBootokOk x then
        let (n, s) := s.draw 0x88
        bootOk n s
      else s
    let s := whenAsked a x R.lampWdtEn (watchdogEnable (fieldOperand R.lampWdtPeriod x)) s
    let s := whenAsked a x R.lampWdkickKick watchdogKick s
    let s := whenAsked a x R.lampBrstGo (blockReset (asks R.lampBrstKind x) (fieldOperand R.lampBrstIndex x)) s
    whenWritten a x R.lampCrelRel coreRelease s
  | .sys 1 => whenWritten a x R.clkZenEn zenWriteAll s
  | .sys 2 =>
    let s := whenWritten a x R.pwrEngOn enginePowerAll s
    let s := if a == R.pwrSafeclrPos.addr then
        eachPos (fun p s => if bitAt (fieldOperand R.pwrSafeclrPos x) p then safeReleasePos p s else s) s
      else s
    whenAsked a x R.pwrSafeclrLaser safeReleaseLaser s
  | .sys 3 => whenWritten a x R.timeSetsecSec timeSetsec s
  | .sys 5 =>
    let s := whenAsked a x R.hqiPostGo (fun s => showHost (completionPost (fieldOperand R.hqiPostTag x) s)) s
    let s := whenAsked a x R.hqiAbortGo (fun s => showHost (hqiAbort (fieldOperand R.hqiAbortTag x) s)) s
    whenWritten a x R.hqiCciCount (fun v s => showHost (recordConsumed v s)) s
  | .sys 6 =>
    let s := if a == R.bufCtrlEn.addr then bufControl x s else s
    let s := whenAsked a x R.bufInitGo bufInit s
    let s := whenAsked a x R.bufTcmdGo (tileCommand (fieldOperand R.bufTcmdOp x) (fieldOperand R.bufTcmdTile x)) s
    let s := whenAsked a x R.bufRcmdGo (rangeCommand (fieldOperand R.bufRcmdOp x)) s
    whenAsked a x R.bufPprGo
      (pprStart (if asks R.bufPprDev x then 1 else 0) (asks R.bufPprHard x) (fieldOperand R.bufPprLoc x)) s
  | .sys 7 =>
    let s := whenAsked a x R.cchCtrlCclr cchCounterClear s
    whenAsked a x R.cchRcmdGo
      (cacheCommand (fieldOperand R.cchRcmdOp x) (fieldOperand R.cchRcmdClass x) (asks R.cchRcmdAll x)) s
  | .sys 8 => whenAsked a x R.perfSnapGo (perfSnapshot []) (whenAsked a x R.perfCtrlClr perfClear s)
  | .sys 9 => whenWritten a x R.cmpJpiCount jobSubmit s
  | .sys 10 => whenAsked a x R.mtlCmdGo (mailCommand (fieldOperand R.mtlCmdOp x)) s
  | .sys 11 =>
    let t := fieldOperand R.calLctrlTemp x
    let s := whenAsked a x R.calLctrlStore (calStore t) (whenAsked a x R.calLctrlGo (calLookup t) s)
    whenAsked a x R.calInjEn
      (injectionStart ⟨fieldOperand R.calInjPos x % 8, by omega⟩ (fieldOperand R.calInjLoop x) (fieldOperand R.calInjAmp x)) s
  | .sys _ => s
  | .eng e =>
    let s := whenAsked a x (R.castCtrlAbort e) (castAbort e) (whenAsked a x (R.castCtrlStart e) (castStart e) s)
    let s := whenAsked a x (R.rdCtrlAbort e) (readAbort e) (whenAsked a x (R.rdCtrlStart e) (readStart e) s)
    whenAsked a x (R.mrgCtrlClr e) (marginClear e) (if a == (R.castCtrlEn e).addr then takeMode e s else s)
  | .srv p => srvCommand p a x s
  | .spn p => whenWritten a x (R.spnSpdTarget p) (speedTargetWrite p) (whenWritten a x (R.spnCmdOp p) (spnCommand p) s)
  | .car p => whenWritten a x (R.carTgtTgt p) (carTargetWrite p) (whenWritten a x (R.carCmdOp p) (carCommand p) s)
  | .igl p =>
    let s := if a == (R.iglCtrlEn p).addr && asks (R.iglCtrlEn p) x != s.bit (R.iglCtrlEn p) then
      linkEnable p (asks (R.iglCtrlEn p) x) s else s
    let s := whenAsked a x (R.iglCtrlTrain p) (linkTrain p) s
    whenAsked a x (R.iglCcmdGo p) (controlRequest p (fieldOperand (R.iglCcmdOp p) x) (fieldOperand (R.iglCcmdAddr p) x)) s
  | .fn f =>
    whenWritten a x (R.fnCtlEn f) (fun v s => showHost (if v == 1 then functionEnable f s else functionDisable f s)) s

/-- A register of block h is written x at address a (R4): a coefficient of the active bank is ignored with BANKERR (R149); a locked
register keeps its fields; then what the write commands. -/
def regPut (h : Home) (r : Reg) (a x : Nat) (s : State) : State :=
  match h, coefOf h a with
  | .srv p, some (l, b, n, j) => loopCoefWrite p l b n j (x % 2 ^ 32) s
  | _, _ =>
    let t := if regLocked s h a x then s else regHook h a x s (fieldsWritten (ownRow h) x (fun _ => true) r.flds s)
    regCommand h a x t
where
  /-- The coefficient at an address of a block. -/
  coefOf : Home → Nat → Option (Fin 24 × Fin 2 × Fin 6 × Fin 5)
    | .srv p, a => coefAt p a
    | _, _ => none

/-- The DMA channels that a block restarts: a halted channel stays halted until firmware restarts it through its own block (R344);
a write by a core to one of the block's registers does. DEDUCED: log 15. -/
def channelOf (h : Home) (who : Requester) : Bool :=
  match h, who with
  | .eng e, .beam k => e == k
  | .sys 5, .hqi _ => true
  | .sys 6, .buf => true
  | .sys 8, .perf => true
  | .sys 9, .comp _ => true
  | .sys 10, .mantle => true
  | .sys 11, .cal => true
  | .sys 4, .flt => true
  | _, _ => false

/-- The channels that a core's write to block h restarts go on. -/
def restartChannels (who : Requester) (h : Home) (s : State) : State :=
  match who with
  | .core _ => { s with halted := s.halted.filter fun w => !channelOf h w }
  | _ => s

/-- A write to register space (R4, R7, R12, R18). The answer to a store comes once the register has taken the value and its
command its effect. DEDUCED: log 13. -/
def regWrite (who : Requester) (h : Home) (a size x : Nat) (s : State) : State :=
  if !homeOffered s h then { s with resp := .ignored }
  else if !homePowered s h then unpowered who a s
  else match regExact (homeRegs h a) a size with
    | some r => { regPut h r a x (restartChannels who h s) with resp := if regLocked s h a x then .ignored else .written }
    | none => if touchesReg h a size then { s with resp := refusal who 0 } else { s with resp := .ignored }

end Sys2Proof.Machine
end

