-- ==== Sys2Proof/Machine/Fabric.lean ====
section
/-! DEFINITION. The fabric (R10 to R20, R273, R341 to R348, R366, R370): BAR0, reach, privilege, and accesses to the
memories, to register space and to the GDDR7 window. -/

namespace Sys2Proof.Machine

/-- A doorbell of BAR0 (Table 1.9): whether it is a completion queue's, its queue, and whether the offset lies in its
32 bits. DEDUCED: log 22. -/
def bellAt (o : Nat) : Option (Bool × Nat × Bool) :=
  if 0x1000 ≤ o && o < 0x1010 then some (o ≥ 0x1008, 0, o % 8 < 4)
  else if 0x10010 ≤ o && o < 0x14000 then some ((o - 0x10000) % 16 ≥ 8, (o - 0x10000) / 16, o % 8 < 4)
  else none

/-- Whether an offset lies in the MSI-X table, or in the pending-bit array. -/
def inMsix (f : FnIx) (o : Nat) : Bool := 0x200000 ≤ o && o < 0x200000 + 16 * vectors f
def inPba (f : FnIx) (o : Nat) : Bool := 0x210000 ≤ o && o < 0x210000 + vectors f / 8

/-- The reset value of an MSI-X table byte: the mask bit is set. PRESUMED: log 12. -/
def msixReset (k : Nat) : Nat := if k % 16 = 12 then 1 else 0

/-- A byte of a function's MSI-X table or pending-bit array. PRESUMED: log 12. -/
def msixByte (s : State) (f : FnIx) (o : Nat) : Nat :=
  if inMsix f o then
    let k := f.val * 65536 + (o - 0x200000)
    (Assoc.get k s.hqi.msix).getD (msixReset k)
  else if inPba f o then
    ((List.range 8).map fun i => if s.fns[f].pendVec.contains (8 * (o - 0x210000) + i) then 2 ^ i else 0).foldl (· + ·) 0
  else 0

/-- A byte of the table written; the array is read only. PRESUMED: log 12. -/
def msixPut (f : FnIx) (o v : Nat) (s : State) : State :=
  if !inMsix f o then s else
  let k := f.val * 65536 + (o - 0x200000)
  s.updHqi fun h => { h with msix := if v = msixReset k then Assoc.del k h.msix else Assoc.put k v h.msix }

/-- A vector unmasked while its pending bit is set sends its message (R292). PRESUMED: log 12. -/
def msixFire (f : FnIx) (v : Nat) (s : State) : State :=
  if vecMasked s f v || !s.fns[f].pendVec.contains v then s
  else signal f v (s.updFn f fun x => { x with pendVec := x.pendVec.filter (· != v) })

/-- An access of a size not accepted (R273). -/
def sizeError (f : FnIx) (r : Resp) (s : State) : State := { s.set1 (R.fnStsSzerr f) with resp := r }

/-- The 64-bit register of which an access is an aligned half, and which half (R273). DEDUCED: log 22. -/
def halfOf (l : List Reg) (a size : Nat) : Option (Reg × Nat) :=
  if size = 4 && a % 4 = 0 then
    (l.find? fun r => r.width == 64 && (a == r.addr || a == r.addr + 4)).map fun r => (r, if a = r.addr then 0 else 32)
  else none

/-- A host read of function f's BAR0 (R19, R20, R273). DEDUCED: log 22. -/
def hostRead (f : FnIx) (o size : Nat) (s : State) : State :=
  let a := bar0 f + o
  let l := R.fnRegs f
  if o < 0x1000 then
    match regExact l a size, halfOf l a size with
    | some r, _ => { regAfterRead (.fn f) r s with resp := .value (regValue s r) }
    | none, some (r, lo) => { s with resp := .value (bitsOf (regValue s r) lo 32) }
    | none, none => if (regsTouched l a size).isEmpty then { s with resp := .value 0 } else sizeError f (.value 0) s
  else match bellAt o with
    | some (cq, q, low) =>
      if size != 4 then sizeError f (.value 0) s
      else { s with resp := .value (if low then (Assoc.get (bellKey f cq q) s.hqi.bells).getD 0 else 0) }
    | none => { s with resp := .value (((List.range size).map fun i => msixByte s f (o + i) * 256 ^ i).foldl (· + ·) 0) }

/-- A host write to function f's BAR0: a register with what it commands, a doorbell, the MSI-X table. DEDUCED: log 22. -/
def hostWriteReg (f : FnIx) (o size x : Nat) (s : State) : State :=
  let a := bar0 f + o
  let l := R.fnRegs f
  let put := fun (r : Reg) (x : Nat) (s : State) =>
    { regPut (.fn f) r r.addr x s with resp := if regLocked s (.fn f) r.addr x then .ignored else .written }
  if o < 0x1000 then
    match regExact l a size, halfOf l a size with
    | some r, _ => put r x s
    | none, some (r, lo) =>
      let old := (r.flds.map fun g => s.rd g * 2 ^ g.lo).foldl (· + ·) 0
      put r (if lo = 0 then old - old % 2 ^ 32 + x % 2 ^ 32 else old % 2 ^ 32 + x % 2 ^ 32 * 2 ^ 32) s
    | none, none => if (regsTouched l a size).isEmpty then { s with resp := .ignored } else sizeError f .ignored s
  else match bellAt o with
    | some (cq, q, low) =>
      if size != 4 then sizeError f .ignored s
      else if !low then { s with resp := .ignored }
      else { showHost (if cq then cqDoorbell f q x 4 s else sqDoorbell f q x 4 s) with resp := .written }
    | none =>
      let s := s.forEach (List.range size) fun i s => msixPut f (o + i) (x / 256 ^ i % 256) s
      let s := if inMsix f o then
          s.forEach (List.range ((size + 30) / 16)) fun i s => msixFire f ((o - 0x200000) / 16 + i) s
        else s
      { s with resp := .written }

/-- A register read and a register write by address (R18). DEDUCED: log 13. -/
def spaceRead (who : Requester) (a size : Nat) (s : State) : State :=
  match who with
  | .host f => hostRead f a size s
  | _ => match homeOf a with
    | some h => regRead who h a size s
    | none => outside who a Config.reachReason.toNat s
/-- DEDUCED: log 13. -/
def spaceWrite (who : Requester) (a size x : Nat) (s : State) : State :=
  match who with
  | .host f => hostWriteReg f a size x s
  | _ => match homeOf a with
    | some h => regWrite who h a size x s
    | none => outside who a Config.reachReason.toNat s

/-- The regions of Table 1.3. -/
inductive Target where
  | rom | sram | ember | regs | window
  deriving DecidableEq, Repr

/-- The region that n bytes from an address lie in; in the window they are one device's data area, initialised (R340,
R341, R360). DEDUCED: log 16. -/
def targetOf (s : State) (a n : Nat) : Option Target :=
  let z := a + max n 1
  if z ≤ 0x40000 then some .rom
  else if sramBase ≤ a && z ≤ sramBase + sramSize then some .sram
  else if emberBase ≤ a && z ≤ emberBase + emberSize then some .ember
  else if 0x0200000000 ≤ a && z ≤ 0x0210000000 then some .regs
  else if winBase ≤ a && z ≤ winBase + s.cap && s.bit R.bufStatReady && s.inData (a - winBase) &&
      s.inData (z - 1 - winBase) && s.devOf (a - winBase) == s.devOf (z - 1 - winBase) then some .window
  else none

/-- Bytes of an access. -/
def accSize : Access → Nat
  | .read n => n
  | .fetch n => n
  | .write l => l.length
  | .zeroLine => 64

/-- Whether an access is a read, a write or an instruction fetch. -/
def accIsRead : Access → Bool
  | .read _ => true | _ => false
def accIsFetch : Access → Bool
  | .fetch _ => true | _ => false
def accIsWrite : Access → Bool
  | .write _ => true | .zeroLine => true | _ => false

/-- Whether n bytes from an address overlap the event log ring, or lie in it, and whether they lie in the calibration
region. DEDUCED: log 20. -/
def meetsRing (a n : Nat) : Bool := a < emberBase + emberSize && ringBase < a + n
def inRing (a n : Nat) : Bool := ringBase ≤ a && a + n ≤ emberBase + emberSize
def inCalRegion (s : State) (a n : Nat) : Bool := calBase s ≤ a && a + n ≤ calBase s + calSize s

/-- Table 1.2: whether a requester reaches a target with an access (R10, R462). The zero-line instruction, whose use the spec leaves to
the programming reference (R371), reaches the window alone: aimed at SRAM, at the Ember store or at register space it is out of
reach for every requester (DESIGN CHOICE: log 20). DEDUCED: log 20. -/
def reaches (s : State) (who : Requester) (t : Target) (a : Nat) (acc : Access) : Bool :=
  let n := accSize acc
  let r := accIsRead acc
  let w := accIsWrite acc && (acc != .zeroLine || t == .window)
  let rw := r || w
  match who, t with
  | .core _, .rom => r || accIsFetch acc
  | .core _, .sram => rw || accIsFetch acc
  | .core _, .ember => rw
  | .core _, .regs => rw
  | .core _, .window => true
  | .debug, .rom => debugOpen s && r
  | .debug, .ember => debugOpen s && r && (!meetsRing a n || s.mtl.scope == some 2)
  | .debug, _ => debugOpen s && rw
  | .lamplighter, .rom => r
  | .lamplighter, .sram => w
  | .lamplighter, .ember => rw
  | .lamplighter, .regs => rw
  | .hqi _, .sram => rw
  | .hqi _, .window => rw
  | .beam _, .sram => r
  | .beam _, .window => rw
  | .comp _, .sram => rw
  | .comp _, .window => rw
  | .mantle, .ember => rw
  | .mantle, .window => rw
  | .buf, .sram => rw
  | .buf, .window => rw
  | .cal, .sram => r
  | .cal, .ember => rw && inCalRegion s a n
  | .flt, .ember => w && inRing a n
  | .perf, .sram => w
  | .ember, .ember => w
  | _, _ => false

/-- Table 13.1: whether a core's level allows an access within its reach (R366). -/
def allowed (priv : Priv) (t : Target) (acc : Access) (user : Bool) : Bool :=
  match priv, t with
  | .user, .rom => accIsFetch acc
  | .user, .sram => user
  | .user, .window => user
  | .user, _ => false
  | .supervisor, .ember => accIsRead acc
  | _, _ => true

/-- The outcome of an uncorrectable read (Table 12.3). DEDUCED: log 21. -/
def uncorrectable (who : Requester) (prefetch : Bool) (reason : Nat) (s : State) : State :=
  match who with
  | .core _ => { s with resp := if prefetch then .prefetchDropped else .machineCheck }
  | .comp _ => { s with resp := .jobHalt reason }
  | .beam e =>
    if s.bit (R.castStatBusy e) then { castAbort e s with resp := .frameAbandoned }
    else if s.bit (R.rdStatBusy e) then readLost e s
    else { s with resp := .channelHalt reason }
  | .mantle => { s with resp := .requestFailed reason }
  | .debug => { s with resp := .errorResponse reason }
  | _ => { s with resp := .channelHalt reason }

/-- A read of SRAM or the Ember store (R342, R344, R345). -/
def memRead (who : Requester) (prefetch : Bool) (m : State → Mem) (a n : Nat) (s : State) : State :=
  let (ok, s) := wordsMet (reqCode who) a n s
  if ok then { s with resp := .data (Mem.read (m s) a n) } else uncorrectable who prefetch 0x0A04 s

/-- A store refused by the BUF (R343). DEDUCED: log 19. -/
def storeRefused (who : Requester) (a reason : Nat) (s : State) : State :=
  { s.log reason srcBuf noPos a (reqCode who) with resp := refusedStore who reason }

/-- A write of whole words only (R343). -/
def wholeWords (a : Nat) (l : List Byte) : Bool := a % 8 == 0 && l.length % 8 == 0

/-- A write to SRAM, where the seal table is the BUF's (R343, R350). DEDUCED: log 19. -/
def sramStore (who : Requester) (a : Nat) (l : List Byte) (s : State) : State :=
  if !wholeWords a l then storeRefused who a 0x0A06 s
  else if who != .buf && (wordsOf a l.length).any (inSealTable s) then storeRefused who a 0x0A0C s
  else { unmark a l.length (s.sramWrite a l) with resp := .written }

/-- A write to the Ember store (R343, R366). DEDUCED: log 19. -/
def emberStore (who : Requester) (a : Nat) (l : List Byte) (s : State) : State :=
  if !wholeWords a l then storeRefused who a 0x0A06 s
  else { unmark a l.length (s.emberWrite a l) with resp := .written }

/-- Whether the line at an address is in the cache or on its way out of it. DEDUCED: log 18. -/
def lineHeld (s : State) (a : Nat) : Bool :=
  (findLine s (a - a % 64)).isSome || s.cch.evb.any fun e => e.line == a - a % 64

/-- Whether an access to a device waits (R356, R409): its interface retrains, or its PLL has lost lock outside
self-refresh. DEDUCED: log 18. -/
def deviceWaits (s : State) (o : Nat) : Bool :=
  let d := s.devOf o
  !devGone s d && (if d = 0 then s.buf.retrain0 else s.buf.retrain1) ||
    (!s.bit (R.clkPllLock (3 + d)) && !s.buf.selfRefresh)

/-- Whether a store may not touch n bytes at an offset (R348, R352, R370): a twin, or an OPEN or SEALED tile. DEDUCED: log 19. -/
def storeBarred (s : State) (who : Requester) (o n : Nat) : Bool :=
  ((List.range (n / 65536 + 1)).map (fun i => o + 65536 * i) ++ [o + (max n 1 - 1)]).any fun x => isTwin s x || (who != .buf && inTile s x)

/-- A read of the window, line by line (R368). DEDUCED: log 17. -/
def windowBytes (who : Requester) : Nat → Nat → Nat → Nat → State → Except Nat (List Byte) × State
  | 0, _, _, _, s => (.ok [], s)
  | fuel + 1, a, n, crc, s =>
    if n = 0 then (.ok [], s) else
    let k := min n (64 - a % 64)
    match cacheRead who (cacheClass who) a k crc s with
    | (.error r, s) => (.error r, s)
    | (.ok b, s) =>
      let (x, s) := windowBytes who fuel (a + k) (n - k) 0 s
      (x.map (b ++ ·), s)

/-- A write of the window, line by line. DEDUCED: log 17. -/
def windowPut (who : Requester) : Nat → Nat → List Byte → Nat → State → WriteRes × State
  | 0, _, _, _, s => (.done, s)
  | fuel + 1, a, l, crc, s =>
    if l.isEmpty then (.done, s) else
    let k := min l.length (64 - a % 64)
    match cacheWrite who (cacheClass who) a (l.take k) crc s with
    | (.done, s) => windowPut who fuel (a + k) (l.drop k) 0 s
    | (r, s) => (r, s)

/-- The error that the lookup meets in the cache, if any (Table 13.4). DEDUCED: log 17. -/
def lookupError (who : Requester) (a : Nat) (e : Option CacheError) (s : State) : Bool × State :=
  match e with
  | some e => cacheError (reqCode who) (a - a % 64) e s
  | none => (false, s)

/-- An access of the window (R340 to R348, R356, R368 to R374, R377). DEDUCED: log 18. -/
def windowAccess (who : Requester) (a : Nat) (acc : Access) (env : AccessEnv) (s : State) : State :=
  let o := a - winBase
  let n := accSize acc
  if accIsWrite acc && storeBarred s who o n then storeRefused who a 0x0A0C s
  else if deviceWaits s o && (accIsWrite acc || !lineHeld s a) then { s with resp := .waits }
  else
    let (lost, s) := lookupError who a env.cacheErr (selfRefreshExit s)
    if lost then uncorrectable who env.prefetch 0x0A12 s else
    match acc with
    | .zeroLine => { cacheZero who a s with resp := .written }
    | .write l =>
      match windowPut who (l.length / 64 + 2) a l env.crcFails s with
      | (.done, s) => { s with resp := .written }
      | (.partialWord, s) => { s with resp := refusedStore who 0x0A06 }
      | (.uncorrectable r, s) => uncorrectable who false r s
    | _ =>
      match windowBytes who (n / 64 + 2) a n env.crcFails s with
      | (.ok b, s) => { s with resp := .data b }
      | (.error r, s) => uncorrectable who env.prefetch r s

/-- Whether a requester is a control core. -/
def isCore : Requester → Bool
  | .core _ => true
  | _ => false

/-- Accesses of one requester to the window keep their order (R12): while one waits, the later ones wait behind it, and the one that
waits goes first when it comes again. -/
def inOrder (who : Requester) (a : Nat) (acc : Access) (go : State → State) (s : State) : State :=
  let me := (who, a, acc)
  match s.waitq.find? fun w => w.1 == who with
  | none =>
    let t := go s
    if t.resp == .waits then { t with waitq := t.waitq ++ [me] } else t
  | some w =>
    if w == me then
      let t := go s
      if t.resp == .waits then t else { t with waitq := t.waitq.erase me }
    else { s with resp := .waits, waitq := if s.waitq.contains me then s.waitq else s.waitq ++ [me] }

/-- An access within reach and allowed. -/
def served (who : Requester) (t : Target) (a : Nat) (acc : Access) (env : AccessEnv) (s : State) : State :=
  let n := accSize acc
  match t with
  | .rom => { s with resp := .data ((List.range n).map fun i => Config.bootRom (a + i)) }
  | .regs => match acc with
    | .write l => spaceWrite who a l.length (leNat l) s
    | _ => spaceRead who a n s
  | .sram => match acc with
    | .write l => sramStore who a l (applyUpsets env.upsets s)
    | _ => memRead who env.prefetch (·.sram) a n (applyUpsets env.upsets s)
  | .ember => match acc with
    | .write l => emberStore who a l (applyUpsets env.upsets s)
    | _ => memRead who env.prefetch (·.ember) a n (applyUpsets env.upsets s)
  | .window => inOrder who a acc (windowAccess who a acc env) (applyUpsets env.upsets s)

/-- Whether an address lies in a check area (R340, R341). PRESUMED: log 15. -/
def inCheck (s : State) (a : Nat) : Bool := winBase ≤ a && a < winBase + s.cap && !s.inData (a - winBase)

/-- Whether a requester's DMA channel is halted (R344); a core has none. -/
def stopped (s : State) (who : Requester) : Bool := !isCore who && s.halted.contains who

/-- An access on the fabric: reach and map, then privilege, then the access itself; a halted channel makes none (R344).
DEDUCED: log 24. -/
def fabricAccess (who : Requester) (priv : Priv) (a : Nat) (acc : Access) (env : AccessEnv) (s : State) : State :=
  match who with
  | .host f => match acc with
    | .write l => hostWriteReg f a l.length (leNat l) s
    | _ => hostRead f a (accSize acc) s
  | _ =>
    if stopped s who then { s with resp := .channelHalt Config.reachReason.toNat } else
    -- the line-zero instruction acts on the whole line
    let a := if acc == .zeroLine then a - a % 64 else a
    haltNote who <|
    match targetOf s a (accSize acc) with
    | none => outside who a (if accIsWrite acc && inCheck s a then 0x0A0C else Config.reachReason.toNat) s
    | some t =>
      if !reaches s who t a acc then outside who a Config.reachReason.toNat s
      else if isCore who && !allowed priv t acc env.userAllowed then { s with resp := .illegalAccess }
      else served who t a acc env s

/-- A register access by address: within the requester's reach (R10) it is done, outside it has no effect (R11). The host reaches its
functions' BAR0 alone. -/
def regAccess (who : Requester) (a : Nat) (acc : Access) (go : State → State) (s : State) : State :=
  match who with
  | .host _ => go s
  | _ =>
    if stopped s who then { s with resp := .channelHalt Config.reachReason.toNat }
    else if (targetOf s a (accSize acc)) == some .regs && reaches s who .regs a acc then go s
    else outside who a Config.reachReason.toNat s

/-- REGISTER_WRITE. -/
def execRegisterWrite (who : Requester) (addr size value : Nat) (s : State) : Out :=
  done (regAccess who addr (.write (leBytes size value)) (spaceWrite who addr size (value % 256 ^ size)) s)
/-- RC_FIELD_READ. -/
def execRcFieldRead (who : Requester) (addr size : Nat) (s : State) : Out :=
  done (regAccess who addr (.read size) (spaceRead who addr size) s)
/-- FABRIC_ACCESS. -/
def execFabricAccess (who : Requester) (priv : Priv) (addr : Nat) (acc : Access) (env : AccessEnv) (s : State) : Out :=
  done (fabricAccess who priv addr acc env s)

end Sys2Proof.Machine
end

