-- ==== Sys2Proof/Machine/Logs.lean ====
section
/-! DEFINITION. Log pages, events, policy and grants (R307, R331 to R333). -/

namespace Sys2Proof.Machine

/-- A number of zero bytes. -/
def zeroBytes (n : Nat) : List Byte := List.replicate n 0

/-- The image that runs, as a number: its header. -/
def runningImage (s : State) : Nat := leNat s.lamp.header

/-- The firmware version of page 0x00; "RECOVERY" in recovery mode (R441). -/
def versionBytes (s : State) : List Byte :=
  slice (if s.bit R.lampStatRecovery then ascii "RECOVERY" else Config.fwVersion (runningImage s)) 0 32

/-- Page 0x00, identity (Table 11.7). -/
def pageIdentity (s : State) : List Byte :=
  let big := s.part == .oa824
  let mask := if big then s.rd R.lampOptPosEn else s.rd R.lampOptPosEn % 16
  slice (leBytes 4 (if big then 0x0824 else 0x0408) ++ leBytes 2 0x0100 ++ zeroBytes 2 ++ leBytes 1 mask ++
    leBytes 1 (if big then 24 else 8) ++ leBytes 1 (if big then 3 else 1) ++ zeroBytes 5 ++ leBytes 8 (fingerprint s) ++
    versionBytes s ++ leBytes 4 16777216 ++ zeroBytes 4 ++ leBytes 8 (s.hqi.aseq - 1)) 0 4096

/-- Page 0x01, error log (Table 10.8). -/
def pageErrors (x : FnState) : List Byte :=
  leBytes 8 x.errCount ++ leBytes 4 x.errLog.length ++ zeroBytes 52 ++ (x.errLog.map fun e =>
    leBytes 8 e.seq ++ leBytes 8 e.aseq ++ leBytes 2 e.cid ++ leBytes 2 e.sqid ++ leBytes 1 e.cls ++ zeroBytes 1 ++
    leBytes 2 e.reason ++ leBytes 8 e.time ++ zeroBytes 32).flatten

/-- Page 0x02, uncast ranges of a pack (Table 11.3). -/
def pageUncast (k : PackState) : List Byte :=
  leBytes 4 k.uncast.length ++ zeroBytes 60 ++ (k.uncast.map fun u =>
    leBytes 8 u.addr ++ leBytes 8 u.len ++ leBytes 1 u.cause ++ zeroBytes 1 ++ leBytes 2 u.reason ++ zeroBytes 4 ++
    leBytes 8 u.time).flatten

/-- Entries of pages 0x03 and 0x06 (Table 11.7). -/
def unrecBytes (l : List Unrec) : List Byte := (l.map fun u =>
  leBytes 8 u.addr ++ leBytes 4 u.rank ++ leBytes 1 u.surface ++ leBytes 1 u.result ++ leBytes 1 u.step ++ zeroBytes 1 ++
  leBytes 8 u.aseq ++ leBytes 8 u.time).flatten
def pageUnrec (x : FnState) : List Byte := leBytes 4 x.unrec.length ++ zeroBytes 60 ++ unrecBytes x.unrec

/-- User bytes of casts that may still open (R49, R50, R64). -/
def bytesLeft (s : State) (p : PosIx) : Nat :=
  let k := s.packs[p]
  let out := (k.casts.map (·.m) ++ k.recorded ++ k.barred ++ (k.dead.filter fun d => homeBase d.1 ≤ d.2 && d.2 < homeBase d.1 + layerRanks).map fun d =>
    (d.1 * layerRanks + (d.2 - homeBase d.1)) / 128).eraseDups
  let free := (List.range 16).map fun l =>
    if riserLeft s p l < 128 then 0 else 22650 - (out.filter fun m => m < casts && castLayer m == l).length
  castBytes * free.foldl (· + ·) 0

/-- One position's 256 bytes of page 0x04 (Table 11.8). -/
def packStatus (s : State) (p : PosIx) : List Byte :=
  let k := s.packs[p]
  let bit := fun (i : Nat) (b : Bool) => if b then 2 ^ i else 0
  let mounted := k.status == .mounted || k.status == .unmounting
  let flags := bit 0 (s.bit (R.posCfgPack p)) + bit 1 mounted + bit 2 (mounted && k.blank) + bit 3 (k.roReason != 0) +
    bit 4 k.fmt.isSome + bit 5 k.san + bit 6 k.keyGone + bit 7 (mounted && k.roMount)
  let layer := match k.fmt with | some (_, l, _) => l | none => k.sanLayer
  slice (leBytes 1 flags ++ leBytes 1 k.power ++ leBytes 2 k.roReason ++ leBytes 1 k.sanMode ++ leBytes 1 k.sanState ++
    leBytes 1 layer ++ leBytes 1 ((k.fmt.map (·.1)).getD 0) ++ leBytes 8 k.tag ++ leBytes 4 k.sanNext ++ zeroBytes 4 ++
    leBytes 4 (k.open_.getD 0xFFFFFFFF) ++ leBytes 4 k.recorded.length ++ leBytes 4 k.seg ++ leBytes 4 k.uncast.length ++
    leBytes 8 (bytesLeft s p) ++ leBytes 2 (ofSigned 16 k.temp)) 0 256

/-- Page 0x06, patrol (Table 11.7). -/
def pagePatrol (k : PackState) : List Byte :=
  let (start, read_, late, built, lost) := k.patrol
  slice (leBytes 8 start ++ leBytes 4 read_ ++ leBytes 4 (128 * k.recorded.length) ++ leBytes 8 late ++ leBytes 8 built ++ leBytes 8 lost) 0 64 ++
    unrecBytes k.patrolErr

/-- Page 0x07, event log (R476). -/
def pageEvents (s : State) : List Byte :=
  let n := s.flt.written
  let have_ := min n ringSize
  let newest := if n = 0 then 0 else leNat (s.emberRead (ringBase + 64 * ((n - 1) % ringSize)) 8)
  leBytes 8 newest ++ leBytes 4 have_ ++ zeroBytes 52 ++
    ((List.range have_).map fun i => s.emberRead (ringBase + 64 * ((n - have_ + i) % ringSize)) 64).flatten

/-- The policy parameters (Table 11.6): identifier, device scope, least and greatest value. -/
def policyTable : List (Nat × Bool × Nat × Nat) :=
  [(0x01, false, 10, 10000), (0x02, false, 1, 7), (0x03, false, 1, 64), (0x04, false, 100, 60000), (0x10, false, 0, 5),
   (0x11, false, 0, 5), (0x12, false, 1, 64), (0x13, false, 1, 32), (0x14, false, 20, 200), (0x15, false, 32, 160)] ++
  [(0x20, false, 7, 15), (0x21, false, 10, 50), (0x22, false, 10, 200), (0x23, false, 1, 3650), (0x30, false, 0, 1),
   (0x31, false, 7, 3650), (0x32, false, 0, 1), (0x40, false, 0, 3600), (0x41, false, 0, 86400), (0x50, true, 1, 3)] ++
  [(0x60, false, 300, 650), (0x61, true, 850, 1050), (0x70, false, 0, 16)]

/-- The positions of the part (R1). -/
def partPos (s : State) : List PosIx := allPos.filter fun p => s.part == .oa824 || p.val < 4

/-- Page 0x08, the values in force (R331). -/
def pagePolicy (s : State) : List Byte :=
  (policyTable.flatMap fun x => (if x.2.1 then [0] else (partPos s).map (·.val)).map fun p =>
    leBytes 2 x.1 ++ leBytes 1 (if x.2.1 then 0 else 2 ^ p) ++ zeroBytes 5 ++ leBytes 8 (s.policyOf x.1 p)).flatten

/-- A page as a function of the host sees it (R332). DEDUCED: log 64. -/
def pageBytes (s : State) (f : FnIx) (page : Nat) (p : PosIx) : List Byte :=
  match page with
  | 0 => pageIdentity s
  | 1 => pageErrors s.fns[f]
  | 2 => if granted s f p then pageUncast s.packs[p] else []
  | 3 => pageUnrec s.fns[f]
  | 4 => ((partPos s).map fun (q : PosIx) => if granted s f q then packStatus s q else zeroBytes 256).flatten
  | 5 => ((calRecords s).map (·.raw)).flatten
  | 6 => pagePatrol s.packs[p]
  | 7 => pageEvents s
  | _ => pagePolicy s

/-- GET_LOG (R332). DEDUCED: log 64. -/
def getLog (n : Nat) (s : State) : State :=
  match cmdAt s n 8 with
  | none => s
  | some t =>
    let b := slice (pageBytes s t.fn (t.csp 32 1) ⟨t.csp 33 1 % 8, by omega⟩) (t.csp 36 4) t.dlen
    finish n 0 0 0 (scatter t.fn t.pieces 0 b s)

/-- EVENT_WAIT (R333): it ends with the oldest change, or waits for one. -/
def eventWait (n : Nat) (s : State) : State :=
  match cmdAt s n 9 with
  | none => s
  | some t =>
    match s.fns[t.fn].changes with
    | [] => s
    | (page, p) :: rest => finish n 0 0 (page + 256 * p) (s.updFn t.fn fun x => { x with changes := rest })

/-- The entries of a policy set (R331). -/
def policyEntries (data : List Byte) : List (Nat × Nat × Nat × Nat) :=
  (List.range (data.length / 16)).map fun i =>
    (leAt data (16 * i) 2, leAt data (16 * i + 2) 1, leAt data (16 * i + 3) 5, leAt data (16 * i + 8) 8)

/-- Whether one value lies in its range (Table 11.6). -/
def policyValueOk (id v : Nat) : Bool :=
  match policyTable.find? fun x => x.1 == id with
  | some (_, _, lo, hi) => lo ≤ v && v ≤ hi && (id != 0x20 || v % 2 == 1) && (id != 0x41 || v == 0 || v ≥ 10)
  | none => false

/-- One entry applied. -/
def policyPut (e : Nat × Nat × Nat × Nat) (s : State) : State :=
  let (id, mask, _, v) := e
  let device := (policyTable.find? fun x => x.1 == id).map (·.2.1) == some true
  let ps := if device then [0] else (List.range 8).filter (bitAt mask)
  { s with policy := ps.foldl (fun l p => Assoc.put (id * 16 + p) v l) s.policy }

/-- The consistency check of a policy set (R331, R334). -/
def policyCheck (s : State) (l : List (Nat × Nat × Nat × Nat)) : Option Nat :=
  let after := l.foldl (fun s e => policyPut e s) s
  if l.any fun e => e.2.2.1 != 0 then some 0x0115
  else if l.any fun e => !policyTable.any fun x => x.1 == e.1 then some 0x020A
  else if l.any (fun e => !policyValueOk e.1 e.2.2.2) || !(l.map (·.1)).Nodup ||
      (List.range 8).any (fun p => after.policyOf 0x11 p < after.policyOf 0x10 p) then some 0x020B
  else none

/-- SET_POLICY (R331): every entry or none. -/
def setPolicy (n : Nat) (data : List Byte) (s : State) : State :=
  match cmdAt s n 0x0A with
  | none => s
  | some t =>
    let l := policyEntries (data.take t.dlen)
    match policyCheck s l with
    | some r => finish n 1 r 0 s
    | none => finish n 0 0 0 (l.foldl (fun s e => policyPut e s) s)

/-- GRANT (R307): the VF's grant is replaced. -/
def grantCmd (n : Nat) (s : State) : State :=
  match cmdAt s n 0x0B with
  | none => s
  | some t => finish n 0 0 0 (s.updFn ⟨t.csp 32 1 % 16, by omega⟩ fun x => { x with grant := t.csp 33 1 })

/-- GET_LOG. -/
def execGetLog (n : Nat) (s : State) : Out := hostDone (fun s => getLog n (admitAll s)) s
/-- EVENT_WAIT. -/
def execEventWait (n : Nat) (s : State) : Out := hostDone (fun s => eventWait n (admitAll s)) s
/-- SET_POLICY. -/
def execSetPolicy (n : Nat) (data : List Byte) (s : State) : Out := hostDone (fun s => setPolicy n data (admitAll s)) s
/-- GRANT. -/
def execGrant (n : Nat) (s : State) : Out := hostDone (fun s => grantCmd n (admitAll s)) s

end Sys2Proof.Machine
end

