-- ==== Sys2Proof/Machine/Measure.lean ====
section
/-! DEFINITION. The measurements that firmware runs beside OPC (R214, R216 to R218, R225 to R229), what triggers them (R237), and
the gradual application of their results (R159, R235). They move on with the servo tick; the carriage alignment with the carriage
loop. -/

namespace Sys2Proof.Machine

/-- The vertex of the parabola through the greatest of the points (c, y) and its two neighbours (R226), rounded half up; none where
the greatest point lies at an end, or where the three points are level (DESIGN CHOICE: log 105). -/
def vertexOf (cs ys : List Int) : Option Int :=
  let y := fun (i : Nat) => nth (0 : Int) ys i
  let c := fun (i : Nat) => nth (0 : Int) cs i
  let i := ((List.range ys.length).find? fun i => ys.all fun x => x ≤ y i).getD 0
  let d := 2 * y i - y (i - 1) - y (i + 1)
  if i = 0 || i + 1 ≥ ys.length || d ≤ 0 then none
  else some (roundHalfUp (c i * 4 * d + (c (i + 1) - c (i - 1)) * (y (i + 1) - y (i - 1))) (4 * d))

/-- The surface and the loop that an item of a surface is measured on. -/
def CalTask.face (t : CalTask) : Fin 8 := ⟨t.surf % 8, by omega⟩
def CalTask.loop (t : CalTask) : Fin 24 := if t.kind = 2 then focusOf t.face else trackOf t.face

/-- Two tasks are for one part of one item. -/
def CalTask.same (a b : CalTask) : Bool := { a with found := none } == { b with found := none }

/-- Tasks wait to be measured, each once (R237). -/
def queueTasks (l : List CalTask) (s : State) : State :=
  let busy := fun (c : CalState) (t : CalTask) => c.tasks.any t.same || c.meas.any fun m => m.task.same t
  l.foldl (fun s t => if busy s.cal t then s else { s with cal := { s.cal with tasks := s.cal.tasks ++ [t] } }) s

/-- The items of a layer's surfaces in their order: the loop gains, then the scans of Table 8.2 (R226). -/
def layerTasks (p : PosIx) (layer mask kinds : Nat) : List CalTask :=
  [(2, true), (3, true), (5, false), (2, false), (4, false), (3, false)].flatMap fun x =>
    if bitAt kinds x.1 then
      ((List.range 8).filter (bitAt mask)).map fun f => { p := p, kind := x.1, gain := x.2, surf := f, layer := layer, found := none }
    else []

/-- An item of a position. -/
def driveTask (p : PosIx) (kind : Nat) : CalTask := { p := p, kind := kind, gain := false, surf := 255, layer := 255, found := none }

/-- Kind 0x07 at the first spin-up of the position, kind 0x08 at its first valid position, where no record is in force or it is older than
RECAL_AGE. -/
def lookOnce (p : PosIx) (kind bit : Nat) (now : Bool) (s : State) : State :=
  if !now || bitAt s.cal.looked bit then s else
  let s := { s with cal := { s.cal with looked := setBit s.cal.looked bit } }
  let (raw, fall) := inForce s p kind 255 255 255
  if fall || leAt raw 16 8 + s.policyOf 0x23 p * 86400000000000 < s.rd R.timeNowNs then queueTasks [driveTask p kind] s else s

/-- The triggers that have come since the last tick (Table 8.6). -/
def calTriggers (p : PosIx) (s : State) : State :=
  let l := s.packs[p].recal
  let s := if l.isEmpty then s else s.updPack p fun k => { k with recal := [] }
  let s := l.foldl (fun s r =>
    queueTasks (layerTasks p r.1 r.2.1 r.2.2) (if bitAt r.2.2 1 || bitAt r.2.2 6 then queueOpc p r.1 s else s)) s
  let s := lookOnce p 7 (2 * p) (spnState s p == spnRun) s
  let s := lookOnce p 8 (2 * p + 1) (s.bit (R.carStatPvalid p)) s
  if s.pos[p].car.alignDue then queueTasks [driveTask p 8] (s.updCar p fun c => { c with alignDue := false }) else s

/-- The measurement under way on position p, and the state with it changed or over. -/
def measOf (s : State) (p : PosIx) : Option Meas := s.cal.meas.find? fun m => m.task.p == p
def updMeas (p : PosIx) (g : Meas → Meas) (s : State) : State :=
  { s with cal := { s.cal with meas := s.cal.meas.map fun m => if m.task.p == p then g m else m } }
def dropMeas (p : PosIx) (s : State) : State := { s with cal := { s.cal with meas := s.cal.meas.filter fun m => m.task.p != p } }

/-- What a run needs before it begins and while it goes on: the surface on its layer with focus and tracking closed; the spindle at
5,400 rpm with LOCK (R228); the carriage with a valid position. DESIGN CHOICE: log 105. -/
def measReady (s : State) (t : CalTask) : Bool :=
  let p := t.p
  if t.kind = 7 then spnState s p == spnRun && s.bit (R.spnStatLock p) && spnTarget s p == 5400
  else if t.kind = 8 then posEnabled s p && s.bit (R.carStatPvalid p) && carState s p != carFault && carState s p != carOff
  else
    let x := s.surfAt p t.face
    s.packs[p].status == .mounted && x.layer == t.layer && x.jump.isNone && !x.goNext &&
      (s.loopAt p (focusOf t.face)).mode == loopClosed && (s.loopAt p (trackOf t.face)).mode == loopClosed

/-- A run may begin: nothing that would cut it stands (R217), the one injection of the device is free (R225), the carriage rests, and
no correction of what it moves is still being applied. -/
def mayBegin (s : State) (t : CalTask) : Bool :=
  measReady s t && !streaming s t.p && !s.bit (R.srvSnuffLatch t.p) && !(t.gain && s.bit R.calInjEn) &&
    (t.kind != 8 || carState s t.p == carHold) &&
    !s.cal.moves.any fun m => m.p == t.p && (match m.surf with
      | some f => f == t.face && t.kind < 7
      | none => t.kind == 7)

/-- The slope in use, in codes per nanometre as Q16.16: the record's, else the nominal one of R144. -/
def slopeInUse (s : State) (t : CalTask) : Int :=
  let v := toSigned 32 (leAt (inForce s t.p t.kind t.surf t.layer 255).1 36 4)
  if v != 0 then v else if t.kind = 2 then 13421773 else 55924053

/-- The offsets of a scan's points from the value in use, in codes (Table 8.2); 24 codes of the advance entry for 3° (R228). -/
def scanOffsets (s : State) (t : CalTask) : List Int :=
  let k := (List.range 7).map fun (i : Nat) => (i : Int) - 3
  match t.kind with
  | 5 => k.map (· * 32)
  | 2 => k.map fun i => roundHalfUp (i * 8 * slopeInUse s t) 65536
  | 4 => k.map fun i => roundHalfUp (i * 32768) 10
  | _ => k.map fun i => roundHalfUp (i * 32 * slopeInUse s t) 655360

/-- The value in use of what a scan moves. -/
def valueInUse (s : State) (t : CalTask) : Int :=
  match t.kind with
  | 2 => s.rdI (R.srvSpFocus t.p t.face)
  | 3 => s.rdI (R.srvSpTrack t.p t.face)
  | 4 => s.rdI (R.srvSpTilt t.p t.face)
  | 5 => toSigned 16 (nth 0 s.pos[t.p].pf8.sa t.face)
  | _ => s.rd (R.spnAdvAdv2 t.p 3)

/-- The points of a run: the scan about the value in use, or entry 14 from 0 to 30°. -/
def scanPoints (s : State) (m : Meas) : List Int :=
  if m.task.kind = 7 then (List.range 11).map fun (i : Nat) => 24 * (i : Int) else (scanOffsets s m.task).map (m.base + ·)

/-- How far one write moves a value, and the ticks until the next (R235). A spherical-aberration setting moves at once. -/
def writeStep : Nat → Int × Nat
  | 2 => (400, 16)
  | 3 => (1600, 16)
  | 4 => (328, 16)
  | 7 => (8, 125000)
  | _ => (65536, 0)

/-- A value one write nearer to its goal. -/
def toward (a goal lim : Int) : Int := if a < goal then min goal (a + lim) else max goal (a - lim)

/-- A spherical-aberration setting goes to the PF8 over the control channel (R159). -/
def sendSa (p : PosIx) (f : Fin 8) (v : Int) (s : State) : State := creq p 2 (0x108 + 0x20 * f) (ofSigned 16 v) .cal s

/-- What a scan moves is written. -/
def putValue (t : CalTask) (v : Int) (s : State) : State :=
  match t.kind with
  | 2 => s.wrI (R.srvSpFocus t.p t.face) v
  | 3 => s.wrI (R.srvSpTrack t.p t.face) v
  | 4 => s.wrI (R.srvSpTilt t.p t.face) v
  | 5 => sendSa t.p t.face v s
  | _ => s.wr (R.spnAdvAdv2 t.p 3) v.toNat

/-- Ticks for which a point is held (R226, R228). -/
def holdTicks (t : CalTask) : Nat := if t.kind = 7 then 1250000 else 64

/-- What a tick of a point adds to its sum: the error code of the loop scanned (R226), or |I| (R228). -/
def heldReading (s : State) (t : CalTask) : Int :=
  let x := (s.surfAt t.p t.face).last
  match t.kind with
  | 2 => x.fe
  | 3 => x.te
  | 7 => (s.rdI (R.spnIphCurrent t.p)).natAbs
  | _ => 0

/-- The fields of a run of scans: the vertex, and for FE and TE the slope, the change of the mean code over the span (R226). -/
def scanResult (s : State) (m : Meas) : Option (List Int) :=
  let rise := nth 0 m.es 6 - nth 0 m.es 0
  (vertexOf (scanPoints s m) m.ys).map fun v =>
    match m.task.kind with
    | 2 => [v, roundHalfUp (rise * 65536) (64 * 48)]
    | 3 => [v, roundHalfUp (rise * 655360) (64 * 192)]
    | _ => [v]

/-- How two runs of an item agree (Table 8.1): ±1.0 nm by the slope in use, and so on. -/
def itemTols (s : State) (t : CalTask) : List Tol :=
  if t.gain then [.mean 50] else
  match t.kind with
  | 2 | 3 => [.codes 65536 (slopeInUse s t).natAbs, .mean 50]
  | 4 => [.codes 1 1638]
  | 5 => [.codes 1 8]
  | 7 => [.codes 1 12]
  | _ => [.codes 1 4, .codes 1 3, .mean 50]

/-- Entries 0 to 15 from entry 14 (R228). The quotient is rounded half up. DEDUCED: log 105. -/
def advanceEntries (e14 : Int) : List Int :=
  (List.range 16).map fun (i : Nat) => if i = 0 then 0 else clampI 0 0xF0 (roundHalfUp (e14 * i) 14)

/-- The VALUE of an item's record (Table 8.4). -/
def itemValue (s : State) (t : CalTask) (v : List Int) : List Byte :=
  let b := fun (n i : Nat) => leBytes n (ofSigned (8 * n) (nth 0 v i))
  match t.kind with
  | 2 | 3 =>
    let g := t.found.getD (toSigned 32 (leAt (inForce s t.p t.kind t.surf t.layer 255).1 28 4))
    leBytes 4 (ofSigned 32 g) ++ b 2 0 ++ leBytes 2 0 ++ b 4 1
  | 7 => (advanceEntries (nth 0 v 0)).flatMap fun e => leBytes 1 e.toNat
  | 8 => b 2 0 ++ leBytes 2 0 ++ b 4 1 ++ b 4 2
  | _ => b 2 0

/-- The advance entries of position p. -/
def advEntries (s : State) (p : PosIx) : List Int :=
  (List.range 4).flatMap fun j =>
    [(s.rd (R.spnAdvAdv0 p j) : Int), s.rd (R.spnAdvAdv1 p j), s.rd (R.spnAdvAdv2 p j), s.rd (R.spnAdvAdv3 p j)]
def putEntries (p : PosIx) (l : List Int) (s : State) : State :=
  let v := fun (i : Nat) => (nth 0 l i).toNat
  s.forEach (List.range 4) fun j s =>
    (((s.wr (R.spnAdvAdv0 p j) (v (4 * j))).wr (R.spnAdvAdv1 p j) (v (4 * j + 1))).wr (R.spnAdvAdv2 p j) (v (4 * j + 2))).wr
      (R.spnAdvAdv3 p j) (v (4 * j + 3))

/-- A correction begins, in place of an earlier one of the same kind. -/
def beginMove (p : PosIx) (surf : Option (Fin 8)) (goal : List Int) (s : State) : State :=
  { s with cal := { s.cal with moves := (s.cal.moves.filter fun m => m.p != p || m.surf != surf) ++
      [{ p := p, surf := surf, goal := goal, pace := 0 }] } }

/-- OFS is written only in OFF, HOLD or PARKED (R235). -/
def putOfs (p : PosIx) (v : Nat) (s : State) : State :=
  let st := carState s p
  if st = carOff || st = carHold || st = carParked then s.wr (R.carAlignOfs p) v else s

/-- The records of a position's drives are applied (R235): OFS and the advance entries, and, as long as POS_CFG.EN is 0, the index
position. Without a record the registers keep what they hold (DESIGN CHOICE: log 105). -/
def applyDrives (p : PosIx) (s : State) : State :=
  let (a, noA) := inForce s p 7 255 255 255
  let (c, noC) := inForce s p 8 255 255 255
  let s := if noA then s else beginMove p none ((List.range 16).map fun i => (leAt a (28 + i) 1 : Int)) s
  if noC then s else
  let s := putOfs p (leAt c 28 2) s
  if s.bit (R.posCfgEn p) then s else s.wr (R.carIdxPos p) (leAt c 32 4)

/-- What a measurement moved goes back to what is in use: the spherical aberration at once, the rest as corrections go (R235). A layer
that a surface is on takes the values in force anew. -/
def settleBack (m : Meas) (s : State) : State :=
  let t := m.task
  if t.kind = 5 then sendSa t.p t.face m.base s
  else if t.kind = 7 then
    beginMove t.p none (match inForce s t.p 7 255 255 255 with
      | (raw, false) => (List.range 16).map fun i => (leAt raw (28 + i) 1 : Int)
      | _ => (advEntries s t.p).set 14 m.base) s
  else if t.kind = 8 then applyDrives t.p s
  else s.updSurf t.p t.face fun x => { x with applied := none }

/-- An item has its result (R216, R218), or the gain of a loop, which its scan stores. -/
def measGood (m : Meas) (v : List Int) (s : State) : State :=
  let t := m.task
  let s := dropMeas t.p s
  let scan : CalTask := { t with gain := false }
  if t.gain then
    { s with cal := { s.cal with tasks := s.cal.tasks.map fun x => if x.same scan then { x with found := v.head? } else x } }
  else
    let s := itemGood t.p t.kind t.surf t.layer (storeItem t.p t.kind t.surf t.layer 255 m.runs.length 0 (itemValue s t v) s)
    let s := if t.kind ≤ 5 then
        s.updPack t.p fun k => { k with tempOf := (k.tempOf.filter fun e => e.1 != t.layer) ++ [(t.layer, k.temp)] }
      else s
    settleBack m s

/-- An item fails (R217, R218): what is left of it is not measured. -/
def measFail (m : Meas) (s : State) : State :=
  let t := m.task
  let s := dropMeas t.p s
  let s := { s with cal := { s.cal with tasks := s.cal.tasks.filter fun x =>
      !(x.p == t.p && x.kind == t.kind && x.surf == t.surf && x.layer == t.layer) } }
  settleBack m (itemFailed t.p t.kind t.surf t.layer m.runs.length s)

/-- The carriage's limits are put back after a run of its alignment. -/
def limitsBack (m : Meas) (s : State) : State :=
  let p := m.task.p
  if m.task.kind != 8 then s else
  ((s.wr (R.carVmaxVmax p) (nth 0 m.saved 0)).wr (R.carAccAmax p) (nth 0 m.saved 1)).wr (R.carAccJmax p) (nth 0 m.saved 2)

/-- A run is over, with its fields or, where it was not valid, with none: the two or three runs settle (R216). -/
def runDone (p : PosIx) (v : Option (List Int)) (s : State) : State :=
  match measOf s p with
  | none => s
  | some m =>
    let m := { m with on := false, runs := m.runs ++ [if m.drift then none else v] }
    let s := limitsBack m (updMeas p (fun _ => m) s)
    match settleRuns (itemTols s m.task) m.runs with
    | some r => measGood m r s
    | none => if m.runs.length ≥ 3 then measFail m s else s

/-- A run is cut by snuff, a forced reset or a stripe operation (R217): it is discarded, and after the fourth the item fails. -/
def runCut (m : Meas) (s : State) : State :=
  let s := if m.task.gain then s.clr1 R.calInjEn else s
  let m := { m with on := false, cut := false, discards := m.discards + 1 }
  let s := limitsBack m (updMeas m.task.p (fun _ => m) s)
  if m.discards ≥ 4 then measFail m s else s

/-- A run begins. A loop gain is measured with the injection (R225), at the amplitude that CAL_INJ holds. -/
def runBegin (m : Meas) (s : State) : State :=
  let t := m.task
  let s := updMeas t.p (fun _ => { m with on := true, temp := s.packs[t.p].temp, drift := false, point := 0, now := valueInUse s t, pace := 0,
                                          held := 0, sum := 0, count := 0, ys := [], es := [], cut := false }) s
  if t.gain then injectionStart t.p t.loop (s.rd R.calInjAmp) s else s

/-- A control request of calibration that the PF8 of position p has not answered. -/
def saPending (s : State) (p : PosIx) : Bool := (s.pos[p].igl.out ++ s.pos[p].igl.waiting).any fun c => c.owner == .cal

/-- One tick of a scan: a write toward the point, or a tick of its hold; the wobble amplitude that the PF8 reports then is a free
value, since no chapter gives it a register. DESIGN CHOICE: log 105. -/
def scanTick (m : Meas) (s : State) : State :=
  let t := m.task
  let pts := scanPoints s m
  let goal := nth 0 pts m.point
  let (lim, gap) := writeStep t.kind
  if m.pace > 0 then updMeas t.p (fun m => { m with pace := m.pace - 1 }) s
  else if m.now != goal then
    let v := toward m.now goal lim
    putValue t v (updMeas t.p (fun m => { m with now := v, pace := gap - 1 }) s)
  else if t.kind = 5 && saPending s t.p then s
  else if m.held + 1 < holdTicks t then updMeas t.p (fun m => { m with held := m.held + 1, sum := m.sum + heldReading s t }) s
  else
    let (a, s) := if t.kind = 7 then (0, s) else s.draw 0x9C
    let sum := m.sum + heldReading s t
    let m := { m with point := m.point + 1, held := 0, sum := 0, ys := m.ys ++ [if t.kind = 7 then -sum else (a : Int)], es := m.es ++ [sum] }
    let s := updMeas t.p (fun _ => m) s
    if m.point < pts.length then s else runDone t.p (scanResult s m) s

/-- One tick of the measurement on position p. A run that loses what it needs is not valid (R216, R228); the carriage's goes on with its
loop, an injection's ends with INJECTION_DONE. -/
def runTick (p : PosIx) (s : State) : State :=
  match measOf s p with
  | none => s
  | some m =>
    if !m.on then (if mayBegin s m.task then runBegin m s else s)
    else if m.cut || s.bit (R.srvSnuffLatch p) || streaming s p || (m.task.gain && s.bit R.calInjsAborted) then runCut m s
    else
      let s := if (s.packs[p].temp - m.temp).natAbs > 16 then updMeas p (fun m => { m with drift := true }) s else s
      if !measReady s m.task then runDone p none (if m.task.gain then s.clr1 R.calInjEn else s)
      else if m.task.gain || m.task.kind = 8 then s
      else scanTick m s

/-- The first task of position p that can be measured now is taken up. Tasks of a pack that is gone go with it. -/
def takeTask (p : PosIx) (s : State) : State :=
  let s := if s.packs[p].status == .none then
      { s with cal := { s.cal with tasks := s.cal.tasks.filter fun t => t.p != p || t.kind ≥ 7,
                                   meas := s.cal.meas.filter fun m => m.task.p != p || m.task.kind ≥ 7 } }
    else s
  if (measOf s p).isSome then s else
  match s.cal.tasks.find? fun t => t.p == p && mayBegin s t with
  | none => s
  | some t =>
    let m : Meas := { task := t, runs := [], discards := 0, on := false, base := valueInUse s t,
                      saved := [s.rd (R.carVmaxVmax p), s.rd (R.carAccAmax p), s.rd (R.carAccJmax p)], temp := 0, drift := false, point := 0,
                      now := 0, pace := 0, held := 0, sum := 0, count := 0, ys := [], es := [], cut := false }
    { s with cal := { s.cal with tasks := s.cal.tasks.filter fun x => !x.same t, meas := s.cal.meas ++ [m] } }

/-- The end of the injection is that of a loop gain's run (R225): LOOP_GAIN / |L| with |L| = |U| / |E| between 0.5 and 2. -/
def gainDone (s : State) : State :=
  if !s.bit R.calInjsDone then s else
  match s.cal.meas.find? fun m => m.on && m.task.gain && m.task.p.val == s.rd R.calInjPos with
  | none => s
  | some m =>
    let sq := fun (a b : Fld) => s.rdI a * s.rdI a + s.rdI b * s.rdI b
    let e := sq R.calInjeEi R.calInjeEq
    let u := sq R.calInjuUi R.calInjuUq
    let g := s.rdI (R.loopGainGain m.task.p m.task.loop)
    runDone m.task.p (if 0 < e && e ≤ 4 * u && u ≤ 4 * e then some [(isqrt ((g * g * e / u).toNat) : Int)] else none)
      (s.clr1 R.calInjsDone)

/-- The loop items of the layer that a surface has come to (R235, R236): the gains go to LOOP_GAIN, the offsets and the tilt target to
the set-points step by step; an item for which a fallback is in use is measured (Table 8.6), unless it has failed. -/
def applyLayer (p : PosIx) (f : Fin 8) (s : State) : State :=
  let x := s.surfAt p f
  if s.packs[p].status != .mounted || x.applied == some x.layer || x.jump.isSome ||
      (s.loopAt p (focusOf f)).mode != loopClosed then s else
  let of := fun (kind : Nat) => inForce s p kind f x.layer 255
  let due := ([2, 3, 4].filter fun kind => (of kind).2 && !s.packs[p].calBad.contains (kind, f.val, x.layer)).foldl setBit 0
  let s := s.updSurf p f fun y => { y with applied := some x.layer }
  let s := (s.wr (R.loopGainGain p (focusOf f)) (leAt (of 2).1 28 4)).wr (R.loopGainGain p (trackOf f)) (leAt (of 3).1 28 4)
  let s := beginMove p (some f)
    [toSigned 16 (leAt (of 2).1 32 2), toSigned 16 (leAt (of 3).1 32 2), toSigned 16 (leAt (of 4).1 28 2)] s
  if due = 0 then s else queueTasks (layerTasks p x.layer (2 ^ f.val) due) s

/-- One tick of a correction (R235): the values one write nearer, and none once they are reached. -/
def moveTick (m : CalMove) (s : State) : Option CalMove × State :=
  if m.pace > 0 then (some { m with pace := m.pace - 1 }, s) else
  match m.surf with
  | some f =>
    let p := m.p
    let sp := [(R.srvSpFocus p f, 2), (R.srvSpTrack p f, 3), (R.srvSpTilt p f, 4)]
    let next := (List.zip sp m.goal).map fun x => (x.1.1, toward (s.rdI x.1.1) x.2 (writeStep x.1.2).1)
    if (List.zip sp m.goal).all fun x => s.rdI x.1.1 == x.2 then (none, s)
    else (some { m with pace := 15 }, next.foldl (fun s x => s.wrI x.1 x.2) s)
  | none =>
    let now := advEntries s m.p
    if now == m.goal then (none, s)
    else if spnState s m.p == spnRun then
      (some { m with pace := 124999 }, putEntries m.p (List.zipWith (fun a g => toward a g 8) now m.goal) s)
    else (none, putEntries m.p m.goal s)

/-- One tick of every correction of position p. -/
def movesTick (p : PosIx) (s : State) : State :=
  s.cal.moves.foldl (fun s m =>
    if m.p != p then s else
    let (n, s) := moveTick m s
    let rest := s.cal.moves.filter fun x => x.p != m.p || x.surf != m.surf
    { s with cal := { s.cal with moves := rest ++ n.toList } }) s

/-- The records of a position's drives are applied once while POS_CFG.EN is 0 (R204, R235). -/
def enableLook (p : PosIx) (s : State) : State :=
  let on := s.bit (R.posCfgEn p)
  let was := bitAt s.cal.looked (16 + p)
  if on == !was then s
  else if on then { s with cal := { s.cal with looked := clrBit s.cal.looked (16 + p) } }
  else applyDrives p { s with cal := { s.cal with looked := setBit s.cal.looked (16 + p) } }

/-- What firmware does for calibration at a tick of position p. -/
def measTick (p : PosIx) (s : State) : State :=
  if !fwUp s then s else
  runTick p (takeTask p (movesTick p ((calTriggers p (enableLook p s)).forEach allSurfs (applyLayer p))))

/-- Before the boundary at which a layer jump starts, its target layer's spherical-aberration setting goes to the PF8 (R159, R235). -/
def saAhead (p : PosIx) (s : State) : State :=
  if !fwUp s || s.packs[p].status != .mounted then s else
  s.forEach allSurfs fun f s =>
    let x := s.surfAt p f
    if !x.goNext || s.rd (R.jmpCtrlKind p f) != 1 then s else
    let n := s.rd (R.jmpCtrlCount p f)
    let layer := if s.bit (R.jmpCtrlDir p f) then x.layer - n else min 15 (x.layer + n)
    sendSa p f (toSigned 16 (leAt (inForce s p 5 f layer 255).1 28 2)) s

/-- The nominal centre of track 3,467 in counts (R24, R194, R229). -/
def trackCentre : Int := 471096

/-- An electrical cycle of the carriage in counts (R195, R196). -/
def carCycle (s : State) (p : PosIx) : Int := 4 * (s.rd (R.carCfgStepCnt p) : Int)

/-- An engine's wobble shows zone 1 on L0 under a surface of position p (R229); the address words received without error count. -/
def zoneOne (s : State) (p : PosIx) : Bool :=
  allEng.any fun e =>
    let w := s.eng[e].word
    (match s.eng[e].home with
      | some (q, f) => q == p && (s.surfAt p f).layer == 0
      | none => false) &&
    w.length == 16 && (wobbleSyn w).all (· == 0) && nth 0 w 0 == 0 && nth 0 w 1 % 8 * 8 + nth 0 w 2 / 2 == 1

/-- A move of the alignment that begins in HOLD: a seek, or a DIRECT move at 10 counts/ms. -/
def alignSeek (p : PosIx) (x : Int) (s : State) : State := seekTo p (clampI (carVlimIn s p) (carVlimOut s p) x) false s
def alignDirect (p : PosIx) (d : Int) (s : State) : State :=
  let s := carDirectCmd p (s.wr (R.carVmaxVmax p) 10)
  carTargetWrite p (ofSigned 32 (s.rdI (R.carRefInt p) + d)) s

/-- The fields of the alignment (R229): OFS corrected by half the difference of the two mean following errors, outward less inward;
the index position by the measured place of the zone change less the nominal one; the acceleration at IMAX, in Q16.16. `es`: sum
and number of the errors outward, then inward, then the place. DEDUCED: log 105. -/
def alignResult (s : State) (m : Meas) : Option (List Int) :=
  let p := m.task.p
  let e := fun (i : Nat) => nth 0 m.es i
  if e 1 = 0 || e 3 = 0 || m.sum = 0 then none
  else some [(s.rd (R.carAlignOfs p) : Int) + roundHalfUp (e 0 * e 3 - e 2 * e 1) (2 * e 1 * e 3),
             s.rdI (R.carIdxPos p) - (e 4 - trackCentre),
             roundHalfUp ((s.rd (R.carAccAmax p) * carImax s p * 65536 * m.count : Nat) * carMilliamp) m.sum]

/-- One period of the carriage alignment (R229): to mid-stroke; outward and back at 10 counts/ms over one electrical cycle; across the
nominal place of the zone change; to the inner limit and over the full stroke at reset limits. A run that finds no zone change is not
valid. DESIGN CHOICE: log 105. -/
def alignPeriod (p : PosIx) (s : State) : State :=
  match measOf s p with
  | none => s
  | some m =>
    if !m.on || m.task.kind != 8 then s else
    let st := carState s p
    let go := fun (g : State → State) => updMeas p (fun m => { m with point := m.point + 1 }) (g s)
    let err := (carRef s p - s.rdI (R.carPosPos p) * q40) / q40
    let c := s.pos[p].car
    let bad := runDone p none s
    if st = carFault || st = carOff || !fwUp s then bad
    else if [0, 1, 4, 5, 7, 8].contains m.point then
      if st != carHold then s
      else match m.point with
        | 0 => go (alignSeek p ((carVlimIn s p + carVlimOut s p) / 2))
        | 1 => go (alignDirect p (carCycle s p))
        | 4 => go (alignSeek p (trackCentre - carCycle s p))
        | 5 => go (alignDirect p (2 * carCycle s p))
        | 7 => go fun s => alignSeek p (carVlimIn s p) (((s.wr (R.carVmaxVmax p) (R.carVmaxVmax p).rst).wr
            (R.carAccAmax p) (R.carAccAmax p).rst).wr (R.carAccJmax p) (R.carAccJmax p).rst)
        | _ => go (alignSeek p (carVlimOut s p))
    else if m.point = 2 || m.point = 3 then
      if st != carDirect then bad
      else if !s.bit (R.carStatSettled p) then updMeas p (fun m => { m with sum := m.sum + err, count := m.count + 1 }) s
      else
        let s := updMeas p (fun m => { m with es := m.es ++ [m.sum, (m.count : Int)], sum := 0, count := 0, point := m.point + 1 }) s
        if m.point = 2 then carTargetWrite p (ofSigned 32 (s.rdI (R.carRefInt p) - carCycle s p)) s
        else carStopCmd p (s.wr (R.carVmaxVmax p) (nth 0 m.saved 0))
    else if m.point = 6 then
      if st != carDirect then bad
      else if zoneOne s p then
        carStopCmd p (updMeas p (fun m => { m with es := m.es ++ [s.rdI (R.carPosPos p)], point := 7 }) s)
      else if s.bit (R.carStatSettled p) then carStopCmd p bad
      else s
    else if st = carSeek then
      if c.acc.natAbs = amaxStep s p then updMeas p (fun m => { m with sum := m.sum + c.cur.natAbs, count := m.count + 1 }) s else s
    else if st != carHold then bad
    else runDone p (alignResult s m) s

/-- SERVO_TICK: the boundary and what firmware does for calibration, 800 ns of TIME while PLL_SRV runs, `emb` cycles of the EMB clock in
PWR_RTC, and FLT's pending records reach the MRAM (R142, R416, R476, R478). -/
def execServoTick (faults : List LaneFault) (emb : Nat) (s : State) : Out :=
  let on := allPos.filter (posOffered s)
  let s := if s.bit (R.clkPllLock 5) then
      timeAdvance 200 ((gridTick faults (s.forEach on saAhead)).forEach on measTick)
    else s
  done (fltDrain (s.tickUp R.pwrRtcCount emb))
/-- CARRIAGE_LOOP (R196): one period, the next step of a carriage that goes to park (R211), and the alignment (R229). -/
def execCarriageLoop (p : PosIx) (s : State) : Out := atPos p (fun s => alignPeriod p (parkStep p (carriageLoop p s))) s
/-- INJECTION_DONE. -/
def execInjectionDone (s : State) : Out := done (gainDone (injectionDone s))

end Sys2Proof.Machine
end

