-- ==== Sys2Proof/Machine/Sanitise.lean ====
section
/-! DEFINITION. FORMAT and SANITISE (R325 to R330, R458, R459), each step when it is due. -/

namespace Sys2Proof.Machine

/-- Whether the pack carries, or is about to carry, a record that a test accepts. -/
def onLedger (k : PackState) (g : LBody → Bool) : Bool := k.ledger.any fun r => g r.body
def queuedRec (k : PackState) (g : LBody → Bool) : Bool :=
  (k.lq ++ ((k.lpour.map (·.recs)).getD [])).any fun r => g r.body

/-- A FORMAT_PROGRESS record of a step and, for step 3, of a layer. -/
def isProgress (step layer : Nat) : LBody → Bool
  | .formatProgress st l _ => st == step && (step != 3 || l == layer)
  | _ => false

/-- One step of FORMAT (Table 11.4): its records are queued, and once they lie on the pack its FORMAT_STEP entry is
appended and `next` follows. DEDUCED: log 62. -/
def formatStep (p : PosIx) (step layer esc : Nat) (act next : State → State) (s : State) : State :=
  let k := s.packs[p]
  if onLedger k (isProgress step layer) then
    let s := if k.blank then packPageChange 4 p s else s
    next (jappend p (.formatStep step layer k.cardCrc k.uuid esc)
      (s.updPack p fun k => { k with fmt := some (step, layer, esc), blank := false }))
  else if queuedRec k (isProgress step layer) then s
  else (queueRec p (.formatProgress step layer esc) (act s)).updPack p fun k => { k with flushDue := true }

/-- The FORMAT command of a position, where it has not ended, completes. DEDUCED: log 62. -/
def formatEnd (p : PosIx) (cls reason : Nat) (s : State) : State :=
  match packCmd s p 0x13 with
  | some t => finish t.num cls reason 0 (s.updPack p fun k => { k with owner := none })
  | none => s

/-- FORMAT begins: the escrow key must be enrolled, the UUID comes from the TRNG (R325, Table 11.4). -/
def formatBegin (p : PosIx) (t : Tag) (s : State) : State :=
  let esc := t.csp 36 8
  if esc != 0 && (escrowKey s esc).isNone then finish t.num 1 0x0C04 0 s
  else if s.mtl.trngBad then finish t.num 6 0x0C08 0 s
  else
    let (b, s) := random 0xA3 16 s
    let uuid := leNat b
    let s := s.updPack p fun k => { k with uuid := uuid, tag := uuid % 2 ^ 64, fmt := some (0, 0, esc), owner := some t.num }
    packPageChange 4 p (jappend p (.formatStep 0 0 s.packs[p].cardCrc uuid esc) s)

/-- Step 2: the pack key is generated and wrapped. DEDUCED: log 62, 97. -/
def formatKey (p : PosIx) (esc : Nat) (s : State) : State :=
  match keyNew p esc s with
  | (.ok b, s) => queueRec p (keyRecord b) s
  | (.error r, s) => formatEnd p 6 r s

/-- FORMAT of a mounted pack goes on from the last step recorded (R325, R327). -/
def formatPack (p : PosIx) (s : State) : State :=
  let k := s.packs[p]
  if k.status != .mounted || k.roMount || !fwUp s then s else
  match k.fmt with
  | none => match packCmd s p 0x13 with
    | some t => formatBegin p t s
    | none => s
  | some (step, layer, esc) =>
    if !tracking s p then wake p s else
    match step with
    | 0 => formatStep p 1 0 esc (queueRec p (.packIdentity (fingerprint s) k.uuid k.cardCrc)) id s
    | 1 =>
      if debugOpen s && !onLedger k (isProgress 2 0) && !queuedRec k (isProgress 2 0) then formatEnd p 6 0x0C06 s
      else if s.mtl.trngBad && !onLedger k (isProgress 2 0) && !queuedRec k (isProgress 2 0) then formatEnd p 6 0x0C08 s
      else formatStep p 2 0 esc (formatKey p esc) id s
    | 2 => opcLayer 0 esc s
    | 3 => if layer < 15 then opcLayer (layer + 1) esc s
      else formatStep p 4 0 esc id (fun s => formatEnd p 0 0
        (packPageChange 4 p (s.updPack p fun k => { k with fmt := none }))) s
    | _ => s
where
  /-- Step 3 for a layer: its OPC has run, then its record. -/
  opcLayer (layer esc : Nat) (s : State) : State :=
    if bitAt s.packs[p].opcDone layer then formatStep p 3 layer esc id id s else queueOpc p layer s

/-- KEY_DESTROYED records for every WRAPPED_KEY record of the pack (R459). -/
def queueDestroyed (p : PosIx) (s : State) : State :=
  let k := s.packs[p]
  let keys := (k.ledger ++ k.lq ++ ((k.lpour.map (·.recs)).getD [])).filter fun r => r.body.type == 3
  let s := s.updPack p fun k => { k with lq := k.lq.filter fun r => r.body.type != 3, flushDue := true }
  keys.foldl (fun s r => match r.body with
    | .wrappedKey f _ _ _ => queueRec p (.keyDestroyed f r.seq) s
    | _ => s) s

/-- Home slots to burn on a layer, then riser slots, in path order (R329), as ranges of slot numbers. -/
def burnRanges (s : State) (p : PosIx) (layer : Nat) : List (Nat × Nat) :=
  let k := s.packs[p]
  let ms := (k.recorded ++ k.casts.map (·.m) ++ k.barred ++ (opensOf (entriesOf s k.tag)).map (·.1)).filter fun m => castLayer m == layer
  let home := match ms.min?, ms.max? with
    | some a, some b => [(homeSlot (128 * a), homeSlot (128 * b) + 128)]
    | _, _ => []
  let used := riserUsed s p layer
  let riser := if used = 0 then [] else [(riserBase layer, riserBase layer + used)]
  if layer % 2 = 0 then home ++ riser else riser ++ home

/-- The next slot to burn at or after one, on a layer. -/
def burnNext (l : List (Nat × Nat)) (f : Nat) : Option Nat :=
  ((l.filter fun r => f < r.2).map fun r => max f r.1).min?

/-- The burn goes on from its next slot within the present layer, at most `n` slots and no farther than the next multiple of 1,024;
at a layer's end it goes to the next layer (R329). Every slot it passes is dead. The answer counts the slots. -/
def burnStep (p : PosIx) (n : Nat) (s : State) : Nat × State :=
  let k := s.packs[p]
  match burnNext (burnRanges s p k.sanLayer) k.sanNext with
  | none =>
    let fin := k.sanLayer ≥ 15
    let s := s.updPack p fun k => { k with sanLayer := if fin then k.sanLayer else k.sanLayer + 1, sanNext := 0,
                                           sanState := if fin then 2 else 1, san := !fin, flushDue := true }
    let k := s.packs[p]
    let s := queueRec p (.sanitiseProgress k.sanMode k.sanState k.sanLayer 0) s
    (0, if fin then packPageChange 4 p s else s)
  | some f =>
    let end_ := (((burnRanges s p k.sanLayer).find? fun r => r.1 ≤ f && f < r.2).map (·.2)).getD f
    let next := min end_ (min (f + n) ((f / 1024 + 1) * 1024))
    let s := s.updPack p fun k => { k with sanNext := next, burnt := burntAdd k.sanLayer f next k.burnt }
    let s := if next / 1024 != f / 1024 || next = end_ then jappend p (.sanitiseStep k.sanMode 1 k.sanLayer next) s else s
    (next - f, if next / 16384 != f / 16384 then
        (queueRec p (.sanitiseProgress k.sanMode 1 k.sanLayer next) s).updPack p fun k => { k with flushDue := true }
      else s)
where
  /-- Slots f up to `next` of a layer join those burnt just before them. -/
  burntAdd (layer f next : Nat) (l : List (Nat × Nat × Nat)) : List (Nat × Nat × Nat) :=
    match l.find? fun x => x.1 == layer && x.2.2 == f with
    | some x => (l.filter (· != x)) ++ [(layer, x.2.1, next)]
    | none => l ++ [(layer, f, next)]

/-- The burn over n slots. -/
def burnSlots (p : PosIx) : Nat → Nat → State → State
  | 0, _, s => s
  | fuel + 1, n, s =>
    if n = 0 || !s.packs[p].san then s else
    let (k, s) := burnStep p n s
    burnSlots p fuel (n - k) s

/-- The obliteration in the background (R329): suspended by snuff, which sends it back to the last journalled slot. -/
def burn (p : PosIx) (n : Nat) (s : State) : State :=
  if s.pins.pwrFail || !fwUp s then s
  else if s.bit (R.srvSnuffLatch p) then s.updPack p fun k => { k with sanNext := k.sanNext / 1024 * 1024 }
  else if tracking s p then burnSlots p (n / 1024 + 64) n s else wake p s

/-- What the state of SANITISE_PROGRESS records is once a key is destroyed: 2 for mode 1, 1 for mode 2 (R328). -/
def sanGoal (mode : Nat) : Nat := if mode = 1 then 2 else 1

/-- A SANITISE_PROGRESS record of a mode and state. -/
def isSanitise (mode st : Nat) : LBody → Bool
  | .sanitiseProgress m x _ _ => m == mode && x == st
  | _ => false

/-- SANITISE (R328, R458, R459): the key is destroyed, its records follow, and the command completes. -/
def sanitiseCmd (p : PosIx) (t : Tag) (s : State) : State :=
  let mode := t.csp 33 1
  let k := s.packs[p]
  let isKd := fun b => LBody.type b == 8
  if !fwUp s then s
  else if k.sanMode != mode || k.owner != some t.num then
    if !k.keyGone && withinRank s p then s else
    let fresh := !k.keyGone
    let s := if fresh then queueDestroyed p (readOnly p 0x040E (keyDestroyNow p s)) else s
    packPageChange 4 p (s.updPack p fun k => { k with keyGone := true, sanMode := mode, sanState := 0, owner := some t.num })
  else if queuedRec k isKd then wake p s
  else if k.sanState = 0 then
    let s := s.updPack p fun k => { k with ledger := k.ledger.filter fun r => r.body.type != 3, sanState := sanGoal mode,
                                           sanLayer := 0, sanNext := 0, flushDue := true }
    queueRec p (.sanitiseProgress mode (sanGoal mode) 0 0) s
  else if queuedRec k (isSanitise mode (sanGoal mode)) then wake p s
  else finish t.num 0 0 0 (packPageChange 4 p (s.updPack p fun k => { k with owner := none, san := mode == 2 }))

/-- SANITISE: the command while it runs, else the burn. DEDUCED: log 62. -/
def sanitise (p : PosIx) (slots : Nat) (s : State) : State :=
  match packCmd s p 0x14 with
  | some t => sanitiseCmd p t s
  | none => if s.packs[p].san && s.packs[p].status == .mounted then burn p slots s else s

/-- FORMAT. -/
def execFormat (p : PosIx) (s : State) : Out := packRow p (formatPack p) s
/-- SANITISE. -/
def execSanitise (p : PosIx) (slots : Nat) (s : State) : Out := packRow p (sanitise p slots) s

end Sys2Proof.Machine
end

