-- ==== Sys2Proof/Machine/Dispatch.lean ====
section
/-! DEFINITION. One arm per command: the direct call of its meaning. -/

namespace Sys2Proof.Machine

def exec (i : Instr) (s : State) : Host.Outcome State Fault Refusal :=
  match i with
  | .registerWrite who addr size value => Sys2Proof.Machine.execRegisterWrite who addr size value s
  | .rcFieldRead who addr size => Sys2Proof.Machine.execRcFieldRead who addr size s
  | .fabricAccess who priv addr acc env => Sys2Proof.Machine.execFabricAccess who priv addr acc env s
  | .deviceFailed d => Sys2Proof.Machine.execDeviceFailed d s
  | .selfRefreshEntry => Sys2Proof.Machine.execSelfRefreshEntry s
  | .evictionWriteback => Sys2Proof.Machine.execEvictionWriteback s
  | .tileRelease p n k => Sys2Proof.Machine.execTileRelease p n k s
  | .rankIdleExpiry p n => Sys2Proof.Machine.execRankIdleExpiry p n s
  | .rankAssembly p n mism => Sys2Proof.Machine.execRankAssembly p n mism s
  | .castStart e => Sys2Proof.Machine.execCastStart e s
  | .castAbort e => Sys2Proof.Machine.execCastAbort e s
  | .pourSlotStart e start => Sys2Proof.Machine.execPourSlotStart e start s
  | .frameVerdict e mismatch => Sys2Proof.Machine.execFrameVerdict e mismatch s
  | .journalCommit => Sys2Proof.Machine.execJournalCommit s
  | .riserVisit p m => Sys2Proof.Machine.execRiserVisit p m s
  | .pourStreamIdle p => Sys2Proof.Machine.execPourStreamIdle p s
  | .ledgerAgeExpiry p => Sys2Proof.Machine.execLedgerAgeExpiry p s
  | .ledgerPour p => Sys2Proof.Machine.execLedgerPour p s
  | .ledgerPourVerified p => Sys2Proof.Machine.execLedgerPourVerified p s
  | .layerFirstAccess p layer cards => Sys2Proof.Machine.execLayerFirstAccess p layer cards s
  | .shockFall p => Sys2Proof.Machine.execShockFall p s
  | .snuffClear p => Sys2Proof.Machine.execSnuffClear p s
  | .readStart e => Sys2Proof.Machine.execReadStart e s
  | .readAbort e => Sys2Proof.Machine.execReadAbort e s
  | .readSlotStart e wobble symcnt => Sys2Proof.Machine.execReadSlotStart e wobble symcnt s
  | .samplePacket p x => Sys2Proof.Machine.execSamplePacket p x s
  | .readResultPost e mismatch upsets cacheErr => Sys2Proof.Machine.execReadResultPost e mismatch upsets cacheErr s
  | .retryPass p n deep upsets => Sys2Proof.Machine.execRetryPass p n deep upsets s
  | .marginClear e => Sys2Proof.Machine.execMarginClear e s
  | .servoTick faults emb => Sys2Proof.Machine.execServoTick faults emb s
  | .srvEnable p on => Sys2Proof.Machine.execSrvEnable p on s
  | .spareLeave p => Sys2Proof.Machine.execSpareLeave p s
  | .servoFail p => Sys2Proof.Machine.execServoFail p s
  | .loopModeWrite p l mode => Sys2Proof.Machine.execLoopModeWrite p l mode s
  | .loopGainNow p l => Sys2Proof.Machine.execLoopGainNow p l s
  | .loopCoefWrite p l bank n j value => Sys2Proof.Machine.execLoopCoefWrite p l bank n j value s
  | .setpointWrite p f value => Sys2Proof.Machine.execSetpointWrite p f value s
  | .focusLost p f => Sys2Proof.Machine.execFocusLost p f s
  | .jumpGo p f => Sys2Proof.Machine.execJumpGo p f s
  | .srvJmpgo p mask => Sys2Proof.Machine.execSrvJmpgo p mask s
  | .jumpAbort p f => Sys2Proof.Machine.execJumpAbort p f s
  | .jumpTimeout p f => Sys2Proof.Machine.execJumpTimeout p f s
  | .centrePublish p => Sys2Proof.Machine.execCentrePublish p s
  | .spnStart p => Sys2Proof.Machine.execSpnStart p s
  | .spnStopRegen p => Sys2Proof.Machine.execSpnStopRegen p s
  | .spnStopShort p => Sys2Proof.Machine.execSpnStopShort p s
  | .spnCoast p => Sys2Proof.Machine.execSpnCoast p s
  | .spnClear p => Sys2Proof.Machine.execSpnClear p s
  | .spnPwmPeriod p x => Sys2Proof.Machine.execSpnPwmPeriod p x s
  | .commutation p => Sys2Proof.Machine.execCommutation p s
  | .chopperFeedbackTimeout p => Sys2Proof.Machine.execChopperFeedbackTimeout p s
  | .ipeakFault p => Sys2Proof.Machine.execIpeakFault p s
  | .speedLoop p => Sys2Proof.Machine.execSpeedLoop p s
  | .observeEnd p x => Sys2Proof.Machine.execObserveEnd p x s
  | .brakeEnd p => Sys2Proof.Machine.execBrakeEnd p s
  | .alignEnd p => Sys2Proof.Machine.execAlignEnd p s
  | .lockedRotorTimeout p => Sys2Proof.Machine.execLockedRotorTimeout p s
  | .waitEnd p => Sys2Proof.Machine.execWaitEnd p s
  | .stopNoEventTimeout p => Sys2Proof.Machine.execStopNoEventTimeout p s
  | .brakeIntervalEnd p => Sys2Proof.Machine.execBrakeIntervalEnd p s
  | .observationWindowEnd p x => Sys2Proof.Machine.execObservationWindowEnd p x s
  | .finalBrakeEnd p => Sys2Proof.Machine.execFinalBrakeEnd p s
  | .speedTargetWrite p rpm => Sys2Proof.Machine.execSpeedTargetWrite p rpm s
  | .spinupSlotOpen p => Sys2Proof.Machine.execSpinupSlotOpen p s
  | .carEnable p => Sys2Proof.Machine.execCarEnable p s
  | .carHome p => Sys2Proof.Machine.execCarHome p s
  | .carSeek p => Sys2Proof.Machine.execCarSeek p s
  | .carDirect p => Sys2Proof.Machine.execCarDirect p s
  | .carGear p => Sys2Proof.Machine.execCarGear p s
  | .carStop p => Sys2Proof.Machine.execCarStop p s
  | .carPark p => Sys2Proof.Machine.execCarPark p s
  | .carOff p => Sys2Proof.Machine.execCarOff p s
  | .carClear p => Sys2Proof.Machine.execCarClear p s
  | .carTargetWrite p value => Sys2Proof.Machine.execCarTargetWrite p value s
  | .carPwmPeriod p ia ib => Sys2Proof.Machine.execCarPwmPeriod p ia ib s
  | .carriageLoop p => Sys2Proof.Machine.execCarriageLoop p s
  | .followingErrorFault p => Sys2Proof.Machine.execFollowingErrorFault p s
  | .phaseOvercurrent p => Sys2Proof.Machine.execPhaseOvercurrent p s
  | .encoderError p => Sys2Proof.Machine.execEncoderError p s
  | .indexEdge p => Sys2Proof.Machine.execIndexEdge p s
  | .homingTimeout p => Sys2Proof.Machine.execHomingTimeout p s
  | .calLookup temp => Sys2Proof.Machine.execCalLookup temp s
  | .calStore temp => Sys2Proof.Machine.execCalStore temp s
  | .calOperationDone => Sys2Proof.Machine.execCalOperationDone s
  | .injectionStart p l amp => Sys2Proof.Machine.execInjectionStart p l amp s
  | .injectionDone => Sys2Proof.Machine.execInjectionDone s
  | .opcRun p x => Sys2Proof.Machine.execOpcRun p x s
  | .linkEnable p on => Sys2Proof.Machine.execLinkEnable p on s
  | .linkTrain p => Sys2Proof.Machine.execLinkTrain p s
  | .trainingDone p x => Sys2Proof.Machine.execTrainingDone p x s
  | .upstreamServoSlot p blocks => Sys2Proof.Machine.execUpstreamServoSlot p blocks s
  | .servoLinkFault p => Sys2Proof.Machine.execServoLinkFault p s
  | .statusBlock p copies => Sys2Proof.Machine.execStatusBlock p copies s
  | .snuffBlock p source mask => Sys2Proof.Machine.execSnuffBlock p source mask s
  | .controlRequest p op addr => Sys2Proof.Machine.execControlRequest p op addr s
  | .crsp p seq op status data => Sys2Proof.Machine.execCrsp p seq op status data s
  | .creqTimeout p seq => Sys2Proof.Machine.execCreqTimeout p seq s
  | .cevt p code mask data => Sys2Proof.Machine.execCevt p code mask data s
  | .laneFail p l => Sys2Proof.Machine.execLaneFail p l s
  | .alignSend p => Sys2Proof.Machine.execAlignSend p s
  | .wickPacket p w => Sys2Proof.Machine.execWickPacket p w s
  | .downstreamServoSlot p flips => Sys2Proof.Machine.execDownstreamServoSlot p flips s
  | .functionEnable f => Sys2Proof.Machine.execFunctionEnable f s
  | .functionReady f => Sys2Proof.Machine.execFunctionReady f s
  | .sqDoorbell f q value size => Sys2Proof.Machine.execSqDoorbell f q value size s
  | .cqDoorbell f q value size => Sys2Proof.Machine.execCqDoorbell f q value size s
  | .sqPollExpiry f q => Sys2Proof.Machine.execSqPollExpiry f q s
  | .sqFetch f q entries => Sys2Proof.Machine.execSqFetch f q entries s
  | .sqFetchFailed f q => Sys2Proof.Machine.execSqFetchFailed f q s
  | .commandRecordConsumed count => Sys2Proof.Machine.execCommandRecordConsumed count s
  | .createCq n => Sys2Proof.Machine.execCreateCq n s
  | .createSq n => Sys2Proof.Machine.execCreateSq n s
  | .destroySq n headD => Sys2Proof.Machine.execDestroySq n headD s
  | .destroyCq n => Sys2Proof.Machine.execDestroyCq n s
  | .thawQueue n entries => Sys2Proof.Machine.execThawQueue n entries s
  | .abort n => Sys2Proof.Machine.execAbort n s
  | .quota n => Sys2Proof.Machine.execQuota n s
  | .completionPost n => Sys2Proof.Machine.execCompletionPost n s
  | .hqiAbort n => Sys2Proof.Machine.execHqiAbort n s
  | .interruptTimer f q => Sys2Proof.Machine.execInterruptTimer f q s
  | .flr f => Sys2Proof.Machine.execFlr f s
  | .busMasterDisable f => Sys2Proof.Machine.execBusMasterDisable f s
  | .functionDisable f => Sys2Proof.Machine.execFunctionDisable f s
  | .vfEnableClear => Sys2Proof.Machine.execVfEnableClear s
  | .hotReset => Sys2Proof.Machine.execHotReset s
  | .pcieLinkDown => Sys2Proof.Machine.execPcieLinkDown s
  | .functionResetDone f => Sys2Proof.Machine.execFunctionResetDone f s
  | .hostDataArrival n ch bytes tiles => Sys2Proof.Machine.execHostDataArrival n ch bytes tiles s
  | .hostDmaReadError n => Sys2Proof.Machine.execHostDmaReadError n s
  | .pcieLaneFail l => Sys2Proof.Machine.execPcieLaneFail l s
  | .getLog n => Sys2Proof.Machine.execGetLog n s
  | .eventWait n => Sys2Proof.Machine.execEventWait n s
  | .setPolicy n data => Sys2Proof.Machine.execSetPolicy n data s
  | .grant n => Sys2Proof.Machine.execGrant n s
  | .mount n img => Sys2Proof.Machine.execMount n img s
  | .unmount p => Sys2Proof.Machine.execUnmount p s
  | .packPower p => Sys2Proof.Machine.execPackPower p s
  | .format p => Sys2Proof.Machine.execFormat p s
  | .sanitise p slots => Sys2Proof.Machine.execSanitise p slots s
  | .discardRange p => Sys2Proof.Machine.execDiscardRange p s
  | .fwDownload n data ok => Sys2Proof.Machine.execFwDownload n data ok s
  | .fwActivate n => Sys2Proof.Machine.execFwActivate n s
  | .fwActivateReset => Sys2Proof.Machine.execFwActivateReset s
  | .append n tiles => Sys2Proof.Machine.execAppend n tiles s
  | .place n tiles => Sys2Proof.Machine.execPlace n tiles s
  | .read n => Sys2Proof.Machine.execRead n s
  | .verify n => Sys2Proof.Machine.execVerify n s
  | .compress n => Sys2Proof.Machine.execCompress n s
  | .decompress n => Sys2Proof.Machine.execDecompress n s
  | .patrolRead p n => Sys2Proof.Machine.execPatrolRead p n s
  | .stripeStart p pour layer engines => Sys2Proof.Machine.execStripeStart p pour layer engines s
  | .packRemoved p => Sys2Proof.Machine.execPackRemoved p s
  | .packSeated p => Sys2Proof.Machine.execPackSeated p s
  | .positionEnable p on => Sys2Proof.Machine.execPositionEnable p on s
  | .streamingIdleExpiry p => Sys2Proof.Machine.execStreamingIdleExpiry p s
  | .idleParkExpiry p => Sys2Proof.Machine.execIdleParkExpiry p s
  | .idleSpindownExpiry p => Sys2Proof.Machine.execIdleSpindownExpiry p s
  | .tileOpen t => Sys2Proof.Machine.execTileOpen t s
  | .tileClose t => Sys2Proof.Machine.execTileClose t s
  | .tileFree t => Sys2Proof.Machine.execTileFree t s
  | .tileVerify t upsets => Sys2Proof.Machine.execTileVerify t upsets s
  | .tileUse who t first count upsets => Sys2Proof.Machine.execTileUse who t first count upsets s
  | .bufEnable trained0 trained1 => Sys2Proof.Machine.execBufEnable trained0 trained1 s
  | .bufInit => Sys2Proof.Machine.execBufInit s
  | .bufInitDone => Sys2Proof.Machine.execBufInitDone s
  | .deviceOffline d => Sys2Proof.Machine.execDeviceOffline d s
  | .offlineReached d => Sys2Proof.Machine.execOfflineReached d s
  | .deviceOnline d => Sys2Proof.Machine.execDeviceOnline d s
  | .onlineReached d => Sys2Proof.Machine.execOnlineReached d s
  | .pprStart d hard loc => Sys2Proof.Machine.execPprStart d hard loc s
  | .pprDone ok => Sys2Proof.Machine.execPprDone ok s
  | .vclr => Sys2Proof.Machine.execVclr s
  | .poison => Sys2Proof.Machine.execPoison s
  | .scrub => Sys2Proof.Machine.execScrub s
  | .bufRangeDone => Sys2Proof.Machine.execBufRangeDone s
  | .cchClean all => Sys2Proof.Machine.execCchClean all s
  | .cchInvalidate all => Sys2Proof.Machine.execCchInvalidate all s
  | .cchCleanInv all => Sys2Proof.Machine.execCchCleanInv all s
  | .cchLoad cls => Sys2Proof.Machine.execCchLoad cls s
  | .cchRangeDone => Sys2Proof.Machine.execCchRangeDone s
  | .cchCounterClear => Sys2Proof.Machine.execCchCounterClear s
  | .perfSnapshot counts => Sys2Proof.Machine.execPerfSnapshot counts s
  | .perfClear => Sys2Proof.Machine.execPerfClear s
  | .sampleTrigger c events => Sys2Proof.Machine.execSampleTrigger c events s
  | .sampleRecord c x => Sys2Proof.Machine.execSampleRecord c x s
  | .coreRelease value => Sys2Proof.Machine.execCoreRelease value s
  | .jobSubmit count => Sys2Proof.Machine.execJobSubmit count s
  | .jobStart z => Sys2Proof.Machine.execJobStart z s
  | .jobComplete z => Sys2Proof.Machine.execJobComplete z s
  | .lockstepMismatch z sent => Sys2Proof.Machine.execLockstepMismatch z sent s
  | .contextExpiry c => Sys2Proof.Machine.execContextExpiry c s
  | .xtalLoss => Sys2Proof.Machine.execXtalLoss s
  | .refclkLoss => Sys2Proof.Machine.execRefclkLoss s
  | .x32Loss => Sys2Proof.Machine.execX32Loss s
  | .pllLockLoss n => Sys2Proof.Machine.execPllLockLoss n s
  | .pllLock n => Sys2Proof.Machine.execPllLock n s
  | .enginePower value => Sys2Proof.Machine.execEnginePower value s
  | .engineReady e => Sys2Proof.Machine.execEngineReady e s
  | .compressionClockEnable value => Sys2Proof.Machine.execCompressionClockEnable value s
  | .safeReleasePosition p => Sys2Proof.Machine.execSafeReleasePosition p s
  | .safeReleaseLaser => Sys2Proof.Machine.execSafeReleaseLaser s
  | .powerOnReset => Sys2Proof.Machine.execPowerOnReset s
  | .mainSupplyFault => Sys2Proof.Machine.execMainSupplyFault s
  | .resetPin => Sys2Proof.Machine.execResetPin s
  | .perstAssert => Sys2Proof.Machine.execPerstAssert s
  | .softwareSystemReset key => Sys2Proof.Machine.execSoftwareSystemReset key s
  | .softwareCoreReset key => Sys2Proof.Machine.execSoftwareCoreReset key s
  | .debugResetRequest sys => Sys2Proof.Machine.execDebugResetRequest sys s
  | .powerFail => Sys2Proof.Machine.execPowerFail s
  | .emberCommitDone => Sys2Proof.Machine.execEmberCommitDone s
  | .powerReturn => Sys2Proof.Machine.execPowerReturn s
  | .resetRelease lvl cycles => Sys2Proof.Machine.execResetRelease lvl cycles s
  | .c0Release => Sys2Proof.Machine.execC0Release s
  | .bootOk fuses => Sys2Proof.Machine.execBootOk fuses s
  | .bootDeadlineExpiry => Sys2Proof.Machine.execBootDeadlineExpiry s
  | .watchdogEnable period => Sys2Proof.Machine.execWatchdogEnable period s
  | .watchdogKick => Sys2Proof.Machine.execWatchdogKick s
  | .watchdogExpiry => Sys2Proof.Machine.execWatchdogExpiry s
  | .blockReset position index => Sys2Proof.Machine.execBlockReset position index s
  | .blockResetIdle flushed => Sys2Proof.Machine.execBlockResetIdle flushed s
  | .blockResetTimeout flushed => Sys2Proof.Machine.execBlockResetTimeout flushed s
  | .blockRestartDone => Sys2Proof.Machine.execBlockRestartDone s
  | .keyNew => Sys2Proof.Machine.execKeyNew s
  | .keyUnwrap => Sys2Proof.Machine.execKeyUnwrap s
  | .keyDrop => Sys2Proof.Machine.execKeyDrop s
  | .keyDestroy => Sys2Proof.Machine.execKeyDestroy s
  | .escrowEnroll => Sys2Proof.Machine.execEscrowEnroll s
  | .dbgChal => Sys2Proof.Machine.execDbgChal s
  | .dbgUnlock => Sys2Proof.Machine.execDbgUnlock s
  | .trng => Sys2Proof.Machine.execTrng s
  | .mailboxDone => Sys2Proof.Machine.execMailboxDone s
  | .nonceExpiry => Sys2Proof.Machine.execNonceExpiry s
  | .trngHealthFail => Sys2Proof.Machine.execTrngHealthFail s
  | .mantleFault => Sys2Proof.Machine.execMantleFault s
  | .spdmRequest msg => Sys2Proof.Machine.execSpdmRequest msg s
  | .supplyOutOfRange n => Sys2Proof.Machine.execSupplyOutOfRange n s
  | .ppsEdge dt => Sys2Proof.Machine.execPpsEdge dt s
  | .ppsHoldover => Sys2Proof.Machine.execPpsHoldover s
  | .timeSetsec sec => Sys2Proof.Machine.execTimeSetsec sec s
  | .shockRelease p => Sys2Proof.Machine.execShockRelease p s
  | .supplyInRange n => Sys2Proof.Machine.execSupplyInRange n s
  | .encoderEdge p chB level => Sys2Proof.Machine.execEncoderEdge p chB level s
  | .trstAssert => Sys2Proof.Machine.execTrstAssert s
  | .jtagTestMode test extest => Sys2Proof.Machine.execJtagTestMode test extest s
  | .thermTjCrossing t => Sys2Proof.Machine.execThermTjCrossing t s
  | .trngHealthRecovery => Sys2Proof.Machine.execTrngHealthRecovery s
  | .retrainComplete d => Sys2Proof.Machine.execRetrainComplete d s
  | .alignReceived p l => Sys2Proof.Machine.execAlignReceived p l s
  | .perstRelease => Sys2Proof.Machine.execPerstRelease s

end Sys2Proof.Machine
end

