-- ==== Sys2Proof/Safety.lean ====
section
/-! DEFINITION. What a safe state is, and the words that statements use for what a command leaves alone. -/

namespace Sys2Proof.Machine

/-- The snuff latch and the link's suspension at position p follow what they depend on: a live source has set the latch and
stands in SEEN (R83, R166), no write gate is open while the latch is set (R83, R85), the link's transmitter has followed the
latch (R255), and IGL_STAT.SUSPEND shows whether the channels are suspended (R264). -/
def SettledAt (s : State) (p : PosIx) : Prop :=
  (s.rd (R.srvSnuffLive p) ≠ 0 → s.rd (R.srvSnuffLatch p) = 1 ∧
    orBits (s.rd (R.srvSnuffSeen p)) (s.rd (R.srvSnuffLive p)) % 2 ^ 10 = s.rd (R.srvSnuffSeen p)) ∧
  (s.rd (R.srvSnuffLatch p) = 1 → s.pos[p].gates = 0) ∧ s.pos[p].igl.tx.latched = s.bit (R.srvSnuffLatch p) ∧
  s.rd (R.iglStatSuspend p) = if suspended s p then 1 else 0

/-- A safe state: this holds at every position. -/
def Settled (s : State) : Prop := ∀ p : PosIx, SettledAt s p

/-- The fields of position p that the snuff latch's logic and the link's suspension drive. -/
def latchFlds (p : PosIx) : List Fld := [R.srvSnuffLatch p, R.srvSnuffSeen p, R.iglStatSuspend p]

/-- A field as the register tables give it: it shares the place of none of those fields, unless it is that field. -/
def Fld.Proper (f : Fld) : Prop := ∀ p : PosIx, ∀ g ∈ latchFlds p, f.key = g.key → f = g

/-- Every register field keeps its value but the listed ones. -/
def KeepsRegs (but : List Fld) (s t : State) : Prop :=
  ∀ f : Fld, f.Proper → (∀ g ∈ but, f.key ≠ g.key) → t.rd f = s.rd f

/-- Every byte of SRAM, of the Ember store and of the GDDR7 window keeps its value. -/
def KeepsMem (s t : State) : Prop :=
  ∀ a, Mem.get t.sram a = Mem.get s.sram a ∧ Mem.get t.ember a = Mem.get s.ember a ∧ Mem.get t.gddr a = Mem.get s.gddr a

/-- The pieces of the state beside the registers, for what a command leaves alone. -/
inductive Piece where
  | part | sram | ember | gddr | marks | resp | halted | waitq | hostOut | freeCtr | buf | cch | perf | flt | tim | pins | pos (p : PosIx)
  | spares | policy | eng (e : EngIx) | pack (p : PosIx) | lists | stripes | journal | hqi | fn (f : FnIx) | cal | cmp
  | mtl | lamp | pending
  deriving DecidableEq, Repr

/-- A piece is the same in two states. -/
def Piece.Same (x : Piece) (s t : State) : Prop :=
  match x with
  | .part => t.part = s.part | .sram => t.sram = s.sram | .ember => t.ember = s.ember | .gddr => t.gddr = s.gddr
  | .marks => t.marks = s.marks | .resp => t.resp = s.resp | .halted => t.halted = s.halted
  | .waitq => t.waitq = s.waitq | .hostOut => t.hostOut = s.hostOut
  | .freeCtr => t.freeCtr = s.freeCtr | .buf => t.buf = s.buf | .cch => t.cch = s.cch | .perf => t.perf = s.perf
  | .flt => t.flt = s.flt | .tim => t.tim = s.tim | .pins => t.pins = s.pins | .pos p => t.pos[p] = s.pos[p]
  | .spares => t.spares = s.spares | .policy => t.policy = s.policy | .eng e => t.eng[e] = s.eng[e]
  | .pack p => t.packs[p] = s.packs[p] | .lists => t.lists = s.lists | .stripes => t.stripes = s.stripes
  | .journal => t.journal = s.journal | .hqi => t.hqi = s.hqi | .fn f => t.fns[f] = s.fns[f] | .cal => t.cal = s.cal
  | .cmp => t.cmp = s.cmp | .mtl => t.mtl = s.mtl | .lamp => t.lamp = s.lamp | .pending => t.pending = s.pending

/-- The frame of a command: where it answers a next state from a settled one, every piece of the state but the listed
ones, and every register field but the listed ones, is as before. -/
def Frame (c : Instr) (pieces : List Piece) (flds : List Fld) : Prop :=
  ∀ s t : State, Settled s → exec c s = .next t → (∀ x, x ∉ pieces → x.Same s t) ∧ KeepsRegs flds s t

/-- Firmware has taken every consumed command (R308). -/
def AllTaken (s : State) : Prop := s.hqi.tags.filter unadmitted = []

/-- The completion of tag n stands in its context with a class and a reason (R288), where contexts lie in SRAM. -/
def Ended (u : State) (n cls reason : Nat) : Prop :=
  ∃ v, tagOf u n = some v ∧ v.done = true ∧
    (sramBase ≤ ctxAddr u n → ctxAddr u n + 32 ≤ sramBase + sramSize →
      leAt (ctxBody u n) 24 1 = cls ∧ leAt (ctxBody u n) 22 2 = reason)

/-- The fields that an event record sets (R476). -/
def logFlds : List Fld := [R.fltStatNew, R.fltSeqSeq, R.fltLastPos, R.fltLastSource, R.fltLastReason]

/-- The fields of a block whose register gives a command when it is written, or whose write is followed by another effect: each
command has a row of its own. -/
def commandFlds : Home → List Fld
  | .sys 0 => [R.lampSwrstSys, R.lampSwrstCore, R.lampBootokOk, R.lampWdtEn, R.lampWdkickKick, R.lampBrstGo, R.lampCrelRel]
  | .sys 1 => R.clkZenEn :: (List.range 15).map fun n => R.clkPllForce n
  | .sys 2 => [R.pwrEngOn, R.pwrSafeclrPos, R.pwrSafeclrLaser]
  | .sys 3 => [R.timeSetsecSec]
  | .sys 5 => [R.hqiPostGo, R.hqiAbortGo, R.hqiCciCount, R.hqiCqselFn]
  | .sys 6 => [R.bufCtrlEn, R.bufInitGo, R.bufTcmdGo, R.bufRcmdGo, R.bufPprGo]
  | .sys 7 => [R.cchCtrlCclr, R.cchRcmdGo]
  | .sys 8 => [R.perfSnapGo, R.perfCtrlClr] ++ (List.range 6).map fun c => R.perfSmpctlEn c
  | .sys 9 => [R.cmpJpiCount]
  | .sys 10 => [R.mtlCmdGo]
  | .sys 11 => [R.calLctrlStore, R.calLctrlGo, R.calInjEn]
  | .sys _ => []
  | .eng e => [R.castCtrlAbort e, R.castCtrlStart e, R.castCtrlEn e, R.rdCtrlAbort e, R.rdCtrlStart e, R.mrgCtrlClr e]
  | .srv p => [R.srvSnuffClr p, R.srvJmpgoMask p, R.srvCtrlEn p, R.posCfgEn p] ++
      ((List.range 8).flatMap fun f => [R.srvSpFocus p f, R.jmpCtrlGo p f, R.jmpCtrlAbort p f]) ++
      (List.range 24).flatMap fun l => [R.loopCtrlMode p l, R.loopCtrlGainNow p l]
  | .spn p => [R.spnSpdTarget p, R.spnCmdOp p]
  | .car p => [R.carTgtTgt p, R.carCmdOp p]
  | .igl p => [R.iglCtrlEn p, R.iglCtrlTrain p, R.iglCcmdGo p]
  | .fn f => [R.fnCtlEn f]

/-- Whether a write to the register at an address of block h only sets its fields. -/
def plainRegister (h : Home) (a : Nat) : Bool :=
  (commandFlds h).all (fun f => f.addr != a) && match h with
    | .srv p => (coefAt p a).isNone
    | _ => true

/-- The commands that touch no byte of SRAM, of the Ember store or of the GDDR7 window. -/
def leavesMemory : Instr → Bool
  | .rcFieldRead .. | .deviceFailed .. | .selfRefreshEntry | .rankIdleExpiry .. | .castStart ..
  | .pourSlotStart .. | .pourStreamIdle .. | .ledgerAgeExpiry .. | .ledgerPour .. | .ledgerPourVerified ..
  | .layerFirstAccess .. | .snuffClear .. | .readAbort .. | .marginClear .. | .srvEnable .. | .spareLeave ..
  | .loopModeWrite .. | .loopGainNow .. | .loopCoefWrite .. | .setpointWrite .. | .jumpGo .. | .srvJmpgo ..
  | .jumpAbort .. | .jumpTimeout .. | .centrePublish .. | .spnStart .. | .spnStopRegen .. | .spnStopShort ..
  | .spnCoast .. | .spnPwmPeriod .. | .commutation .. | .chopperFeedbackTimeout .. | .speedLoop .. | .observeEnd ..
  | .alignEnd .. | .waitEnd .. | .stopNoEventTimeout .. | .brakeIntervalEnd .. | .observationWindowEnd ..
  | .speedTargetWrite .. | .spinupSlotOpen .. | .carEnable .. | .carHome .. | .carSeek .. | .carDirect ..
  | .carGear .. | .carStop .. | .carPark .. | .carOff .. | .carClear .. | .carTargetWrite .. | .carPwmPeriod ..
  | .followingErrorFault .. | .phaseOvercurrent .. | .encoderError .. | .indexEdge ..
  | .calLookup .. | .calStore .. | .injectionStart .. | .linkEnable .. | .upstreamServoSlot ..
  | .controlRequest .. | .crsp .. | .creqTimeout .. | .cevt .. | .alignSend .. | .wickPacket ..
  | .downstreamServoSlot .. | .functionReady .. | .interruptTimer .. | .patrolRead .. | .packSeated ..
  | .positionEnable .. | .streamingIdleExpiry .. | .idleParkExpiry .. | .bufEnable .. | .bufInitDone
  | .deviceOffline .. | .offlineReached .. | .pprStart .. | .pprDone .. | .scrub | .bufRangeDone | .cchInvalidate ..
  | .cchCounterClear | .perfSnapshot .. | .perfClear | .sampleTrigger .. | .coreRelease .. | .jobSubmit ..
  | .contextExpiry .. | .xtalLoss | .x32Loss | .pllLock .. | .enginePower .. | .engineReady ..
  | .compressionClockEnable .. | .safeReleasePosition .. | .safeReleaseLaser | .bootOk .. | .watchdogEnable ..
  | .watchdogKick | .blockReset .. | .blockRestartDone | .keyNew | .keyUnwrap | .keyDrop | .keyDestroy | .escrowEnroll
  | .dbgChal | .dbgUnlock | .trng | .nonceExpiry | .trngHealthFail | .spdmRequest .. | .ppsEdge .. | .ppsHoldover
  | .timeSetsec .. | .shockRelease .. | .supplyInRange .. | .encoderEdge .. | .trstAssert | .jtagTestMode ..
  | .thermTjCrossing .. | .trngHealthRecovery | .retrainComplete .. | .alignReceived .. | .perstRelease
  | .castAbort .. | .shockFall .. | .samplePacket .. | .servoFail .. | .focusLost .. | .linkTrain .. | .servoLinkFault ..
  | .snuffBlock .. | .pllLockLoss .. | .blockResetIdle .. | .blockResetTimeout .. | .supplyOutOfRange .. => true
  | _ => false

/-- The commands of servo, spindle, carriage and link that act at one position alone. -/
def positionOf : Instr → Option PosIx
  | .snuffClear p | .srvEnable p _ | .spareLeave p | .loopModeWrite p _ _ | .loopGainNow p _
  | .loopCoefWrite p _ _ _ _ _ | .setpointWrite p _ _ | .jumpGo p _ | .srvJmpgo p _ | .jumpAbort p _
  | .jumpTimeout p _ | .centrePublish p | .spnStart p | .spnStopRegen p | .spnStopShort p | .spnCoast p
  | .spnPwmPeriod p _ | .commutation p | .chopperFeedbackTimeout p | .speedLoop p | .observeEnd p _ | .alignEnd p
  | .waitEnd p | .stopNoEventTimeout p | .brakeIntervalEnd p | .observationWindowEnd p _ | .speedTargetWrite p _
  | .spinupSlotOpen p | .carEnable p | .carHome p | .carSeek p | .carDirect p | .carGear p | .carStop p | .carPark p
  | .carOff p | .carClear p | .carTargetWrite p _ | .carPwmPeriod p _ _ | .carriageLoop p | .followingErrorFault p
  | .phaseOvercurrent p | .encoderError p | .indexEdge p | .linkEnable p _ | .upstreamServoSlot p _
  | .controlRequest p _ _ | .crsp p _ _ _ _ | .creqTimeout p _ | .cevt p _ _ _ | .alignSend p
  | .downstreamServoSlot p _ | .positionEnable p _ | .idleParkExpiry p | .safeReleasePosition p | .shockRelease p
  | .encoderEdge p _ _ | .alignReceived p _ | .pourStreamIdle p | .ledgerAgeExpiry p | .rankIdleExpiry p _ => some p
  | _ => none

/-- A register field of position q's block (Table 1.4). -/
def Fld.atPosition (q : PosIx) (f : Fld) : Prop := posBase q * 64 ≤ f.key ∧ f.key < (posBase q + 0x100000) * 64

/-- The three memories keep their canonical form: addresses strictly rising, no byte listed that an unlisted address reads
as. -/
def MemWf (s : State) : Prop :=
  Mem.wf nonZero s.sram = true ∧ Mem.wf nonZero s.ember = true ∧ Mem.wf (fun _ => true) s.gddr = true

end Sys2Proof.Machine
end

