-- ==== Sys2Proof/Certificates/Slice0/Obligations.lean ====
section
/-! DEFINITION. The statements for the provers. A statement that names several commands holds for each of them. -/

open Sys2Proof Sys2Proof.Machine

/-- CAST_CTRL.START (R71) and ABORT (R82, Table 3.14). -/
def Obligations.EngineArmsAndAborts : Prop := ∀ (s : State) (e : EngIx),
  engOffered s e = true → engReady s e = true →
  (let a := s.rd (R.castDescAddr e) * 128
   s.rd (R.castStatBusy e) ≠ 1 → s.rd (R.rdStatBusy e) ≠ 1 → s.eng[e].mode = true → sramBase ≤ a → a + 128 ≤ sramBase + sramSize →
   (∀ i < 16, wordStatAt s (a + 8 * i) ≠ .ue) →
   ∃ t, exec (.castStart e) s = .next t ∧ t.rd (R.castStatBusy e) = 1 ∧ t.eng[e].armed = true ∧
     t.eng[e].desc = s.sramRead a 128 ∧ t.rd (R.castPscaleTarget e) = leAt (s.sramRead a 128) 12 2 % 4096) ∧
  (∀ (p : PosIx) (f : Fin 8), s.eng[e].home = some (p, f) → s.rd (R.castStatBusy e) = 1 →
    ∃ t, exec (.castAbort e) s = .next t ∧ t.rd (R.castStatVerdict e) = 3 ∧ t.rd (R.castStatDone e) = 1 ∧
      t.rd (R.castStatBusy e) = 0 ∧ t.eng[e].armed = false ∧ t.eng[e].gate = false ∧ t.rd (R.srvSnuffLatch p) = 1 ∧
      bitAt (t.rd (R.srvSnuffLive p)) 9 = true ∧ t.pos[p].gates = 0) ∧
  (s.eng[e].home = none → s.rd (R.castStatBusy e) = 1 → ∃ t, exec (.castAbort e) s = .next t ∧
    t.rd (R.castStatVerdict e) = 3 ∧ t.rd (R.castStatDone e) = 1 ∧ t.rd (R.castStatBusy e) = 0 ∧
    t.eng[e].armed = false ∧ t.eng[e].gate = false ∧ KeepsMem s t) ∧
  (s.rd (R.castStatBusy e) ≠ 1 → ∃ t, exec (.castAbort e) s = .next t ∧ KeepsMem s t)

/-- The slot of an armed engine (R72). `w`: the phases of the wobble over the eighth and the symbol count of the slot's start. -/
def Obligations.GateOpensAtSlot : Prop := ∀ (s : State) (e : EngIx) (p : PosIx) (f : Fin 8) (w : SlotStart),
  Settled s → engOffered s e = true → s.eng[e].armed = true → s.eng[e].home = some (p, f) →
  let d := s.eng[e].desc
  let word := wobbleAt (wauNibbles w.wobble) (dLayer d) (dSurf d) (dSlot d) (startEighth d)
  let rest := s.eng[e].uploads = 0 ∧ (s.surfAt p f).jump = none ∧ pourAllowed s p e d = true
  (word = true → s.rd (R.srvSnuffLatch p) ≠ 1 → rest →
    ∃ t, exec (.pourSlotStart e w) s = .next t ∧ t.pos[p].gates = setBit s.pos[p].gates f ∧ t.eng[e].gate = true ∧
      t.eng[e].armed = false ∧ t.rd (R.castStatSync e) = s.rd (R.castStatSync e)) ∧
  (word = false ∨ s.rd (R.srvSnuffLatch p) = 1 ∨ ¬ rest →
    ∃ t, exec (.pourSlotStart e w) s = .next t ∧ t.pos[p].gates = s.pos[p].gates ∧ t.eng[e].gate = s.eng[e].gate ∧
      t.eng[e].armed = false ∧ t.rd (R.castStatSync e) = 1 ∧ t.rd (R.castStatBusy e) = 0)

/-- The frame verdict (R78) and the rank verdict (R79, R80). -/
def Obligations.FrameAndRankVerdict : Prop := ∀ (s : State) (e : EngIx) (p : PosIx) (f : Fin 8) (x : Poured) (l : List Poured),
  engOffered s e = true → s.eng[e].home = some (p, f) → s.eng[e].poured = x :: l →
  let u := onPoured e (finishSlot e (dLedger x.desc) 0) s
  let pass := !(verifyFails u e x (verifySlot u e p x.time (pouredSlot u e))).any id
  (∃ t, exec (.frameVerdict e false) s = .next t ∧ t.rd (R.castStatDone e) = 1 ∧ t.eng[e].poured = l ∧
    t.rd (R.castStatVerdict e) = (if pass then 1 else 2)) ∧
  (∃ t, exec (.frameVerdict e true) s = .next t ∧ t.rd (R.castStatDone e) = 1 ∧ t.eng[e].poured = l ∧
    t.rd (R.castStatVerdict e) = 3 ∧ t.rd (R.srvSnuffLatch p) = 1 ∧ bitAt (t.rd (R.srvSnuffLive p)) 9 = true ∧
    t.pos[p].gates = 0) ∧
  (∀ r : Rank, dIsRank x.desc = true → rankOf s p (dRank x.desc) = some r → r.phase = .awaiting → setBit r.posted f = 255 →
    setBit r.passed f = 255 → bitAt r.passed f = false → castFailedAt s p (dRank x.desc / 128) = false → s.pins.pwrFail = false →
    fwUp s = true → ∃ t, exec (.frameVerdict e false) s = .next t ∧
      (pass = true → ((rankOf t p (dRank x.desc)).map (·.phase)) = some .cast ∧
        inPending t p (fun b => match b with | .rankCast n .. => n == dRank x.desc | _ => false) = true) ∧
      (pass = false → ((rankOf t p (dRank x.desc)).map (·.phase)) = some .failed ∨
        ((rankOf t p (dRank x.desc)).map (·.phase)) = some .assembled))

/-- Ranks on their way to the medium (R67, R69) and the riser visit (R87). -/
def Obligations.RanksBecomeReady : Prop := ∀ (s : State) (p : PosIx) (n : Nat), posOffered s p = true →
  (∀ r : Rank, rankOf s p n = some r → r.begun = true →
    ∃ t, exec (.rankIdleExpiry p n) s = .next t ∧ ((rankOf t p n).map (·.idle)) = some true ∧ KeepsMem s t ∧
      (r.phase = .filling → 0 < r.assigned → rankStaged r = true → ((rankOf t p n).map (·.phase)) = some .ready ∧
        ((rankOf t p n).map (·.assigned)) = some rankCw)) ∧
  (∀ (r : Rank) (key : List Byte), rankOf s p n = some r → Assoc.get p s.mtl.keys = some key → r.phase = .ready →
    assembledBefore s p n = true → s.pins.pwrFail = false → fwUp s = true →
    (∃ t, exec (.rankAssembly p n []) s = .next t ∧ ((rankOf t p n).map (·.phase)) = some .assembled ∧
      ((rankOf t p n).map (·.cipher)) = some (rankCipher key n (gatherFrames p r 6 s).1)) ∧
    (∀ mism : List (Fin 8), mism ≠ [] → r.force = false → ∃ t, exec (.rankAssembly p n mism) s = .next t ∧
      ((rankOf t p n).map (·.phase)) = some .failed ∧ ((rankOf t p n).map (·.reason)) = some 1)) ∧
  (∀ r : Rank, rankOf s p n = some r → Assoc.get p s.mtl.keys = none → r.phase = .ready → assembledBefore s p n = true →
    s.pins.pwrFail = false → fwUp s = true → ∃ t, exec (.rankAssembly p n []) s = .next t ∧
      ((rankOf t p n).map (·.phase)) = some .ready) ∧
  (∀ (m : Nat) (c : Cast), castOf s p m = some c → c.filled = true → c.failed = none → 128 ≤ c.ranks.length →
    (∀ r ∈ c.ranks, r.phase = .cast ∨ r.phase = .failed ∨ r.phase = .awaiting) →
    ∃ t, exec (.riserVisit p m) s = .next t ∧ ((castOf t p m).map (·.visit)) = some true ∧
      (s.hqi.tags = [] → KeepsMem s t))

/-- Release of a data tile (R62), the commit of a journal entry (R80, R91), and the end of the pour stream (R77). -/
def Obligations.TilesAndJournal : Prop := ∀ s : State,
  (∀ (p : PosIx) (n : Nat) (k : Fin 6) (m : Nat), posOffered s p = true → releasable s p n k = some m →
    sramBase ≤ sealAddr s m ∧ sealAddr s m + 16 ≤ sramBase + sramSize →
    ∃ t, exec (.tileRelease p n k) s = .next t ∧ (sealGet t m).state = tileFree ∧ (sealGet t m).use = 0) ∧
  (∀ (e : JEntry) (l : List JEntry), s.journal.pend = e :: l →
    ∃ t, exec .journalCommit s = .next t ∧ t.journal.pend = l ∧ t.journal.next = s.journal.next ∧
      t.journal.entries = (s.journal.entries ++ [e]).filter (fun x => !discards e x) ∧ (s.hqi.tags = [] → KeepsMem s t)) ∧
  (∀ p : PosIx, posOffered s p = true → ∃ t, exec (.pourStreamIdle p) s = .next t ∧ t.packs[p].stream = none ∧ KeepsMem s t)

/-- Ledger pours (R93) and their verdict (R94). -/
def Obligations.LedgerPours : Prop := ∀ (s : State) (p : PosIx), posOffered s p = true →
  (s.packs[p].lq ≠ [] → ∃ t, exec (.ledgerAgeExpiry p) s = .next t ∧ t.packs[p].flushDue = true ∧ KeepsMem s t) ∧
  (s.packs[p].lpour = none → ledgerDue s p = true → s.pins.pwrFail = false → s.packs[p].roMount = false →
    s.packs[p].status ≠ .none → s.packs[p].seg + segCount s.packs[p].lq ≤ ledgerSegs →
    ∃ t, exec (.ledgerPour p) s = .next t ∧ t.packs[p].lpour =
      some { recs := s.packs[p].lq, seg := s.packs[p].seg, nseg := segCount s.packs[p].lq, ok0 := 0, ok1 := 0,
             reached := s.packs[p].seg } ∧ t.packs[p].flushDue = false ∧ KeepsMem s t) ∧
  (∀ l : LPour, s.packs[p].lpour = some l → l.nseg ≤ l.ok0 → l.nseg ≤ l.ok1 →
    ∃ t, exec (.ledgerPourVerified p) s = .next t ∧ t.packs[p].lpour = none ∧
      t.packs[p].ledger = s.packs[p].ledger ++ l.recs ∧ t.packs[p].seg = l.seg + l.nseg ∧
      inPending t p (fun b => b == .ledgerFlushed (some (((s.packs[p].ledger ++ l.recs).map (·.seq)).foldl max 0))) = true ∧
      KeepsMem s t)

/-- The snuff latch (R83, R166, R167), the shock inputs (R82) and the supply monitors (R475). -/
def Obligations.SnuffClosesGates : Prop := ∀ s : State,
  (∀ p : PosIx, posOffered s p = true →
    (∃ t, exec (.shockFall p) s = .next t ∧ t.rd (R.srvSnuffLatch p) = 1 ∧ bitAt (t.rd (R.srvSnuffLive p)) 2 = true ∧
      bitAt (t.rd (R.srvSnuffSeen p)) 2 = true ∧ t.pos[p].gates = 0 ∧
      ∀ (e : EngIx) (f : Fin 8), s.eng[e].gate = true → s.eng[e].home = some (p, f) →
        t.eng[e].gate = false ∧ t.rd (R.castStatVerdict e) = 3 ∧ t.rd (R.castStatDone e) = 1 ∧ t.rd (R.castStatBusy e) = 0) ∧
    (Settled s → ∃ t, exec (.shockRelease p) s = .next t ∧ bitAt (t.rd (R.srvSnuffLive p)) 2 = false ∧
      t.rd (R.srvSnuffLatch p) = s.rd (R.srvSnuffLatch p) ∧ KeepsMem s t) ∧
    (s.rd (R.srvSnuffLive p) = 0 → ∃ t, exec (.snuffClear p) s = .next t ∧ t.rd (R.srvSnuffLatch p) = 0 ∧
      t.rd (R.srvSnuffSeen p) = 0 ∧ KeepsMem s t) ∧
    (Settled s → s.rd (R.srvSnuffLive p) ≠ 0 → ∃ t, exec (.snuffClear p) s = .next t ∧ t.rd (R.srvSnuffLatch p) = 1 ∧
      t.rd (R.srvSnuffSeen p) = s.rd (R.srvSnuffSeen p))) ∧
  (∀ n : Fin 7, ∃ t, exec (.supplyOutOfRange n) s = .next t ∧ bitAt (t.rd R.fltVmonOut) n = true ∧
    t.rd R.fltLastReason = 0x0F02 ∧ ∀ p : PosIx, posOffered s p = true → t.rd (R.srvSnuffLatch p) = 1 ∧
      bitAt (t.rd (R.srvSnuffLive p)) 7 = true ∧ t.pos[p].gates = 0) ∧
  (∀ n : Fin 7, ∃ t, exec (.supplyInRange n) s = .next t ∧ bitAt (t.rd R.fltVmonOut) n = false ∧
    (t.rd R.fltVmonOut = 0 → s.pins.pwrFail = false → ∀ p : PosIx, posOffered s p = true →
      bitAt (t.rd (R.srvSnuffLive p)) 7 = false))

/-- The tick grid (R142, R476) and TIME (R480, R481). -/
def Obligations.TickAndTime : Prop := ∀ s : State,
  (∀ (faults : List LaneFault) (emb : Nat), ∃ t, exec (.servoTick faults emb) s = .next t ∧ t.flt.pend = [] ∧
    t.rd R.pwrRtcCount = (s.rd R.pwrRtcCount + emb) % 2 ^ R.pwrRtcCount.w ∧
    (s.rd (R.clkPllLock 5) = 1 → ∀ p : PosIx, posOffered s p = true →
      t.rd (R.srvTickTick p) = (s.rd (R.srvTickTick 0) + 1) % 2 ^ 64) ∧
    (s.rd (R.clkPllLock 5) ≠ 1 → ∀ p : PosIx, t.rd (R.srvTickTick p) = s.rd (R.srvTickTick p))) ∧
  (∀ (dt l : Nat), s.tim.lastEdge = some l → (s.tim.local_ + dt < l + 999900000 ∨ l + 1000100000 < s.tim.local_ + dt) →
    ∃ t, exec (.ppsEdge dt) s = .next t ∧ t.rd R.timePpsRej = satNat R.timePpsRej.w (s.rd R.timePpsRej + 1) ∧
      t.tim = s.tim ∧ t.rd R.timeNowNs = s.rd R.timeNowNs ∧ KeepsMem s t) ∧
  (∀ dt : Nat, s.tim.lastEdge = none → s.tim.acquire = true → s.tim.setSec = none → dt ≤ s.tim.hold →
    let r := s.rd R.timeNowNs % 1000000000
    ∃ t, exec (.ppsEdge dt) s = .next t ∧ t.rd R.timeStatUnset = 0 ∧ t.rd R.timeStatHoldover = 0 ∧
      t.rd R.timePpscapNs = s.rd R.timeNowNs % 2 ^ 64 ∧
      (500000000 ≤ r → t.rd R.timeNowNs = (s.rd R.timeNowNs + (1000000000 - r)) % 2 ^ 64) ∧
      (r < 500000000 → t.rd R.timeNowNs = s.rd R.timeNowNs ∧ t.tim.hold = s.tim.hold + r)) ∧
  (s.rd R.timeStatHoldover ≠ 1 → ∃ t, exec .ppsHoldover s = .next t ∧ t.rd R.timeStatHoldover = 1 ∧
    t.rd R.fltLastReason = 0x0F07 ∧ t.rd R.timeTrimTrim = s.rd R.timeTrimTrim ∧ KeepsMem s t) ∧
  (∀ sec : Nat, sec < 2 ^ 34 → ∃ t, exec (.timeSetsec sec) s = .next t ∧ t.tim.setSec = some sec ∧ t.tim.acquire = true ∧
    t.rd R.timeNowNs = s.rd R.timeNowNs ∧ KeepsMem s t)

/-- RD_CTRL.START (R128), the slot (R104), the results (R118), ABORT (R129) and the margin counters (R137). -/
def Obligations.ReadStartsAndEnds : Prop := ∀ (s : State) (e : EngIx), engOffered s e = true →
  (let a := s.rd (R.rdDescAddr e) * 128
   let d := s.sramRead a 128
   engReady s e = true → s.rd (R.castCtrlEn e) ≠ 1 → s.eng[e].mode = false → s.rd (R.castStatBusy e) ≠ 1 →
   s.rd (R.rdStatBusy e) ≠ 1 →
   sramBase ≤ a → a + 128 ≤ sramBase + sramSize → (∀ i < 16, wordStatAt s (a + 8 * i) ≠ .ue) →
   (leAt d 32 8 ≠ 0 ∨ s.eng[e].last = none ∨ s.eng[e].last = some (readPlace s e d)) → leAt d 48 2 = 0 → rStep d ≠ 1 → rStep d ≠ 2 →
   ∃ t, exec (.readStart e) s = .next t ∧ t.rd (R.rdStatBusy e) = 1 ∧ t.eng[e].rdesc = d ∧ t.eng[e].slot.on = false ∧
     t.eng[e].slag = [] ∧ KeepsMem s t) ∧
  (engReady s e = true → (s.rd (R.castCtrlEn e) = 1 ∨ s.eng[e].mode = true ∨ s.rd (R.castStatBusy e) = 1 ∨ s.rd (R.rdStatBusy e) = 1) →
   ∃ t, exec (.readStart e) s = .next t ∧ t.rd (R.rdStatErr e) = 1 ∧ t.eng[e] = s.eng[e] ∧ KeepsMem s t) ∧
  (∀ (w : List Nat) (symcnt : Nat), s.rd (R.rdStatBusy e) = 1 → s.eng[e].slot.on = false →
   rStep s.eng[e].rdesc ≠ 5 →
   let d := s.eng[e].rdesc
   let r := wauNibbles w
   (wobbleAt r (dLayer d) (dSurf d) (dSlot d) 0 = true → leAt d 32 8 = 0 →
     ∃ t, exec (.readSlotStart e w symcnt) s = .next t ∧ t.eng[e].slot.on = true ∧ t.eng[e].slot.base = symcnt % 2 ^ 32 ∧
       t.rd (R.rdStatBusy e) = 1 ∧ KeepsMem s t) ∧
   (wobbleAt r (dLayer d) (dSurf d) (dSlot d) 0 = false → wobbleDecodes r = true →
     ∃ t, exec (.readSlotStart e w symcnt) s = .next t ∧ t.rd (R.rdStatResult e) = 6 ∧ t.rd (R.rdStatDone e) = 1 ∧
       t.rd (R.rdStatBusy e) = 0 ∧ KeepsMem s t)) ∧
  (∀ (mism : List (Fin 16)) (upsets : List Upset) (err : Option CacheError), s.rd (R.rdStatBusy e) = 1 →
   s.eng[e].slot.on = true → rBlank s.eng[e].rdesc = false →
   (laneUnkeyed s e = true → ∃ t, exec (.readResultPost e mism upsets err) s = .next t ∧ t.rd (R.rdStatResult e) = 7 ∧
     t.rd (R.rdStatDone e) = 1 ∧ t.rd (R.rdStatBusy e) = 0 ∧ ∀ c : Fin 16, t.rd (R.rdCwResult e c) = s.rd (R.rdCwResult e c)) ∧
   (laneUnkeyed s e = false →
   ∃ t, exec (.readResultPost e mism upsets err) s = .next t ∧ t.rd (R.rdStatDone e) = 1 ∧ t.rd (R.rdStatBusy e) = 0 ∧
     t.eng[e].slot.on = false ∧ (rStep s.eng[e].rdesc = 0 → t.rd (R.rdStatResult e) =
       (if ∀ c : Fin 16, bitAt (leAt s.eng[e].rdesc 50 2) c = true → t.rd (R.rdCwResult e c) = 1 then 1 else 2)))) ∧
  (engReady s e = true → s.rd (R.rdStatBusy e) = 1 → ∃ t, exec (.readAbort e) s = .next t ∧ t.rd (R.rdStatResult e) = 7 ∧
    t.rd (R.rdStatDone e) = 1 ∧ t.rd (R.rdStatBusy e) = 0 ∧
    (∀ c : Fin 16, t.rd (R.rdCwResult e c) = s.rd (R.rdCwResult e c)) ∧ KeepsMem s t) ∧
  (engReady s e = true → ∃ t, exec (.marginClear e) s = .next t ∧ t.rd (R.mrgCwCw e) = 0 ∧ t.rd (R.mrgCwFail0 e) = 0 ∧
    t.rd (R.mrgMiscMisc e) = 0 ∧ t.rd (R.mrgSerSer e) = 0 ∧ t.rd (R.mrgErsErs e) = 0 ∧ t.rd (R.mrgSiraSira e) = 0 ∧
    t.rd (R.mrgSirbSirb e) = 0 ∧ t.rd (R.mrgSirnSirn e) = 0 ∧ t.rd (R.mrgVarVar e) = 0 ∧ t.rd (R.mrgPsigPsig e) = 0 ∧
    (∀ i : Fin 16, t.rd (R.mrgIterCount e i) = 0) ∧ KeepsMem s t)

/-- Sample packets (R250, R253) and the ladder (R132). -/
def Obligations.PacketsAndRetries : Prop := ∀ (s : State) (p : PosIx), posOffered s p = true →
  (∀ x : SamplePacket, ∃ t, exec (.samplePacket p x) s = .next t ∧
    Assoc.get (4 * x.pickup.val + x.stream.val) t.pos[p].igl.symNext = some ((x.symcnt + 384) % 2 ^ 32) ∧
    (x.crcOk = false → t.rd (R.iglScrcCount p) = satNat (R.iglScrcCount p).w (s.rd (R.iglScrcCount p) + 1)) ∧ KeepsMem s t) ∧
  (∀ (n : Nat) (deep : Bool) (upsets : List Upset) (r : RankRead), readOf s p n = some r → r.final = false → r.digest = false →
    readDone r (neededCols s p n) = true → colsOk r (neededCols s p n) = false → stripeRead s p n = true →
    retryTurn s p r = true → (∀ c < 16, 2 < (failedRoles r c).length) →
    let deep' := deep || deepAsked s p n
    let last := if deep' then 5 else min 5 (policyIn r.policy 0x11 p)
    let revs := stepRevs r p (r.step + 1)
    (r.step + 1 ≤ last → deep' = true ∨ r.revs + revs ≤ policyIn r.policy 0x12 p →
      ∃ t, exec (.retryPass p n deep upsets) s = .next t ∧
        ((readOf t p n).map fun x => (x.step, x.sub, x.revs, x.posted, x.final)) =
          some (r.step + 1, 0, r.revs + revs, 0, false) ∧ KeepsMem (applyUpsets upsets s) t) ∧
    (last < r.step + 1 ∨ (deep' = false ∧ policyIn r.policy 0x12 p < r.revs + revs) →
      ∃ t, exec (.retryPass p n deep upsets) s = .next t ∧
        ((readOf t p n).map fun x => (x.step, x.final)) = some (r.step, true) ∧ KeepsMem (applyUpsets upsets s) t))

/-- SRV_CTRL, LOOP_CTRL, LOOP_COEF and SRV_SP (R142, R149 to R153). -/
def Obligations.ServoRegisterCommands : Prop := ∀ (s : State) (p : PosIx), posOffered s p = true →
  (∀ on : Bool, ∃ t, exec (.srvEnable p on) s = .next t ∧ t.rd (R.srvCtrlEn p) = (if on then 1 else 0) ∧
    t.pos[p].srv = s.pos[p].srv ∧ KeepsMem s t ∧
    (s.rd (R.clkPllLock 5) = 1 → ∃ u, exec (.servoTick [] 0) t = .next u ∧ u.pos[p].srv.running = on ∧
      (on = false → ∀ l : Fin 24, u.rd (R.loopLastCode p l) = 0 ∧
        ((s.loopAt p l).mode ≠ loopFail → (u.loopAt p l).mode = loopOff)))) ∧
  (∀ (l : Fin 24) (m : Fin 8),
    (m.val < 4 → s.rd (R.jmpStatBusy p (l.val % 8)) ≠ 1 → s.rd (R.loopCtrlMode p l) ≠ 4 →
      (s.loopAt p l).pendMode ≠ some loopFail →
      ∃ t, exec (.loopModeWrite p l m) s = .next t ∧ t.rd (R.loopCtrlMode p l) = m ∧ (t.loopAt p l).pendMode = some m.val ∧
        (t.loopAt p l).mode = (s.loopAt p l).mode ∧ KeepsMem s t ∧
        (let x := s.surfAt p ⟨l.val % 8, by omega⟩
         s.rd (R.clkPllLock 5) = 1 → s.rd (R.srvCtrlEn p) = 1 → (s.loopAt p l).mode ≠ loopFail → x.jump = none →
         x.goNext = false → ∃ u, exec (.servoTick [] 0) t = .next u ∧ (u.loopAt p l).mode = m ∧
           u.rd (R.loopCtrlMode p l) = m)) ∧
    (4 ≤ m.val ∨ s.rd (R.jmpStatBusy p (l.val % 8)) = 1 ∨ s.rd (R.loopCtrlMode p l) = 4 →
      ∃ t, exec (.loopModeWrite p l m) s = .next t ∧ t.rd (R.loopFlagsModeerr p l) = 1 ∧
        t.rd (R.loopCtrlMode p l) = s.rd (R.loopCtrlMode p l) ∧ t.loopAt p l = s.loopAt p l ∧ KeepsMem s t)) ∧
  (∀ l : Fin 24,
    (s.rd (R.loopCtrlMode p l) ≠ 3 → ∃ t, exec (.loopGainNow p l) s = .next t ∧ (t.loopAt p l).gainNow = true ∧
      t.rd (R.loopGainaApplied p l) = s.rd (R.loopGainaApplied p l) ∧ KeepsMem s t ∧
      (s.rd (R.clkPllLock 5) = 1 → ∃ u, exec (.servoTick [] 0) t = .next u ∧ (u.loopAt p l).gainNow = false ∧
        u.rdI (R.loopGainaApplied p l) = s.rdI (R.loopGainGain p l))) ∧
    (s.rd (R.loopCtrlMode p l) = 3 → ∃ t, exec (.loopGainNow p l) s = .next t ∧ t.rd (R.loopFlagsModeerr p l) = 1 ∧
      t.loopAt p l = s.loopAt p l ∧ KeepsMem s t)) ∧
  (∀ (l : Fin 24) (b : Fin 2) (n : Fin 6) (j : Fin 5) (v : Nat),
    ((s.loopAt p l).bank ≠ b → ∃ t, exec (.loopCoefWrite p l b n j v) s = .next t ∧
      t.rd (R.loopCoefCoef p l b n j) = v % 2 ^ 32 ∧ KeepsMem s t) ∧
    ((s.loopAt p l).bank = b → ∃ t, exec (.loopCoefWrite p l b n j v) s = .next t ∧ t.rd (R.loopFlagsBankerr p l) = 1 ∧
      t.rd (R.loopCoefCoef p l b n j) = s.rd (R.loopCoefCoef p l b n j) ∧ KeepsMem s t)) ∧
  (∀ (f : Fin 8) (v : Nat), ∃ t, exec (.setpointWrite p f v) s = .next t ∧ t.rd (R.srvSpFocus p f) = bitsOf v 0 16 ∧
    t.rd (R.srvSpTrack p f) = bitsOf v 16 16 ∧ t.rd (R.srvSpTilt p f) = bitsOf v 32 16 ∧ t.surfAt p f = s.surfAt p f ∧
    KeepsMem s t)

/-- Set-points (R151): a write, and the boundary that latches it. -/
def Obligations.SetpointsLatchAtTick : Prop := ∀ (s : State) (p : PosIx) (f : Fin 8), posOffered s p = true →
  (∀ (faults : List LaneFault) (emb : Nat), s.rd (R.clkPllLock 5) = 1 → s.rd (R.srvCtrlEn p) = 1 →
    ∃ t, exec (.servoTick faults emb) s = .next t ∧ (t.surfAt p f).spFocus = s.rdI (R.srvSpFocus p f) ∧
      (t.surfAt p f).spTrack = s.rdI (R.srvSpTrack p f) ∧ (t.surfAt p f).spTilt = s.rdI (R.srvSpTilt p f)) ∧
  (∀ v : Nat, ∃ t, exec (.setpointWrite p f v) s = .next t ∧ t.rdI (R.srvSpFocus p f) = toSigned 16 (bitsOf v 0 16) ∧
    t.rdI (R.srvSpTrack p f) = toSigned 16 (bitsOf v 16 16) ∧ t.rdI (R.srvSpTilt p f) = toSigned 16 (bitsOf v 32 16) ∧
    (t.surfAt p f).spFocus = (s.surfAt p f).spFocus ∧ (t.surfAt p f).spTrack = (s.surfAt p f).spTrack ∧
    (t.surfAt p f).spTilt = (s.surfAt p f).spTilt)

/-- Jump sequences (R157, R158) and the loss of focus (R156). -/
def Obligations.JumpSequences : Prop := ∀ (s : State) (p : PosIx) (f : Fin 8), posOffered s p = true →
  (jumpRefused s p f = false →
    let runs := s.rd (R.clkPllLock 5) = 1 ∧ s.rd (R.srvCtrlEn p) = 1 ∧ (s.surfAt p f).jump = none ∧
      ∀ l : Fin 24, (s.loopAt p l).pendMode ≠ some loopFail
    (∃ t, exec (.jumpGo p f) s = .next t ∧ (t.surfAt p f).goNext = true ∧ KeepsMem s t ∧
      (runs → ∃ u, exec (.servoTick [] 0) t = .next u ∧ u.rd (R.jmpStatBusy p f) = 1 ∧ u.rd (R.jmpStatResult p f) = 0 ∧
        (u.surfAt p f).jump.isSome = true ∧ (u.surfAt p f).goNext = false)) ∧
    (∀ mask : Nat, bitAt mask f = true → ∃ t, exec (.srvJmpgo p mask) s = .next t ∧ (t.surfAt p f).goNext = true ∧
      KeepsMem s t ∧ (runs → ∃ u, exec (.servoTick [] 0) t = .next u ∧ u.rd (R.jmpStatBusy p f) = 1 ∧
        (u.surfAt p f).jump.isSome = true))) ∧
  (jumpRefused s p f = true → (∃ t, exec (.jumpGo p f) s = .next t ∧ t.rd (R.jmpStatResult p f) = 4 ∧
      t.surfAt p f = s.surfAt p f ∧ KeepsMem s t) ∧
    (∀ mask : Nat, bitAt mask f = true → ∃ t, exec (.srvJmpgo p mask) s = .next t ∧ t.rd (R.jmpStatResult p f) = 4 ∧
      t.surfAt p f = s.surfAt p f ∧ KeepsMem s t)) ∧
  (∃ t, exec (.jumpAbort p f) s = .next t ∧ (t.surfAt p f).abortNext = true ∧ (t.surfAt p f).jump = (s.surfAt p f).jump ∧
    KeepsMem s t ∧ ((s.surfAt p f).jump.isSome = true → s.rd (R.clkPllLock 5) = 1 → s.rd (R.srvCtrlEn p) = 1 →
      ∃ u, exec (.servoTick [] 0) t = .next u ∧ u.rd (R.jmpStatBusy p f) = 0 ∧ u.rd (R.jmpStatResult p f) = 5 ∧
        (u.surfAt p f).jump = none)) ∧
  (s.rd (R.jmpStatBusy p f) = 1 → s.rd (R.jmpTmoTmo p f) ≤ s.rd (R.jmpStatElapsed p f) →
    (s.loopAt p (focusOf f)).mode ≠ loopFail → (s.loopAt p (trackOf f)).mode ≠ loopFail →
    ∃ t, exec (.jumpTimeout p f) s = .next t ∧ t.rd (R.jmpStatBusy p f) = 0 ∧ t.rd (R.jmpStatResult p f) = 6 ∧
      (t.surfAt p f).jump = none ∧ (t.loopAt p (focusOf f)).mode = loopOpen ∧ (t.loopAt p (trackOf f)).mode = loopOff ∧
      t.rd (R.loopOpenDrive p (focusOf f)) = s.rd (R.loopOpenPark p (focusOf f)) % 2 ^ 16 ∧ KeepsMem s t) ∧
  (8 ≤ (s.surfAt p f).lowSum → (∀ l ∈ [focusOf f, trackOf f, tiltOf f], (s.loopAt p l).pendMode ≠ some loopFail) →
    ∃ t, exec (.focusLost p f) s = .next t ∧ (t.loopAt p (focusOf f)).pendMode = some loopOpen ∧
    (t.loopAt p (trackOf f)).pendMode = some loopOff ∧ (t.loopAt p (tiltOf f)).pendMode = some loopHold ∧
    t.rd (R.loopOpenDrive p (focusOf f)) = s.rd (R.loopOpenPark p (focusOf f)) % 2 ^ 16 ∧
    bitAt (t.rd (R.srvStatFoclost p)) f = true ∧ bitAt (t.rd (R.srvSnuffLive p)) 1 = true ∧ t.rd (R.srvSnuffLatch p) = 1)

/-- Spare lanes (R164), servo failure (R165) and SRV_CENTRE (R160). -/
def Obligations.ServoLanesAndCentre : Prop := ∀ (s : State) (p : PosIx), posOffered s p = true →
  (∀ i : Fin 2, s.pos[p].srv.spare = some i → 1024 ≤ s.pos[p].srv.votes →
    ∃ t, exec (.spareLeave p) s = .next t ∧ t.pos[p].srv.spare = none ∧ t.spares[i] = .free ∧ t.rd (R.srvStatSpare p) = 0 ∧
      t.rd (R.srvLaneStrikeA p) = 0 ∧ t.rd (R.srvLaneStrikeB p) = 0 ∧ t.rd (R.srvLaneStrikeS p) = 0 ∧ KeepsMem s t) ∧
  (s.pos[p].srv.failDue = true → ∃ t, exec (.servoFail p) s = .next t ∧ t.rd (R.srvLaneFailed p) = 1 ∧
    bitAt (t.rd (R.srvSnuffLive p)) 4 = true ∧ t.rd (R.srvSnuffLatch p) = 1 ∧
    (∀ l : Fin 24, (t.loopAt p l).pendMode = some loopFail) ∧ t.flt.pend.length = s.flt.pend.length + 1) ∧
  (let n := allSurfs.foldl (fun a f => a + (s.surfAt p f).centreCount) 0
   let sum := allSurfs.foldl (fun a f => a + (s.surfAt p f).centreSum) 0
   let closed := ∃ f : Fin 8, (s.loopAt p (trackOf f)).mode = loopClosed
   ∃ t, exec (.centrePublish p) s = .next t ∧ (¬ closed → t.rdI (R.srvCentreCentre p) = 0) ∧
     (∀ c : Int, closed → 0 < n → sum = c * n → -32768 ≤ c → c < 32768 → t.rdI (R.srvCentreCentre p) = c) ∧
     (∀ f : Fin 8, (t.surfAt p f).centreSum = 0 ∧ (t.surfAt p f).centreCount = 0) ∧ KeepsMem s t)

/-- SPN_CMD (Table 6.3). -/
def Obligations.SpindleCommands : Prop := ∀ (s : State) (p : PosIx), posOffered s p = true →
  (s.rd (R.posCfgEn p) = 1 →
    ((spnState s p = 0 ∧ s.policyOf 0x70 p = 0) ∨ spnState s p = 6 ∨ spnState s p = 7 →
      ∃ t, exec (.spnStart p) s = .next t ∧ spnState t p = 1 ∧ t.pos[p].spn.bridge = .off ∧ t.rd (R.spnStatRetry p) = 0 ∧
        KeepsMem s t) ∧
    (spnState s p = 0 → s.policyOf 0x70 p ≠ 0 → ∃ t, exec (.spnStart p) s = .next t ∧ spnState t p = 0 ∧
      t.pos[p].spn.waitSlot = true ∧ KeepsMem s t) ∧
    (spnState s p = 5 → s.rd (R.spnStatChopflt p) ≠ 1 → ∃ t, exec (.spnStopRegen p) s = .next t ∧ spnState t p = 6 ∧
      t.pos[p].spn.stop = .regen ∧ t.pos[p].spn.applied = 0 ∧ t.rd (R.spnStatAvalid p) = 0 ∧ KeepsMem s t) ∧
    (spnState s p = 5 → s.rd (R.spnStatChopflt p) = 1 → ∃ t, exec (.spnStopRegen p) s = .next t ∧ spnState t p = 6 ∧
      t.pos[p].spn.stop = .interval ∧ t.pos[p].spn.bridge = .brake ∧ KeepsMem s t) ∧
    (spnState s p = 5 → ∃ t, exec (.spnStopShort p) s = .next t ∧ spnState t p = 6 ∧ t.pos[p].spn.stop = .interval ∧
      t.pos[p].spn.bridge = .brake ∧ KeepsMem s t) ∧
    (spnState s p ≠ 0 → spnState s p ≠ 9 → ∃ t, exec (.spnCoast p) s = .next t ∧ t.pos[p].spn.coastNext = true ∧
      spnState t p = spnState s p ∧ KeepsMem s t ∧
      ∀ x : PwmSample, x.vbus < spnOv3 s p → ∃ u, exec (.spnPwmPeriod p x) t = .next u ∧ spnState u p = 7 ∧
        u.pos[p].spn.bridge = .off ∧ u.pos[p].spn.coastNext = false) ∧
    (spnState s p = 9 → s.pos[p].spn.cause ≠ 0x0602 ∨ s.rd (R.spnMeasVbus p) < spnOv1 s p →
      ∃ t, exec (.spnClear p) s = .next t ∧ spnState t p = 0 ∧ t.pos[p].spn.bridge = .off ∧
      (s.packs[p].goOff = false → KeepsMem s t))) ∧
  (s.rd (R.posCfgEn p) ≠ 1 →
    ∀ c ∈ [Instr.spnStart p, .spnStopRegen p, .spnStopShort p, .spnCoast p, .spnClear p],
      ∃ t, exec c s = .next t ∧ t.rd (R.spnStatCmderr p) = 1 ∧ t.rd (R.spnReasonCode p) = 0x0604 ∧
        spnState t p = spnState s p ∧ t.pos[p].spn = s.pos[p].spn ∧ KeepsMem s t)

/-- The spindle sequences from START to OFF, and the four ways to stop. -/
def Obligations.SpindleStartsAndStops : Prop :=
  (∀ (s : State) (p : PosIx), posOffered s p = true →
    (∀ x : CatchSpin, spnState s p = 1 →
      (4 ≤ x.forward → 9600 ≤ x.speed → ∃ t, exec (.observeEnd p x) s = .next t ∧ spnState t p = 5 ∧
        t.rd (R.spnMeasSpeed p) = x.speed % 2 ^ (R.spnMeasSpeed p).w ∧ t.rd (R.spnStatRetry p) = 0 ∧
        t.pos[p].spn.bridge = .drive ∧ KeepsMem s t) ∧
      (x.forward < 4 ∨ x.speed < 9600 → ∃ t, exec (.observeEnd p x) s = .next t ∧ spnState t p = 2 ∧
        t.pos[p].spn.bridge = .brake ∧ (3 ≤ x.reverse → t.rd (R.spnStatReverse p) = 1) ∧
        (x.reverse < 3 → t.rd (R.spnStatReverse p) = s.rd (R.spnStatReverse p)) ∧ KeepsMem s t)) ∧
    (spnState s p = 2 → s.pos[p].spn.stopAfterBrake = false → ∃ t, exec (.brakeEnd p) s = .next t ∧ spnState t p = 3 ∧
      t.rd (R.spnIphStep p) = 5 ∧ t.pos[p].spn.bridge = .drive ∧ KeepsMem s t) ∧
    (spnState s p = 2 → s.pos[p].spn.stopAfterBrake = true → ∃ t, exec (.brakeEnd p) s = .next t ∧ spnState t p = 0 ∧
      t.pos[p].spn.bridge = .off ∧ (s.packs[p].goOff = false → KeepsMem s t)) ∧
    (spnState s p = 3 → ∃ t, exec (.alignEnd p) s = .next t ∧ spnState t p = 4 ∧ t.rd (R.spnIphStep p) = 0 ∧
      t.pos[p].spn.rampSpeed = 0 ∧ KeepsMem s t) ∧
    (spnState s p = 4 ∨ spnState s p = 5 →
      (s.rd (R.spnStatRetry p) < 3 → ∃ t, exec (.lockedRotorTimeout p) s = .next t ∧ spnState t p = 8 ∧
        t.rd (R.spnStatLocked p) = 1 ∧ t.pos[p].spn.bridge = .off ∧ KeepsMem s t) ∧
      (3 ≤ s.rd (R.spnStatRetry p) → ∃ t, exec (.lockedRotorTimeout p) s = .next t ∧ spnState t p = 9 ∧
        t.rd (R.spnStatLocked p) = 1 ∧ t.rd (R.spnReasonCode p) = 0x0601 ∧ t.pos[p].spn.bridge = .off ∧
        (s.hqi.tags = [] → KeepsMem s t))) ∧
    (spnState s p = 8 → ∃ t, exec (.waitEnd p) s = .next t ∧ spnState t p = 1 ∧
      t.rd (R.spnStatRetry p) = (s.rd (R.spnStatRetry p) + 1) % 2 ^ (R.spnStatRetry p).w ∧ KeepsMem s t) ∧
    (spnState s p = 0 → s.pos[p].spn.waitSlot = true →
      s.policyOf 0x70 p = 0 ∨ s.rd R.timeNowNs / 1000000000 % 16 = s.policyOf 0x70 p - 1 →
      ∃ t, exec (.spinupSlotOpen p) s = .next t ∧ spnState t p = 1 ∧ t.pos[p].spn.waitSlot = false ∧ KeepsMem s t)) ∧
  (∀ (s : State) (p : PosIx), posOffered s p = true → spnState s p = 6 →
    (s.pos[p].spn.stop = .regen → ∃ t, exec (.stopNoEventTimeout p) s = .next t ∧ spnState t p = 6 ∧
      t.pos[p].spn.stop = .final ∧ t.pos[p].spn.bridge = .brake ∧ KeepsMem s t) ∧
    (s.pos[p].spn.stop = .interval → ∃ t, exec (.brakeIntervalEnd p) s = .next t ∧ spnState t p = 6 ∧
      t.pos[p].spn.stop = .window ∧ t.pos[p].spn.bridge = .off ∧ KeepsMem s t) ∧
    (∀ x : CatchSpin, s.pos[p].spn.stop = .window → ∃ t, exec (.observationWindowEnd p x) s = .next t ∧ spnState t p = 6 ∧
      t.pos[p].spn.bridge = .brake ∧ (x.forward < 4 ∨ x.speed < 9600 → t.pos[p].spn.stop = .final) ∧
      (4 ≤ x.forward → 9600 ≤ x.speed → t.pos[p].spn.stop = .interval) ∧ KeepsMem s t) ∧
    (s.pos[p].spn.stop = .final → ∃ t, exec (.finalBrakeEnd p) s = .next t ∧ spnState t p = 0 ∧
      t.pos[p].spn.bridge = .off ∧ t.pos[p].spn.stop = .none ∧ (s.packs[p].goOff = false → KeepsMem s t)))

/-- PWM periods (R171, R184), commutation (R172), the chopper (R185), IPEAK (R175), the applied target (R177, R178). -/
def Obligations.SpindleDrive : Prop := ∀ (s : State) (p : PosIx), posOffered s p = true →
  (∀ x : PwmSample,
    (s.pos[p].spn.coastNext = true → x.vbus < spnOv3 s p → ∃ t, exec (.spnPwmPeriod p x) s = .next t ∧ spnState t p = 7 ∧
      t.pos[p].spn.bridge = .off ∧ t.rd (R.spnMeasVbus p) = x.vbus % 2 ^ (R.spnMeasVbus p).w ∧ KeepsMem s t) ∧
    (spnOv3 s p ≤ x.vbus → ∃ t, exec (.spnPwmPeriod p x) s = .next t ∧ spnState t p = 9 ∧ t.rd (R.spnStatOv3 p) = 1 ∧
      t.pos[p].spn.time = s.pos[p].spn.time + 25000 ∧ KeepsMem s t)) ∧
  (∀ n two : Nat, s.pos[p].spn.due = some (n, two) → s.pos[p].spn.bridge = .drive →
    ∃ t, exec (.commutation p) s = .next t ∧ t.rd (R.spnIphStep p) = (s.rd (R.spnIphStep p) + 1) % 6 ∧
      t.pos[p].spn.lastComm = commTime s p n two ∧ t.pos[p].spn.due = none ∧ KeepsMem s t) ∧
  (s.rd (R.spnStatChopflt p) ≠ 1 → ∃ t, exec (.chopperFeedbackTimeout p) s = .next t ∧ t.rd (R.spnStatChopflt p) = 1 ∧
    t.pos[p].spn.chop = false ∧ t.rd (R.spnReasonCode p) = 0x0603 ∧
    (s.pos[p].spn.stop = .regen → t.pos[p].spn.brakeNext = true) ∧ KeepsMem s t) ∧
  (256 ≤ s.pos[p].spn.peaks → ∃ t, exec (.ipeakFault p) s = .next t ∧ spnState t p = 9 ∧
    t.rd (R.spnReasonCode p) = 0x0605 ∧ t.pos[p].spn.bridge = .off ∧ (s.hqi.tags = [] → KeepsMem s t)) ∧
  (spnState s p = 5 → ∃ t, exec (.speedLoop p) s = .next t ∧ spnState t p = 5 ∧ t.pos[p].spn.applied =
    applyTarget s.pos[p].spn.applied (spnTarget s p * 10000000) (s.rd (R.spnRampAccel p)) ∧ t.pos[p].spn.par.ilim = s.rd (R.spnIlimIlim p) ∧ KeepsMem s t) ∧
  (∀ rpm : Nat, ∃ t, exec (.speedTargetWrite p rpm) s = .next t ∧ t.rd (R.spnSpdTarget p) = rpm % 2 ^ 16 ∧
    t.pos[p].spn.degraded = false ∧ spnState t p = spnState s p ∧ KeepsMem s t)

/-- CAR_CMD (Table 7.2). -/
def Obligations.CarriageCommands : Prop := ∀ (s : State) (p : PosIx), posOffered s p = true →
  (s.rd (R.posCfgEn p) = 1 →
    (carState s p = 0 → ∃ t, exec (.carEnable p) s = .next t ∧ carState t p = 1 ∧ t.pos[p].car.bridgeOn = true ∧
      t.rdI (R.carRefInt p) = s.rdI (R.carPosPos p) ∧ t.rd (R.carRefFrac p) = 0 ∧ KeepsMem s t) ∧
    (carState s p = 1 → ∃ t, exec (.carHome p) s = .next t ∧ carState t p = 2 ∧ t.rd (R.carStatSettled p) = 0 ∧
      t.pos[p].car.outward = false ∧ KeepsMem s t) ∧
    (carDone s p = true ∨ carState s p = 7 → s.rd (R.carStatPvalid p) = 1 → carVlimIn s p ≤ s.rdI (R.carSeekTgt p) →
      s.rdI (R.carSeekTgt p) ≤ carVlimOut s p → ∃ t, exec (.carSeek p) s = .next t ∧ carState t p = 3 ∧
      t.pos[p].car.target = s.rdI (R.carSeekTgt p) ∧ t.pos[p].car.parking = false ∧ KeepsMem s t) ∧
    (carState s p = 1 ∨ carState s p = 7 → s.rd (R.carStatPvalid p) = 1 → ∃ t, exec (.carDirect p) s = .next t ∧
      carState t p = 4 ∧ t.pos[p].car.target = s.rdI (R.carRefInt p) ∧ KeepsMem s t) ∧
    (carDone s p = true → s.rd (R.carStatPvalid p) = 1 → s.rd (R.spnStatAvalid p) = 1 → gearEntriesOk s p = true →
      ∃ t, exec (.carGear p) s = .next t ∧ carState t p = 5 ∧ t.rd (R.carGtctlNext p) = 0 ∧
        t.rdI (R.carGratioRatio p) = s.rdI (R.carGear0Ratio p) ∧ KeepsMem s t ∧
        (s.packs[p].goPark = false → measOf s p = none → ∃ u, exec (.carriageLoop p) t = .next u ∧ carState u p = 5 ∧
          u.pos[p].car.p0 = carRef s p ∧ u.pos[p].car.gearSum = 0 ∧ u.pos[p].car.lastAngle = spnAngle s p)) ∧
    (2 ≤ carState s p → carState s p ≤ 5 → ∃ t, exec (.carStop p) s = .next t ∧ carState t p = 6 ∧
      t.pos[p].car.stopping = true ∧ t.pos[p].car.rest = .hold ∧ KeepsMem s t) ∧
    (carDone s p = true → s.rd (R.carStatPvalid p) = 1 → ∃ t, exec (.carPark p) s = .next t ∧ carState t p = 3 ∧
      t.pos[p].car.target = s.rdI (R.carParkPos p) ∧ t.pos[p].car.parking = true ∧ KeepsMem s t) ∧
    (carState s p ≠ 8 → ∃ t, exec (.carOff p) s = .next t ∧ t.pos[p].car.offNext = true ∧ carState t p = carState s p ∧
      KeepsMem s t ∧ ∀ ia ib : Nat, ∃ u, exec (.carPwmPeriod p ia ib) t = .next u ∧ carState u p = 0 ∧
        u.pos[p].car.bridgeOn = false) ∧
    (carState s p = 8 → carCauseStands s p = false → ∃ t, exec (.carClear p) s = .next t ∧ carState t p = 0 ∧
      t.pos[p].car.bridgeOn = false ∧ KeepsMem s t) ∧
    (carState s p = 8 → carCauseStands s p = true → ∃ t, exec (.carClear p) s = .next t ∧ carState t p = 8 ∧
      t.rd (R.carStatCmderr p) = 1 ∧ t.rd (R.carReasonCode p) = 0x0708 ∧ KeepsMem s t)) ∧
  (s.rd (R.posCfgEn p) ≠ 1 → ∀ c ∈ [Instr.carEnable p, .carHome p, .carSeek p, .carDirect p, .carGear p, .carStop p,
      .carPark p, .carOff p, .carClear p], ∃ t, exec c s = .next t ∧ t.rd (R.carStatCmderr p) = 1 ∧
    t.rd (R.carReasonCode p) = 0x0708 ∧ carState t p = carState s p ∧ t.pos[p].car = s.pos[p].car ∧ KeepsMem s t)

/-- The encoder (R193), homing (R194), CAR_TGT (R200) and the faults of Table 7.3 (R209). -/
def Obligations.CarriageEncoderAndFaults : Prop := ∀ (s : State) (p : PosIx), posOffered s p = true →
  (∀ level : Bool, s.pos[p].encA ≠ level → ∃ t, exec (.encoderEdge p false level) s = .next t ∧ t.pos[p].encA = level ∧
    t.pos[p].encB = s.pos[p].encB ∧ t.rd (R.carPosPos p) = ofSigned 32 (s.rdI (R.carPosPos p) +
      (if (s.pos[p].encB ≠ level) ≠ (s.rd (R.carCfgEncInv p) = 1) then 1 else -1)) ∧ KeepsMem s t) ∧
  (∃ t, exec (.encoderError p) s = .next t ∧ t.rd (R.carStatEncerr p) = 1 ∧ t.rd (R.carStatPvalid p) = 0 ∧
    t.rd (R.carReasonCode p) = 0x0707 ∧ (carState s p ≠ 0 → carState t p = 8 ∧ t.pos[p].car.openLoop = true) ∧
    (carState s p = 0 → carState t p = 0) ∧ KeepsMem s t) ∧
  (carState s p = 2 → ∃ t, exec (.indexEdge p) s = .next t ∧ t.rd (R.carStatPvalid p) = 1 ∧ carState t p = 6 ∧
    t.rd (R.carPosPos p) = ofSigned 32 (s.rdI (R.carIdxPos p)) ∧ KeepsMem s t) ∧
  (carState s p = 2 → ∃ t, exec (.homingTimeout p) s = .next t ∧ carState t p = 8 ∧ t.rd (R.carReasonCode p) = 0x0705 ∧
    (s.hqi.tags = [] → KeepsMem s t)) ∧
  (8 ≤ s.pos[p].car.ferr → carState s p ≠ 2 → carState s p ≠ 8 → ∃ t, exec (.followingErrorFault p) s = .next t ∧
    carState t p = 8 ∧ t.rd (R.carReasonCode p) = 0x0706 ∧ t.rd (R.carStatFerr p) = 1 ∧ t.pos[p].car.stopping = true ∧
    KeepsMem s t) ∧
  (4 ≤ s.pos[p].car.ovc → ∃ t, exec (.phaseOvercurrent p) s = .next t ∧ carState t p = 8 ∧
    t.rd (R.carReasonCode p) = 0x070C ∧ t.pos[p].car.bridgeOn = false ∧ t.pos[p].car.bridgeCut = true ∧ KeepsMem s t) ∧
  (∀ v : Nat, (carState s p = 4 → carVlimIn s p ≤ toSigned 32 v → toSigned 32 v ≤ carVlimOut s p →
      ∃ t, exec (.carTargetWrite p v) s = .next t ∧ t.pos[p].car.target = toSigned 32 v ∧
        t.rd (R.carStatLimclip p) = s.rd (R.carStatLimclip p) ∧ KeepsMem s t) ∧
    (carState s p = 4 → toSigned 32 v < carVlimIn s p → carVlimIn s p ≤ carVlimOut s p →
      ∃ t, exec (.carTargetWrite p v) s = .next t ∧ t.pos[p].car.target = carVlimIn s p ∧
        t.rd (R.carStatLimclip p) = 1 ∧ KeepsMem s t) ∧
    (carState s p ≠ 4 → ∃ t, exec (.carTargetWrite p v) s = .next t ∧ t.rd (R.carReasonCode p) = 0x0702 ∧
      t.pos[p].car = s.pos[p].car ∧ t.rd (R.carTgtTgt p) = s.rd (R.carTgtTgt p) ∧ KeepsMem s t))

/-- PWM periods (R195) and the position loop (R196). -/
def Obligations.CarriagePeriods : Prop := ∀ (s : State) (p : PosIx), posOffered s p = true →
  (∀ ia ib : Nat,
    let beyond := fun c : Nat => 5 * carImax s p * 256 < ((c : Int) - 2048).natAbs * 225 * 4
    (s.pos[p].car.offNext = true → ∃ t, exec (.carPwmPeriod p ia ib) s = .next t ∧ carState t p = 0 ∧
      t.pos[p].car.bridgeOn = false ∧ t.pos[p].car.offNext = false ∧ KeepsMem s t) ∧
    (s.pos[p].car.offNext = false → ∃ t, exec (.carPwmPeriod p ia ib) s = .next t ∧
      carState t p = carState s p ∧ (beyond ia ∨ beyond ib → t.pos[p].car.ovc = s.pos[p].car.ovc + 1) ∧
      (¬ beyond ia → ¬ beyond ib → t.pos[p].car.ovc = 0) ∧
      (s.pos[p].car.bridgeOn = true → t.pos[p].car.mTicks = s.pos[p].car.mTicks + 1) ∧ KeepsMem s t)) ∧
  (carState s p = 1 → s.pos[p].car.stopping = false → s.pos[p].car.bridgeOn = true → s.pos[p].car.bridgeCut = false →
    s.pos[p].car.openLoop = false → s.packs[p].goPark = false → measOf s p = none →
    ∃ t, exec (.carriageLoop p) s = .next t ∧ carState t p = 1 ∧ carRef t p = carRef s p ∧ t.rd (R.carStatBusy p) = 0 ∧
      t.pos[p].car.cur.natAbs ≤ carImax s p * 2 ^ 56 ∧ t.pos[p].car.posPrev = s.rdI (R.carPosPos p) ∧ KeepsMem s t)

/-- CAL_LCTRL (R231, R234, R241), the injection (R225) and OPC runs (R219, R220). -/
def Obligations.CalibrationOperations : Prop := ∀ s : State,
  (∀ temp : Nat,
    (s.rd R.calStatBusy ≠ 1 →
      (∃ t, exec (.calLookup temp) s = .next t ∧ t.rd R.calStatBusy = 1 ∧
        (t.cal.lookup.map fun k => (k.kind, k.temp)) = some (s.rd R.calLkeyKind, temp % 2 ^ 16) ∧ KeepsMem s t) ∧
      (let a := s.rd R.calSrcAddr * 64
       sramBase ≤ a → a + 192 ≤ sramBase + sramSize → (∀ i < 24, wordStatAt s (a + 8 * i) ≠ .ue) →
       ∃ t, exec (.calStore temp) s = .next t ∧ t.rd R.calStatBusy = 1 ∧
         t.cal.store = some (s.sramRead a 192) ∧ KeepsMem s t)) ∧
    (s.rd R.calStatBusy = 1 → ∀ c ∈ [Instr.calLookup temp, .calStore temp], ∃ t, exec c s = .next t ∧
      t.rd R.calStatErr = 1 ∧ t.cal = s.cal ∧ KeepsMem s t)) ∧
  (∀ key : CalKey, s.cal.lookup = some key → s.cal.store = none → ∃ t, exec .calOperationDone s = .next t ∧
    t.rd R.calStatBusy = 0 ∧ t.rd R.calLresResult = (lookupResult s key).1 ∧ t.cal.lookup = none ∧ KeepsMem s t) ∧
  (∀ (raw : List Byte) (a : Nat), s.cal.store = some raw → s.cal.lookup = none → roomFor s (recSize raw) = some a →
    (∀ r ∈ calRecords s, sameKey r.raw raw = false) → ∃ t, exec .calOperationDone s = .next t ∧
    t.rd R.calStatBusy = 0 ∧ t.emberRead a (recSize raw) = slice raw 0 (recSize raw)) ∧
  (∀ (p : PosIx) (l amp : Nat), posOffered s p = true →
    (s.rd R.calInjEn ≠ 1 → ∃ t, exec (.injectionStart p l amp) s = .next t ∧ t.rd R.calInjEn = 1 ∧ t.rd R.calInjPos = p ∧
      t.rd R.calInjLoop = l % 2 ^ R.calInjLoop.w ∧ t.rd R.calInjsCount = 0 ∧ t.rd R.calInjeEi = 0 ∧ t.rd R.calInjuUq = 0 ∧
      t.cal.tick = 0 ∧ KeepsMem s t) ∧
    (s.rd R.calInjEn = 1 → ∃ t, exec (.injectionStart p l amp) s = .next t ∧ t.rd R.calInjLoop = s.rd R.calInjLoop ∧
      t.rd R.calInjsCount = s.rd R.calInjsCount ∧ t.cal = s.cal ∧ KeepsMem s t)) ∧
  (s.rd R.calInjEn = 1 → injNper s ≤ s.rd R.calInjsCount →
    (∀ m ∈ s.cal.meas, m.on = true → m.task.gain = true → m.task.p.val ≠ s.rd R.calInjPos) →
    ∃ t, exec .injectionDone s = .next t ∧ t.rd R.calInjEn = 0 ∧
    t.rd R.calInjsDone = 1 ∧ KeepsMem s t) ∧
  (∀ (p : PosIx) (x : OpcData) (o : OpcRun) (l : List OpcRun), posOffered s p = true → s.packs[p].opc = o :: l →
    opcMayRun s p = true → x.written = [] →
    let n := s.policyOf 0x20 p
    let run := testRun o.layer o.area [] (n + 1) n (opcUsed s.packs[p] o.layer o.area [])
    (run.length = n → x.discarded = false → s.packs[p].opcRuns = [] → ∃ t, exec (.opcRun p x) s = .next t ∧
      t.packs[p].opcRuns.length = 1 ∧ t.packs[p].stream = none ∧ t.packs[p].opcPour = opcFrames s p o.layer n run ∧
      opcUsed t.packs[p] o.layer o.area [] = (run.map (·.1)).foldl max 0 + 1 ∧ KeepsMem s t) ∧
    (run.length < n → ∃ t, exec (.opcRun p x) s = .next t ∧ t.packs[p].roCauses.contains 0x0802 = true ∧
      (∀ y ∈ t.packs[p].opc, y.layer ≠ o.layer) ∧ KeepsMem s t))

/-- Training (R259 to R262, R267), lane failure and the lane change (R263, R264). -/
def Obligations.LinkTrainsOrGoesDown : Prop := ∀ (s : State) (p : PosIx), posOffered s p = true →
  (∃ t, exec (.linkEnable p true) s = .next t ∧ t.rd (R.iglCtrlEn p) = 1 ∧ KeepsMem s t) ∧
  (∃ t, exec (.linkEnable p false) s = .next t ∧ t.rd (R.iglCtrlEn p) = 0 ∧ lnkState t p = 0 ∧ t.rd (R.iglStatLanes p) = 0 ∧
    KeepsMem s t) ∧
  (s.rd (R.iglCtrlEn p) = 1 → ∃ t, exec (.linkTrain p) s = .next t ∧ lnkState t p = 1 ∧ t.rd (R.srvSnuffLatch p) = 1 ∧
    bitAt (t.rd (R.srvSnuffLive p)) 5 = true ∧ t.pos[p].gates = 0 ∧ KeepsMem s t) ∧
  (∀ x : Training, lnkState s p = 1 → s.rd (R.clkPllLock (7 + p)) = 1 →
    let ok := (lanesOf (15 - s.rd (R.iglCtrlLaneDis p) % 16)).filter fun l => bitAt x.pass l
    let named := x.id = 0x50460008 ∧ x.ver % 65536 = 0x0100
    (ok.length = 4 → named → ∃ t, exec (.trainingDone p x) s = .next t ∧ lnkState t p = 2 ∧ t.rd (R.iglStatLanes p) = 15 ∧
      bitAt (t.rd (R.srvSnuffLive p)) 5 = false ∧ t.rd (R.iglDelayRtt p) = x.rtt % 2 ^ (R.iglDelayRtt p).w ∧ KeepsMem s t) ∧
    (ok.length = 3 → named → ∃ t, exec (.trainingDone p x) s = .next t ∧ lnkState t p = 2 ∧
      t.rd (R.iglStatDegraded p) = 1 ∧ t.rd (R.iglReasonCode p) = 0x0901 ∧ t.pos[p].spn.degraded = true ∧ KeepsMem s t) ∧
    (ok.length < 3 → ∃ t, exec (.trainingDone p x) s = .next t ∧ lnkState t p = 3 ∧ t.rd (R.iglStatLanes p) = 0 ∧
      t.rd (R.iglReasonCode p) = 0x0905 ∧ (s.hqi.tags = [] → KeepsMem s t)) ∧
    (3 ≤ ok.length → ¬ named → ∃ t, exec (.trainingDone p x) s = .next t ∧ lnkState t p = 3 ∧
      t.rd (R.iglReasonCode p) = 0x0906 ∧ (s.hqi.tags = [] → KeepsMem s t))) ∧
  (∀ l : Fin 4, lnkState s p = 2 → bitAt (s.rd (R.iglStatLanes p)) l = true → s.pos[p].igl.degrading = none →
    (s.rd (R.iglStatDegraded p) ≠ 1 → ∃ t, exec (.laneFail p l) s = .next t ∧ t.pos[p].igl.degrading = some l.val ∧
      t.rd (R.iglStatLanefail p) = 1 ∧ t.rd (R.iglReasonCode p) = 0x0901 ∧ t.pos[p].spn.degraded = true ∧
      t.rd (R.srvSnuffLatch p) = 1 ∧ bitAt (t.rd (R.srvSnuffLive p)) 5 = true) ∧
    (s.rd (R.iglStatDegraded p) = 1 → ∃ t, exec (.laneFail p l) s = .next t ∧ lnkState t p = 3 ∧
      t.rd (R.iglReasonCode p) = 0x0902 ∧ t.rd (R.srvSnuffLatch p) = 1)) ∧
  (lnkState s p = 2 → ∃ t, exec (.alignSend p) s = .next t ∧ t.pos[p].igl.txScr.length = 4 ∧
    (∀ l : Fin 4, bitAt (s.rd (R.iglStatLanes p)) l = true → s.pos[p].igl.degrading ≠ some l.val →
      nth 0 t.pos[p].igl.txScr l = 0x12345670 + l) ∧ KeepsMem s t) ∧
  (∀ l : Fin 4, lnkState s p = 2 → s.pos[p].igl.degrading = none → ∃ t, exec (.alignReceived p l) s = .next t ∧
    t.pos[p].igl.rxScr = setNth s.pos[p].igl.rxScr l (0x12345670 + l) ∧ KeepsMem s t) ∧
  (∀ (l : Fin 4) (d : Nat), lnkState s p = 2 → s.pos[p].igl.degrading = some d → s.pos[p].igl.alignSent = true → d ≠ l →
    (∀ x ∈ lanesOf (s.rd (R.iglStatLanes p)), x = d ∨ x = l ∨ bitAt s.pos[p].igl.aligned x = true) → d < 4 →
    ∃ t, exec (.alignReceived p l) s = .next t ∧ t.rd (R.iglStatDegraded p) = 1 ∧ t.pos[p].igl.degrading = none ∧
      bitAt (t.rd (R.iglStatLanes p)) d = false ∧ KeepsMem s t)

/-- Servo slots (R248, R254), status (R249), SNUFF (R255) and events (R257). -/
def Obligations.LinkServoAndStatus : Prop := ∀ (s : State) (p : PosIx), posOffered s p = true →
  (∀ (blocks : List Block), lnkState s p = 2 → (∀ b ∈ blocks, b ≠ .badHeader) →
    (∀ (c : List Byte) (r : Bool), slotBytes s p blocks = some (c, r) → leAt c 69 4 = crc32c (c.take 69) →
      ∃ t, exec (.upstreamServoSlot p blocks) s = .next t ∧ t.pos[p].srv.slot = some (slotContent c) ∧
        t.rd (R.iglSvupErr p) = s.rd (R.iglSvupErr p) ∧ KeepsMem s t) ∧
    (slotBytes s p blocks = none → ∃ t, exec (.upstreamServoSlot p blocks) s = .next t ∧ t.pos[p].srv.slot = none ∧
      t.rd (R.iglSvupErr p) = satNat (R.iglSvupErr p).w (s.rd (R.iglSvupErr p) + 1) ∧ KeepsMem s t)) ∧
  (3 ≤ s.pos[p].igl.upErrors ∨ 3 ≤ s.pos[p].igl.downErrors →
    ∃ t, exec (.servoLinkFault p) s = .next t ∧ t.rd (R.iglStatServoflt p) = 1 ∧ t.rd (R.iglReasonCode p) = 0x0903 ∧
      t.rd (R.srvSnuffLatch p) = 1 ∧ bitAt (t.rd (R.srvSnuffLive p)) 5 = true ∧ KeepsMem s t) ∧
  (∀ (l : Fin 4) (b : List Byte), leAt b 0 1 = 0x33 → leAt b 12 4 = crc32c (slice b 0 12) →
    (leAt b 4 2 ≠ 0 → ∃ t, exec (.statusBlock p [(l, b)]) s = .next t ∧ t.rd (R.iglStatPf8flt p) = 1 ∧
      bitAt (t.rd (R.srvSnuffLive p)) 6 = true ∧ t.rd (R.srvSnuffLatch p) = 1 ∧ t.pos[p].pf8.fault = leAt b 4 2) ∧
    (leAt b 4 2 = 0 → ∃ t, exec (.statusBlock p [(l, b)]) s = .next t ∧ bitAt (t.rd (R.srvSnuffLive p)) 6 = false ∧
      t.rd (R.iglSvdnErr p) = satNat (R.iglSvdnErr p).w (s.rd (R.iglSvdnErr p) + leAt b 3 1) ∧
      ((∀ k : Fin 4, bitAt (leAt b 2 1) k = true) → KeepsMem s t))) ∧
  (∀ source mask : Fin 256, ∃ t, exec (.snuffBlock p source mask) s = .next t ∧ t.rd (R.srvSnuffLatch p) = 1 ∧
    t.pos[p].gates = 0 ∧ bitAt (t.rd (R.srvSnuffLive p)) 6 = !(source == 1) ∧
    (s.pos[p].igl.events.length < 32 → t.pos[p].igl.events =
      s.pos[p].igl.events ++ [{ code := 0x10 + source, mask := mask, data := 0 }])) ∧
  (∀ flips : Option (List Byte),
    (flips = none ∨ lnkState s p ≠ 2 ∨ (∃ x, flips = some x ∧
      let c := xorBytes (downstreamContent s p) (slice x 0 84)
      leAt c 49 4 ≠ crc32c (slice c 0 49))) →
    ∃ t, exec (.downstreamServoSlot p flips) s = .next t ∧ t.pos[p].pf8.held = s.pos[p].pf8.held ∧
      t.pos[p].pf8.nextCodes = s.pos[p].pf8.nextCodes ∧ t.pos[p].pf8.bad = s.pos[p].pf8.bad + 1 ∧
      (2 ≤ s.pos[p].pf8.bad → t.pos[p].pf8.parked = true) ∧ KeepsMem s t) ∧
  (lnkState s p = 2 → ∃ t, exec (.downstreamServoSlot p (some [])) s = .next t ∧ t.pos[p].pf8.bad = 0 ∧
    t.pos[p].pf8.held = s.pos[p].pf8.held ∧ KeepsMem s t ∧
    (s.rd (R.clkPllLock 5) = 1 → ∃ u, exec (.servoTick [] 0) t = .next u ∧
      u.pos[p].pf8.held = (driveCodes s p).map fun c => toSigned 16 (ofSigned 16 c))) ∧
  (∀ mask data : Nat, ∃ t, exec (.cevt p 3 mask data) s = .next t ∧ t.rd (R.calTempTemp p) = data % 2 ^ 16 ∧
    t.rd (R.calTempValid p) = 1 ∧ t.packs[p].temp = toSigned 16 data ∧ t.pos[p].igl.events = s.pos[p].igl.events ∧
    KeepsMem s t) ∧
  (∀ code mask data : Nat, code ≠ 3 → s.pos[p].igl.events.length < 32 → ∃ t, exec (.cevt p code mask data) s = .next t ∧
    t.pos[p].igl.events = s.pos[p].igl.events ++ [{ code := code, mask := mask, data := data }] ∧ KeepsMem s t)

/-- The control channel (R256 to R258) and wick packets (R251). -/
def Obligations.ControlChannelAndWick : Prop := ∀ (s : State) (p : PosIx), posOffered s p = true →
  (∀ op addr : Nat,
    (s.rd (R.iglCstatBusy p) ≠ 1 → ∃ t, exec (.controlRequest p op addr) s = .next t ∧ t.rd (R.iglCstatBusy p) = 1 ∧
      t.rd (R.iglCstatResult p) = 0 ∧ (s.pos[p].igl.waiting = [] → s.pos[p].igl.out.length < 8 →
        s.rd (R.iglStatCtrlflt p) ≠ 1 → t.pos[p].igl.waiting = [] ∧ t.pos[p].igl.out = s.pos[p].igl.out ++
          [⟨s.pos[p].igl.seq, op % 16, addr % 2 ^ 24, s.rd (R.iglCdataData p), 1, .firmware⟩] ∧
          t.pos[p].igl.tx.ctrl = s.pos[p].igl.tx.ctrl ++ [s.pos[p].igl.seq]) ∧ KeepsMem s t) ∧
    (s.rd (R.iglCstatBusy p) = 1 → ∃ t, exec (.controlRequest p op addr) s = .next t ∧ t.rd (R.iglCstatErr p) = 1 ∧
      t.rd (R.iglReasonCode p) = 0x0907 ∧ t.pos[p].igl.out = s.pos[p].igl.out ∧
      t.pos[p].igl.waiting = s.pos[p].igl.waiting ∧ KeepsMem s t)) ∧
  (∀ (seq op status data : Nat) (c : Creq),
    (s.pos[p].igl.out.find? fun x => x.seq == seq && x.op == op) = some c → c.owner = .firmware →
    ∃ t, exec (.crsp p seq op status data) s = .next t ∧ t.rd (R.iglCstatBusy p) = 0 ∧
      t.rd (R.iglCstatResult p) = (if status = 0 then 1 else 2) ∧
      (status = 0 → op = 1 → t.rd (R.iglCdataData p) = data % 2 ^ 32) ∧ KeepsMem s t) ∧
  (∀ (seq : Nat) (c : Creq), (s.pos[p].igl.out.find? fun x => x.seq == seq) = some c →
    (c.tries < 7 → ∃ t, exec (.creqTimeout p seq) s = .next t ∧
      (t.pos[p].igl.out.find? fun x => x.seq == seq) = some { c with tries := c.tries + 1 } ∧
      t.rd (R.iglCretryCount p) = satNat (R.iglCretryCount p).w (s.rd (R.iglCretryCount p) + 1) ∧ KeepsMem s t) ∧
    (7 ≤ c.tries → ∃ t, exec (.creqTimeout p seq) s = .next t ∧ t.pos[p].igl.out = [] ∧ t.rd (R.iglStatCtrlflt p) = 1 ∧
      t.rd (R.iglReasonCode p) = 0x0904 ∧ (c.owner = .firmware → t.rd (R.iglCstatResult p) = 3) ∧ KeepsMem s t)) ∧
  (∀ (w : WickPacket) (e : EngIx) (at_ n : Nat) (first last : Bool), s.eng[e].home = some (p, w.pickup) →
    s.eng[e].gate = true → (∀ k : EngIx, k ≠ e → s.eng[k].home ≠ some (p, w.pickup)) →
    nextWick s.eng[e].desc s.eng[e].sent = some (at_, n, first, last) →
    ∃ t, exec (.wickPacket p w) s = .next t ∧ t.eng[e].sent = at_ + n ∧
      t.pos[p].igl.tx.packets = s.pos[p].igl.tx.packets + 1 ∧ KeepsMem s t ∧
      (w.lost = false → s.pos[p].pf8.ignoreWick = false → s.pos[p].pf8.gate.length = 8 →
        (w.crcOk = true → w.late = false → first = true → nth false t.pos[p].pf8.gate w.pickup = !last) ∧
        (w.crcOk = false ∨ w.late = true → nth false t.pos[p].pf8.gate w.pickup = false ∧
          bitAt t.pos[p].pf8.underrun w.pickup = true)) ∧
      (nextWick s.eng[e].desc (at_ + n) = none → t.eng[e].gate = false ∧
        t.eng[e].poured.length = s.eng[e].poured.length + 1 ∧ t.rd (R.castStatBusy e) = 0 ∧
        bitAt t.pos[p].gates w.pickup = false))

/-- R274, R299, R300 and R270. `Gone`: function f has been reset. -/
def Obligations.FunctionLife : Prop := ∀ (s : State) (f : FnIx),
  let Gone := fun (u : State) (f : FnIx) => u.rd (R.fnCtlEn f) = 0 ∧ u.rd (R.fnStsRdy f) = 0 ∧ u.fns[f].resetting = true ∧
    u.fns[f].errLog = [] ∧ (∀ q ∈ u.hqi.sqs, q.fn = f → q.qid = 0 ∧ q.wake = false ∧ q.broken = false) ∧
    (∀ c ∈ u.hqi.cqs, c.fn = f → c.qid = 0 ∧ c.held = [])
  let big := 4 ≤ ringLog (s.rd (R.fnAqaAsqlog f)) ∧ 4 ≤ ringLog (s.rd (R.fnAqaAcqlog f)) ∧ s.rd (R.fnAsqAddr f) ≠ 0 ∧
    s.rd (R.fnAcqAddr f) ≠ 0
  (s.rd (R.fnCtlEn f) = 0 → s.fns[f].resetting = false → big → ∃ u, exec (.functionEnable f) s = .next u ∧
    u.rd (R.fnCtlEn f) = 1 ∧
    (sqOf u f 0).map (fun q => (q.log2, q.base, q.cqid, q.head, q.tail)) =
      some (ringLog (s.rd (R.fnAqaAsqlog f)), 4096 * s.rd (R.fnAsqAddr f), 0, 0, 0) ∧
    (cqOf u f 0).map (fun q => (q.log2, q.base, q.iv, q.hshare, q.head)) =
      some (ringLog (s.rd (R.fnAqaAcqlog f)), 4096 * s.rd (R.fnAcqAddr f), 0, 16, 0)) ∧
  (s.rd (R.fnCtlEn f) = 0 → s.fns[f].resetting = false → ¬ big → ∃ u, exec (.functionEnable f) s = .next u ∧
    u.rd (R.fnStsCfgerr f) = 1 ∧ u.rd (R.fnCtlEn f) = 0 ∧ u.rd (R.fnStsRdy f) = 0 ∧ u.hqi = s.hqi) ∧
  (s.rd (R.fnCtlEn f) = 1 → s.rd R.hqiCtrlEn = 1 → (s.rd R.lampStatRecovery ≠ 1 ∨ f = 0) →
    ∃ u, exec (.functionReady f) s = .next u ∧ u.rd (R.fnStsRdy f) = 1) ∧
  (s.rd R.hqiCtrlEn = 0 → ∃ u, exec (.functionReady f) s = .next u ∧ u.rd (R.fnStsRdy f) = s.rd (R.fnStsRdy f)) ∧
  (s.rd (R.fnCtlEn f) = 0 → s.fns[f].resetting = true → ∃ u, exec (.functionEnable f) s = .next u ∧
    u.fns[f].enNext = true ∧ u.rd (R.fnCtlEn f) = 0 ∧ u.hqi = s.hqi) ∧
  (s.fns[f].resetting = true → ∃ u, exec (.functionResetDone f) s = .next u ∧ u.fns[f].resetting = false ∧
    (s.fns[f].enNext = true → s.rd (R.fnCtlEn f) = 0 → big → u.rd (R.fnCtlEn f) = 1 ∧ (sqOf u f 0).isSome = true ∧
      (cqOf u f 0).isSome = true)) ∧
  (f ≠ 0 → ∃ u, exec (.flr f) s = .next u ∧ Gone u f) ∧
  (∃ u, exec (.busMasterDisable f) s = .next u ∧ Gone u f) ∧
  (s.rd (R.fnCtlEn f) = 1 → ∃ u, exec (.functionDisable f) s = .next u ∧ Gone u f) ∧
  (∃ u, exec .vfEnableClear s = .next u ∧ (f ≠ 0 → Gone u f)) ∧
  (∃ u, exec (.flr 0) s = .next u ∧ Gone u f) ∧
  (∃ u, exec .hotReset s = .next u ∧ Gone u f) ∧
  (∃ u, exec .pcieLinkDown s = .next u ∧ Gone u f ∧ u.hqi.linkUp = false) ∧
  (∀ l : Fin 8, ∃ u, exec (.pcieLaneFail l) s = .next u ∧ u.hqi.lanesBad = setBit s.hqi.lanesBad l ∧
    u.hqi.width = min s.hqi.width (widest (setBit s.hqi.lanesBad l)) ∧ (u.hqi.width > 0 → u.hqi.tags = s.hqi.tags ∧
      u.hqi.sqs = s.hqi.sqs ∧ u.hqi.cqs = s.hqi.cqs))

/-- The submission side of a queue, and the head doorbell of a completion queue. -/
def Obligations.DoorbellsAndFetches : Prop := ∀ (s : State) (f : FnIx) (q v size : Nat),
  (size ≠ 4 → ∃ u, exec (.sqDoorbell f q v size) s = .next u ∧ u.rd (R.fnStsSzerr f) = 1 ∧ u.hqi = s.hqi) ∧
  (size ≠ 4 → ∃ u, exec (.cqDoorbell f q v size) s = .next u ∧ u.rd (R.fnStsSzerr f) = 1 ∧ u.hqi = s.hqi) ∧
  ((sqOf s f q).isNone → ∃ u, exec (.sqDoorbell f q v 4) s = .next u ∧ u.rd (R.fnStsDberr f) = 1 ∧ u.hqi.sqs = s.hqi.sqs) ∧
  ((cqOf s f q).isNone → ∃ u, exec (.cqDoorbell f q v 4) s = .next u ∧ u.rd (R.fnStsDberr f) = 1 ∧ u.hqi.cqs = s.hqi.cqs) ∧
  (∀ x, sqOf s f q = some x → ∃ u, exec (.sqDoorbell f q v 4) s = .next u ∧
    sqOf u f q = some { x with tail := v % 2 ^ 32, wake := true }) ∧
  (∀ x, sqOf s f q = some x → ∃ u, exec (.sqPollExpiry f q) s = .next u ∧
    sqOf u f q = some { x with wake := x.wake || pollOf s x != 0 }) ∧
  (∀ c, cqOf s f q = some c → (c.posted + 2 ^ 32 - v % 2 ^ 32) % 2 ^ 32 ≤ 2 ^ c.log2 →
    ∃ u, exec (.cqDoorbell f q v 4) s = .next u ∧ (cqOf u f q).map (fun x => x.head) = some (v % 2 ^ 32)) ∧
  (∀ c, cqOf s f q = some c → (c.posted + 2 ^ 32 - v % 2 ^ 32) % 2 ^ 32 > 2 ^ c.log2 →
    ∃ u, exec (.cqDoorbell f q v 4) s = .next u ∧ u.rd (R.fnStsDberr f) = 1 ∧ u.hqi.cqs = s.hqi.cqs) ∧
  (∀ x, sqOf s f q = some x → fetchTurn s = some (f.val, q) → x.frozenAt = none → mayTake s x = true →
    0 < min x.burst (2 ^ x.log2 - x.head) → ∀ (e : Fetched) (l : List Fetched),
    (ownedByDevice e.sqe = false → ∃ u, exec (.sqFetch f q (e :: l)) s = .next u ∧
      sqOf u f q = some { x with wake := false } ∧ u.hqi.tags = s.hqi.tags) ∧
    (ownedByDevice e.sqe = true → s.rd R.lampCrelC0 = 0 → ∃ u, exec (.sqFetch f q [e]) s = .next u ∧
      (sqOf u f q).map (fun y => (y.head, y.consumed)) = some ((x.head + 1) % 2 ^ x.log2, x.consumed + 1) ∧
      u.rd R.hqiCpiCount = (s.rd R.hqiCpiCount + 1) % 2 ^ 32 ∧
      u.hostOut = s.hostOut ++ [.write f (x.base + 64 * x.head + 63) [0]] ∧
      ∃ v, u.hqi.tags = s.hqi.tags ++ [v] ∧ v.num = freshTag s ∧ v.fn = f ∧ v.sqid = q ∧ v.cid = leAt e.sqe 2 2 ∧ v.aseq = 0)) ∧
  (fetchTurn s = some (f.val, q) → ∃ u, exec (.sqFetchFailed f q) s = .next u ∧
    (sqOf u f q).map (fun x => (x.wake, x.broken)) = some (false, true) ∧ u.rd (R.fnStsQerr f) = 1 ∧
    u.fns[f].errCount = s.fns[f].errCount + 1)

/-- Admission (R308, R309), at the command that gives firmware its records. -/
def Obligations.AdmissionOfCommands : Prop := ∀ (s : State) (count : Nat),
  ((s.rd R.lampCrelC0 = 0 ∨ AllTaken s) →
    ∃ u, exec (.commandRecordConsumed count) s = .next u ∧ u.rd R.hqiCciCount = count % 2 ^ 32 ∧ u.hqi = s.hqi) ∧
  (∀ v, s.hqi.tags.filter unadmitted = [v] → tagOf s v.num = some v → s.rd R.lampCrelC0 = 1 → s.rd R.fltStatFatal = 0 →
    s.rd R.lampStatRecovery = 0 →
    (∀ r, admitChecks s v v.dlen = some r → ∃ u, exec (.commandRecordConsumed count) s = .next u ∧
      u.hqi.aseq = s.hqi.aseq ∧ ∀ w, tagOf u v.num = some w → w.taken = true ∧ w.aseq = 0) ∧
    (admitChecks s v v.dlen = none → v.posNamed = none → pointerOk v = true →
      ∃ u, exec (.commandRecordConsumed count) s = .next u ∧ u.hqi.aseq = s.hqi.aseq + 1 ∧
        (tagOf u v.num).map (fun w => (w.aseq, w.taken, w.done)) = some (s.hqi.aseq, false, false)))

/-- R286 and R287, for a tag `v` whose turn it is. -/
def Obligations.QueueManagement : Prop := ∀ (s : State) (n : Nat) (v : Tag), AllTaken s → v.orphan = false →
  (qmAt s n 1 = some v →
    (createCqCheck s v = none → ∃ u, exec (.createCq n) s = .next u ∧ Ended u n 0 0 ∧
      (cqOf u v.fn (v.csp 32 2)).map (fun c => (c.log2, c.base, c.iv, c.ithr, c.itime, c.hshare, c.ien, c.held)) =
        some (v.csp 34 1, v.daddr, v.csp 36 2, v.csp 38 1, v.csp 39 1, hshareOf v, v.csp 42 1 % 2 == 1, [])) ∧
    (∀ r, createCqCheck s v = some r → ∃ u, exec (.createCq n) s = .next u ∧ Ended u n 1 r ∧ u.hqi.cqs = s.hqi.cqs)) ∧
  (qmAt s n 2 = some v →
    (createSqCheck s v = none → ∃ u, exec (.createSq n) s = .next u ∧ Ended u n 0 0 ∧
      (sqOf u v.fn (v.csp 32 2)).map (fun q => (q.log2, q.base, q.cqid, q.poll, q.burst, q.head, q.frozenAt)) =
        some (v.csp 34 1, v.daddr, v.csp 36 2, v.csp 38 2, burstOf v, 0, none)) ∧
    (∀ r, createSqCheck s v = some r → ∃ u, exec (.createSq n) s = .next u ∧ Ended u n 1 r ∧ u.hqi.sqs = s.hqi.sqs)) ∧
  (∀ headD : Bool, ∀ x, qmAt s n 3 = some v → sqOf s v.fn (v.csp 32 2) = some x → v.csp 32 2 ≠ 0 →
    let busy := headD || s.hqi.tags.any (fun w => w.fn == v.fn && w.sqid == v.csp 32 2 && !w.orphan) ||
      ((cqOf s v.fn x.cqid).map fun c => heldOf c (v.csp 32 2)).getD false
    (busy = false → ∃ u, exec (.destroySq n headD) s = .next u ∧ Ended u n 0 0 ∧ sqOf u v.fn (v.csp 32 2) = none) ∧
    (busy = true → ∃ u, exec (.destroySq n headD) s = .next u ∧ Ended u n 1 0x0101 ∧ u.hqi.sqs = s.hqi.sqs)) ∧
  (∀ c, qmAt s n 4 = some v → cqOf s v.fn (v.csp 32 2) = some c → v.csp 32 2 ≠ 0 →
    let bound := s.hqi.sqs.any fun x => x.fn == v.fn && x.cqid == v.csp 32 2
    (bound = false → c.held = [] → ∃ u, exec (.destroyCq n) s = .next u ∧ Ended u n 0 0 ∧ cqOf u v.fn (v.csp 32 2) = none) ∧
    (bound = true → ∃ u, exec (.destroyCq n) s = .next u ∧ Ended u n 1 0x0107 ∧ u.hqi.cqs = s.hqi.cqs) ∧
    (bound = false → c.held ≠ [] → ∃ u, exec (.destroyCq n) s = .next u ∧ Ended u n 1 0x0101 ∧ u.hqi.cqs = s.hqi.cqs))

/-- R296, R297, R298, R271 and R272, for a tag `v` whose turn it is. -/
def Obligations.ThawAbortAndQuota : Prop := ∀ (s : State) (n : Nat) (v : Tag), AllTaken s → v.orphan = false →
  (∀ (x : SQ) (a : Nat) (l : List (List Byte)), qmAt s n 5 = some v → sqOf s v.fn (v.csp 32 2) = some x →
    x.frozenAt = some a →
    (logRead s v a = true → (bitAt (v.csp 34 1) 0 = true → ∀ e ∈ l.head?, ownedByDevice e = false) →
      ∃ u, exec (.thawQueue n l) s = .next u ∧ Ended u n 0 0 ∧
        sqOf u v.fn (v.csp 32 2) = some { x with frozenAt := none, wake := true }) ∧
    (logRead s v a = false → ∃ u, exec (.thawQueue n l) s = .next u ∧ Ended u n 1 0x010D ∧ u.hqi.sqs = s.hqi.sqs)) ∧
  (qmAt s n 6 = some v →
    let found := s.hqi.tags.find? fun w => w.fn == v.fn && !w.orphan && w.sqid == v.csp 32 2 && w.cid == v.csp 34 2
    (found = none → ∃ u, exec (.abort n) s = .next u ∧ Ended u n 1 0x010F) ∧
    (∀ w, found = some w → w.taken = false → opAbortable w.op = false →
      ∃ u, exec (.abort n) s = .next u ∧ Ended u n 1 0x0110) ∧
    (∀ w, found = some w → w.taken = true → w.aseq = 0 ∨ opAbortable w.op = true →
      ∃ u, exec (.abort n) s = .next u ∧ (tagOf u n).map (fun y => y.abortOf) = some (some (w.num, true))) ∧
    (∀ w, found = some w → tagOf s w.num = some w → w.taken = false → opAbortable w.op = true →
      ∃ u, exec (.abort n) s = .next u ∧
        (tagOf u w.num).map (fun y => (y.aborted, y.done)) = some (true, true) ∧
        (tagOf u n).map (fun y => y.abortOf) = some (some (w.num, false)))) ∧
  (qmAt s n 7 = some v →
    let f := v.csp 32 1
    let ok := 1 ≤ f ∧ f ≤ 15 ∧ s.rd (R.fnCtlEn f) ≠ 1 ∧
      quotaLeaves s R.fnQuotaSqmax 1024 (sqCount s 0) 1 f (v.csp 34 2) = true ∧
      quotaLeaves s R.fnQuotaCqmax 1024 (cqCount s 0) 1 f (v.csp 36 2) = true ∧
      quotaLeaves s R.fnQuotaTags 32768 (tagsOf s 0) 16 f (v.csp 38 2) = true ∧
      quotaLeaves s R.fnQuotaHold 4096 (shareSum s 0) 16 f (v.csp 40 2) = true
    (ok → ∃ u, exec (.quota n) s = .next u ∧ Ended u n 0 0 ∧ u.rd (R.fnQuotaSqmax f) = v.csp 34 2 ∧
      u.rd (R.fnQuotaCqmax f) = v.csp 36 2 ∧ u.rd (R.fnQuotaTags f) = v.csp 38 2 ∧ u.rd (R.fnQuotaHold f) = v.csp 40 2 ∧
      u.rd (R.fnQuotaTags 0) = 32768 - vfSum s R.fnQuotaTags f (v.csp 38 2)) ∧
    (¬ ok → ∃ u, exec (.quota n) s = .next u ∧ Ended u n 1 0x010C ∧ ∀ g : FnIx,
      u.rd (R.fnQuotaSqmax g) = s.rd (R.fnQuotaSqmax g) ∧ u.rd (R.fnQuotaTags g) = s.rd (R.fnQuotaTags g)))

/-- R288, R305, R298, R292, R59 and R301. -/
def Obligations.CompletionsAndHostData : Prop := ∀ (s : State) (n : Nat),
  ((tagOf s n = none ∨ ∃ v, tagOf s n = some v ∧ v.taken = true) → ∃ u, exec (.completionPost n) s = .next u ∧
    u.rd R.hqiPstatResult = 3 ∧ u.hqi = s.hqi) ∧
  (∀ v, tagOf s n = some v → v.taken = false → assignPending s v = true → ∃ u, exec (.completionPost n) s = .next u ∧
    u.hqi = s.hqi) ∧
  (∀ v, tagOf s n = some v → v.taken = false → assignPending s v = false → ∃ u, exec (.completionPost n) s = .next u ∧
    u.rd R.hqiPstatResult = (if v.aborted then 2 else 1) ∧ ∀ w, tagOf u n = some w → w.taken = true) ∧
  (tagOf s n = none → ∃ u, exec (.hqiAbort n) s = .next u ∧ u.rd R.hqiAstatResult = 3 ∧ u.hqi = s.hqi) ∧
  (∀ v, tagOf s n = some v → v.taken = true → ∃ u, exec (.hqiAbort n) s = .next u ∧ u.rd R.hqiAstatResult = 2 ∧
    u.hqi = s.hqi) ∧
  (∀ v, tagOf s n = some v → v.taken = false → ∃ u, exec (.hqiAbort n) s = .next u ∧ u.rd R.hqiAstatResult = 1 ∧
    ∀ w, tagOf u n = some w → w.aborted = true) ∧
  (∀ (f : FnIx) (q : Nat) (c : CQ), cqOf s f q = some c → c.ien = true → c.itime ≠ 0 → c.unsig > 0 →
    s.pins.pwrFail = false → ∃ u, exec (.interruptTimer f q) s = .next u ∧ cqOf u f q = some { c with unsig := 0 } ∧
      (vecMasked s f c.iv = false → u.hostOut = s.hostOut ++ [.msix f c.iv]) ∧
      (vecMasked s f c.iv = true → u.hostOut = s.hostOut ∧ u.fns[f].pendVec.contains c.iv = true)) ∧
  (∀ (f : FnIx) (q : Nat) (c : CQ), cqOf s f q = some c → c.unsig = 0 → ∃ u, exec (.interruptTimer f q) s = .next u ∧
    u.hostOut = s.hostOut ∧ u.hqi = s.hqi) ∧
  (∀ (v : Tag) (p : PosIx) (a len moved : Nat) (force : Bool) (ch : Fin 64) (bytes : List Byte) (tiles : List Nat),
    tagOf s n = some v → v.work = .write p a len moved force → mayTransfer s v = true →
    ∃ u, exec (.hostDataArrival n ch bytes tiles) s = .next u ∧ ∃ k, k ≤ min bytes.length (len - moved) ∧
      (tagOf u n).map (fun w => (w.started, w.work)) = some (true, .write p a len (moved + k) force)) ∧
  (∀ (v : Tag) (ch : Fin 64) (bytes : List Byte) (tiles : List Nat), tagOf s n = some v → mayTransfer s v = false →
    ∃ u, exec (.hostDataArrival n ch bytes tiles) s = .next u ∧ u.hqi = s.hqi ∧ KeepsMem s u) ∧
  (∀ v, tagOf s n = some v → v.done = false → v.orphan = false → v.aseq > 0 → (∀ p, v.work ≠ .inline p) →
    ∃ u, exec (.hostDmaReadError n) s = .next u ∧ Ended u n 5 0x0113)

/-- R332, R333, R331 with R334, and R307, for an admitted command `v` in its tag. -/
def Obligations.LogsEventsPolicyAndGrants : Prop := ∀ (s : State) (n : Nat) (v : Tag), AllTaken s → v.orphan = false →
  (cmdAt s n 8 = some v → ∃ u, exec (.getLog n) s = .next u ∧ Ended u n 0 0 ∧
    u.hostOut = (scatter v.fn v.pieces 0
      (slice (pageBytes s v.fn (v.csp 32 1) ⟨v.csp 33 1 % 8, by omega⟩) (v.csp 36 4) v.dlen) s).hostOut ∧
    (∀ a, v.pieces = [(a, v.dlen)] → 0 < v.dlen → ∃ l, l.length = v.dlen ∧
      u.hostOut = s.hostOut ++ [.write v.fn a l])) ∧
  (cmdAt s n 9 = some v →
    (∀ x l, s.fns[v.fn].changes = x :: l → ∃ u, exec (.eventWait n) s = .next u ∧ Ended u n 0 0 ∧
      u.fns[v.fn].changes = l) ∧
    (s.fns[v.fn].changes = [] → ∃ u, exec (.eventWait n) s = .next u ∧ u.hqi = s.hqi ∧ u.fns = s.fns)) ∧
  (∀ data : List Byte, cmdAt s n 0x0A = some v →
    let l := policyEntries (data.take v.dlen)
    (policyCheck s l = none → ∃ u, exec (.setPolicy n data) s = .next u ∧ Ended u n 0 0 ∧
      (∀ e ∈ l, ∀ q < 8, (policyTable.find? fun x => x.1 == e.1).map (·.2.1) = some false → bitAt e.2.1 q = true →
        u.policyOf e.1 q = e.2.2.2) ∧
      (∀ e ∈ l, (policyTable.find? fun x => x.1 == e.1).map (·.2.1) = some true → u.policyOf e.1 0 = e.2.2.2) ∧
      ∀ id q, (∀ e ∈ l, e.1 ≠ id) → q < 16 → u.policyOf id q = s.policyOf id q) ∧
    (∀ r, policyCheck s l = some r → ∃ u, exec (.setPolicy n data) s = .next u ∧ Ended u n 1 r ∧ u.policy = s.policy)) ∧
  (cmdAt s n 0x0B = some v → ∃ u, exec (.grant n) s = .next u ∧ Ended u n 0 0 ∧
    u.fns[(⟨v.csp 32 1 % 16, by omega⟩ : FnIx)].grant = v.csp 33 1 ∧
    ∀ g : FnIx, g.val ≠ v.csp 32 1 % 16 → u.fns[g] = s.fns[g])

/-- The commands of a pack at the steps where what they do is due. `v`: the command admitted in its tag. -/
def Obligations.PackCommands : Prop := ∀ (s : State) (p : PosIx) (v : Tag), AllTaken s → v.orphan = false →
  posOffered s p = true → tagOf s v.num = some v →
  (∀ img, cmdAt s v.num 0x10 = some v → v.posNamed = some p → s.packs[p].owner ≠ some v.num →
    (s.packs[p].status ≠ .none → ∃ u, exec (.mount v.num img) s = .next u ∧ Ended u v.num 1 0x0410 ∧ u.packs = s.packs) ∧
    (s.packs[p].status = .none → s.rd (R.posCfgPack p) ≠ 1 →
      ∃ u, exec (.mount v.num img) s = .next u ∧ Ended u v.num 1 0x0401 ∧ u.packs = s.packs) ∧
    (s.packs[p].status = .none → s.rd (R.posCfgPack p) = 1 → s.rd (R.posCfgEn p) ≠ 1 →
      ∃ u, exec (.mount v.num img) s = .next u ∧ Ended u v.num 1 0x0404 ∧ u.packs = s.packs) ∧
    (s.packs[p].status = .none → s.rd (R.posCfgPack p) = 1 → s.rd (R.posCfgEn p) = 1 →
      ∃ u, exec (.mount v.num img) s = .next u ∧ u.packs[p].status = .mounting ∧ u.packs[p].owner = some v.num ∧
        u.packs[p].roMount = bitAt (v.csp 33 1) 0)) ∧
  (∀ img, cmdAt s v.num 0x10 = some v → v.posNamed = some p → s.packs[p].owner = some v.num → s.packs[p].recon = true →
    reconciled s.packs[p] = true → ∃ u, exec (.mount v.num img) s = .next u ∧ Ended u v.num 0 0 ∧
      u.packs[p].status = .mounted ∧ u.packs[p].power = 2) ∧
  (packCmd s p 0x11 = some v → s.packs[p].status = .unmounting → s.packs[p].goOff = false → s.rd R.lampCrelC0 = 1 →
    otherTags s p v.num = [] → (s.packs[p].roMount = true ∨
      (s.packs[p].open_ = none ∧ castsLeft s.packs[p] = false ∧ flushed s.packs[p] = true ∧ s.packs[p].san = false)) →
    ∃ u, exec (.unmount p) s = .next u ∧ u.packs[p].casts = [] ∧ Assoc.get p.val u.mtl.keys = none) ∧
  (packCmd s p 0x12 = some v → s.rd R.lampCrelC0 = 1 → v.csp 33 1 = 2 →
    ∃ u, exec (.packPower p) s = .next u ∧ Ended u v.num 0 0 ∧ u.packs[p].floor = v.csp 34 1 ∧
      u.packs[p].power = s.packs[p].power) ∧
  (packCmd s p 0x12 = some v → s.rd R.lampCrelC0 = 1 → v.csp 33 1 = 1 → otherTags s p v.num = [] → streaming s p = false →
    s.packs[p].goPark = false → (s.packs[p].power = 3 → flushed s.packs[p] = true) →
    (s.packs[p].power ≤ v.csp 34 1 → ∃ u, exec (.packPower p) s = .next u ∧ Ended u v.num 0 0 ∧ u.packs = s.packs) ∧
    (s.packs[p].power = 3 → v.csp 34 1 = 2 → ∃ u, exec (.packPower p) s = .next u ∧ Ended u v.num 0 0 ∧
      u.packs[p].power = 2) ∧
    (2 ≤ s.packs[p].power → v.csp 34 1 = 1 → ∃ u, exec (.packPower p) s = .next u ∧
      (u.packs[p].goPark = true ∨ u.packs[p].power ≤ 1))) ∧
  (packCmd s p 0x15 = some v → s.rd R.lampCrelC0 = 1 →
    (∀ e, s.packs[p].uncast.find? (fun e => e.addr == v.csp 32 8 && e.len == v.csp 40 8) = some e →
      ∃ u, exec (.discardRange p) s = .next u ∧ Ended u v.num 0 0 ∧ u.packs[p].uncast = s.packs[p].uncast.erase e) ∧
    (s.packs[p].uncast.find? (fun e => e.addr == v.csp 32 8 && e.len == v.csp 40 8) = none →
      ∃ u, exec (.discardRange p) s = .next u ∧ Ended u v.num 1 0x0212 ∧ u.packs = s.packs)) ∧
  (packCmd s p 0x13 = some v → s.packs[p].status = .mounted → s.packs[p].roMount = false → s.rd R.lampCrelC0 = 1 →
    s.packs[p].fmt = none →
    let known := v.csp 36 8 = 0 ∨ (escrowKey s (v.csp 36 8)).isSome = true
    (¬ known → ∃ u, exec (.format p) s = .next u ∧ Ended u v.num 1 0x0C04 ∧ u.packs = s.packs) ∧
    (known → s.mtl.trngBad = true → ∃ u, exec (.format p) s = .next u ∧ Ended u v.num 6 0x0C08 ∧ u.packs = s.packs) ∧
    (known → s.mtl.trngBad = false → ∃ u, exec (.format p) s = .next u ∧ u.packs[p].fmt = some (0, 0, v.csp 36 8) ∧
      u.packs[p].tag = u.packs[p].uuid % 2 ^ 64 ∧ u.packs[p].owner = some v.num ∧
      ∃ e, u.journal.pend = s.journal.pend ++ [e] ∧ e.seq = s.journal.next ∧
        e.body = .formatStep 0 0 s.packs[p].cardCrc u.packs[p].uuid (v.csp 36 8))) ∧
  (∀ slots : Nat, packCmd s p 0x14 = some v → s.rd R.lampCrelC0 = 1 → s.packs[p].owner ≠ some v.num →
    s.packs[p].keyGone = false → withinRank s p = false → ∃ u, exec (.sanitise p slots) s = .next u ∧
      u.packs[p].keyGone = true ∧ u.packs[p].sanMode = v.csp 33 1 ∧ u.packs[p].casts = [] ∧
      Assoc.get p.val u.mtl.keys = none)

/-- R493, R324, R334, R335, R423, R51, R331 and R505 at an offered position. -/
def Obligations.PackPresenceAndPower : Prop := ∀ (s : State) (p : PosIx), posOffered s p = true →
  (∃ u, exec (.packSeated p) s = .next u ∧ u.rd (R.posCfgPack p) = 1 ∧ u.pins.sense = setBit s.pins.sense p) ∧
  (∃ u, exec (.packRemoved p) s = .next u ∧ u.rd (R.posCfgPack p) = 0 ∧ u.pins.sense = clrBit s.pins.sense p ∧
    (s.packs[p].status ≠ .none → u.rd (R.srvSnuffLatch p) = 1 ∧ u.pos[p].gates = 0 ∧ u.packs[p].status = .none ∧
      Assoc.get p.val u.mtl.keys = none)) ∧
  (posCheck s p = 0 → ∃ u, exec (.positionEnable p true) s = .next u ∧ u.rd (R.posCfgEn p) = 1 ∧ u.rd (R.posChkReason p) = 0) ∧
  (posCheck s p ≠ 0 → ∃ u, exec (.positionEnable p true) s = .next u ∧ u.rd (R.posCfgEn p) = s.rd (R.posCfgEn p) ∧
    u.rd (R.posChkReason p) = posCheck s p) ∧
  (posFree s p = true → ∃ u, exec (.positionEnable p false) s = .next u ∧ u.rd (R.posCfgEn p) = 0) ∧
  (posFree s p = false → ∃ u, exec (.positionEnable p false) s = .next u ∧ u.rd (R.posCfgEn p) = s.rd (R.posCfgEn p) ∧
    u.rd (R.posChkReason p) = 0x030B) ∧
  (s.packs[p].power = 3 → streaming s p = false →
    (flushed s.packs[p] = true → ∃ u, exec (.streamingIdleExpiry p) s = .next u ∧ u.packs[p].power = 2 ∧
      ∀ x ∈ u.stripes, x.p ≠ p) ∧
    (flushed s.packs[p] = false → ∃ u, exec (.streamingIdleExpiry p) s = .next u ∧ u.packs[p].power = 3 ∧
      (s.packs[p].lq ≠ [] → u.packs[p].flushDue = true))) ∧
  (s.packs[p].power = 2 → s.packs[p].floor ≤ 1 → s.policyOf 0x40 p ≠ 0 → s.packs[p].goPark = false →
    ∃ u, exec (.idleParkExpiry p) s = .next u ∧
      (carState s p = carParked ∨ carState s p = carOff → u.packs[p].power = 1) ∧
      (¬ (carState s p = carParked ∨ carState s p = carOff) → u.packs[p].goPark = true)) ∧
  (s.packs[p].power = 1 → s.packs[p].floor = 0 → s.policyOf 0x41 p ≠ 0 → s.packs[p].goOff = false →
    ∃ u, exec (.idleSpindownExpiry p) s = .next u ∧ (u.packs[p].goOff = true ∨ u.packs[p].power = 0)) ∧
  (∀ (layer : Fin 16) (cards : List (List (List Byte))), s.packs[p].status ≠ .none → bitAt s.packs[p].seen layer = false →
    ∃ u, exec (.layerFirstAccess p layer cards) s = .next u ∧ bitAt u.packs[p].seen layer = true ∧
      ((∀ l ∈ cards, ∀ c ∈ l, cardCrcOk c = false) → 0x0804 ∈ u.packs[p].roCauses)) ∧
  (∀ n : Nat, s.packs[p].status = .mounted → s.policyOf 0x30 p ≠ 0 → s.rd R.lampCrelC0 = 1 → s.packs[p].patrolling = none →
    readWaits s = false → s.packs[p].recorded.contains (n / 128) = true → tracking s p = true →
    ∃ u, exec (.patrolRead p n) s = .next u ∧ u.packs[p].patrolling = some n) ∧
  (∀ (pour : Bool) (layer : Fin 16) (es : List EngIx), s.packs[p].status ≠ .none → s.rd R.lampCrelC0 = 1 →
    s.pins.pwrFail = false → streaming s p = false → enginesFree s p es = true →
    (if pour then pourPaused s p else readsPaused s p) = false → tracking s p = true →
    s.rd (R.iglStatSuspend p) = 0 → othersRun s p (fun _ => true) < stripeLimit s →
    (pour = true → s.packs[p].hot = false ∧ s.packs[p].roMount = false ∧ bitAt s.packs[p].opcDone layer = true ∧
      (readWaits s = true → othersRun s p (·.pour) < pourShare s)) →
    ∃ u, exec (.stripeStart p pour layer es) s = .next u ∧ u.packs[p].power = 3 ∧
      ({ p := p, pour := pour, engines := es } : Stripe) ∈ u.stripes ∧ ∀ e ∈ es, u.eng[e].home.map (·.1) = some p)

/-- The ends of the data commands. `v`: the command in its tag, with its work. -/
def Obligations.DataAndCompressionCommands : Prop := ∀ (s : State) (v : Tag), AllTaken s → v.orphan = false →
  tagOf s v.num = some v → s.rd R.lampCrelC0 = 1 →
  (∀ (tiles : List Nat) (p : PosIx) (a len moved : Nat) (force : Bool), v.done = false →
    v.work = .write p a len moved force → v.job = none → v ∈ s.hqi.tags → writeDone s v = true →
    (∀ x ∈ s.hqi.tags, writeFailed s x = false) →
    (v.op = 0x80 → ∃ u, exec (.append v.num tiles) s = .next u ∧ Ended u v.num 0 0) ∧
    (v.op = 0x81 → ∃ u, exec (.place v.num tiles) s = .next u ∧ Ended u v.num 0 0)) ∧
  (∀ (p : PosIx) (a len moved late bad sent : Nat) (verify : Bool), v.aseq > 0 → mayTransfer s v = true →
    s.pins.pwrFail = false → v.work = .read p a len moved verify sent late bad →
    let n := (a + moved) / rankBytes
    let hi := min (a + len) ((n + 1) * rankBytes)
    (firstLost s p (a + moved) hi = some (a + moved) → (a + moved) % 4096 = 0 →
      (v.op = 0x82 → verify = false → v.decomp = false → ∃ u, exec (.read v.num) s = .next u ∧ Ended u v.num 2 0x040B ∧
        u.hostOut = s.hostOut) ∧
      (v.op = 0x83 → verify = true → ∃ u, exec (.verify v.num) s = .next u ∧ Ended u v.num 2 0x040B ∧
        u.hostOut = s.hostOut)) ∧
    (firstLost s p (a + moved) hi = none →
      let cws := rankCws p n ((a + moved) % rankBytes / 4096) ((hi - n * rankBytes + 4095) / 4096) s
      (∀ c ∈ cws.1, ∃ b valid late, c = .ok b valid late) →
      (v.op = 0x82 → verify = false → v.decomp = false →
        let l := ((goodBytes cws.1).flatten.drop ((a + moved) % 4096)).take (hi - (a + moved))
        ∃ u, exec (.read v.num) s = .next u ∧ u.hostOut = (toHost v moved l cws.2).hostOut ∧
          (len ≤ moved + l.length → Ended u v.num 0 0)) ∧
      (v.op = 0x83 → verify = true → ∃ u, exec (.verify v.num) s = .next u ∧ u.hostOut = cws.2.hostOut ∧
        ((tagOf u v.num).map (·.work)) = some (.read p a len (moved + (hi - (a + moved))) true 0 (late + lateCount cws.1) bad) ∧
        (hi = a + len → bad = 0 → Ended u v.num 0 0)))) ∧
  (∀ a : Nat, v.aseq > 0 → v.done = false → goesOn s v = true → v.job = some a →
    let d := s.sramRead a 64
    let made := leAt d 52 4
    let failed := leAt d 58 1 = 3
    let reason := leAt d 60 2
    ∀ c : Instr, (v.op = 0x84 ∧ c = .compress v.num) ∨ (v.op = 0x85 ∧ c = .decompress v.num) →
      (∀ (l : List Byte) (s' : State), readListed (.hqi 0) (jOutList d) made s = (.ok l, s') →
        ∃ u, exec c s = .next u ∧
          u.hostOut = s'.hostOut ++ (if made = 0 then [] else [.write v.fn (v.csp 32 8) (l.take made)]) ∧
          Ended u v.num (if failed then jobClass reason else 0) (if failed then reason else 0)) ∧
      (∀ (r : Nat) (s' : State), readListed (.hqi 0) (jOutList d) made s = (.error r, s') →
        ∃ u, exec c s = .next u ∧ u.hostOut = s'.hostOut ∧ (r < 65536 → Ended u v.num 3 r)))

/-- Table 12.5: the four tile commands, and R354: a use. `inTable`: tile t's seal record lies in SRAM. -/
def Obligations.TileStatesAndUses : Prop :=
  (∀ (s : State) (n : Nat),
    let inTable := sramBase ≤ sealAddr s n ∧ sealAddr s n + 16 ≤ sramBase + sramSize
    (s.rd R.bufTstatBusy ≠ 1 → tileOk s n = true → inTable → (sealGet s n).state = tileFree →
      ∃ t, exec (.tileOpen n) s = .next t ∧ t.rd R.bufTstatResult = 1 ∧ (sealGet t n).state = tileOpen ∧
        (sealGet t n).fill = 0 ∧ (sealGet t n).seal_ = 0) ∧
    (s.rd R.bufTstatBusy ≠ 1 → tileOk s n = true → inTable → (sealGet s n).state ≠ tileFree → (sealGet s n).use = 0 →
      ∃ t, exec (.tileFree n) s = .next t ∧ t.rd R.bufTstatResult = 1 ∧ (sealGet t n).state = tileFree) ∧
    (s.rd R.bufTstatBusy ≠ 1 → tileOk s n = true → inTable → (sealGet s n).state = tileOpen →
      ∃ t, exec (.tileClose n) s = .next t ∧ t.rd R.bufTstatResult = 1 ∧ (sealGet t n).state = tileSealed ∧
        (sealGet t n).fill = 65536) ∧
    (s.rd R.bufTstatBusy ≠ 1 → tileOk s n = true → (sealGet s n).state = tileOpen → (sealGet s n).fill = 0 →
      (sealGet s n).seal_ = 0 → ∃ t, exec (.tileVerify n []) s = .next t ∧ t.rd R.bufTstatResult = 1 ∧ KeepsMem s t) ∧
    (s.rd R.bufTstatBusy ≠ 1 → tileOk s n = true → (sealGet s n).state ≠ tileFree →
      ∃ t, exec (.tileOpen n) s = .next t ∧ t.rd R.bufTstatResult = 2 ∧ KeepsMem s t) ∧
    (s.rd R.bufTstatBusy ≠ 1 → tileOk s n = false → ∀ c ∈ [Instr.tileOpen n, .tileClose n, .tileFree n],
      ∃ t, exec c s = .next t ∧ t.rd R.bufTstatResult = 5 ∧ KeepsMem s t)) ∧
  (∀ (s : State) (who : Requester) (n first count : Nat),
    (tileOk s n = true → (sealGet s n).state = tileOpen → (sealGet s n).fill = 0 → (sealGet s n).seal_ = 0 →
      ∃ t, exec (.tileUse who n 0 0 []) s = .next t ∧ t.resp = .data [] ∧ KeepsMem s t) ∧
    (∀ (l : List Byte) (s' : State), tileOk s n = true → (sealGet s n).state ≠ tileBad → first + count ≤ (sealGet s n).fill →
      tileCheck who n s = (.ok l, s') → sealFold 0 l = (sealGet s n).seal_ ∧
        ∃ t, exec (.tileUse who n first count []) s = .next t ∧ t.resp = .data (slice l first count)) ∧
    (tileOk s n = true → (sealGet s n).state ≠ tileBad → (sealGet s n).fill < first + count →
      ∃ t, exec (.tileUse who n first count []) s = .next t ∧ t.resp = .requestFailed 0x0A0D ∧ KeepsMem s t))

/-- R361, R360 and R357: the buffer comes up, and a device may fail. -/
def Obligations.BufferBringUp : Prop := ∀ s : State,
  (s.rd R.bufCtrlM0Off ≠ 1 → s.rd R.bufCtrlM1Off ≠ 1 → s.rd R.bufCtrlEn ≠ 1 → ∀ a b : Bool,
    ∃ t, exec (.bufEnable a b) s = .next t ∧ t.rd R.bufCtrlEn = 1 ∧ t.rd (R.clkPllLock 3) = 1 ∧
      t.rd (R.clkPllLock 4) = 1 ∧ (a = false → t.rd R.bufStatM0Failed = 1) ∧ (b = false → t.rd R.bufStatM1Failed = 1) ∧
      KeepsMem s t) ∧
  (s.rd R.bufCtrlEn = 1 → ∃ t, exec .bufInit s = .next t ∧ t.rd R.bufStatInitBusy = 1 ∧ t.rd R.bufStatReady = 0 ∧
    (∀ o, o < s.cap → Mem.get t.gddr o = none) ∧ t.sram = s.sram ∧ t.ember = s.ember) ∧
  (s.rd R.bufStatInitBusy = 1 → ∃ t, exec .bufInitDone s = .next t ∧ t.rd R.bufStatReady = 1 ∧ t.rd R.bufStatInitBusy = 0 ∧
    KeepsMem s t) ∧
  (∀ d : DevIx, retraining s d = true → ∃ t, exec (.deviceFailed d) s = .next t ∧ t.rd (failedFld d) = 1 ∧
    retraining t d = false ∧ KeepsMem s t) ∧
  (∀ d : DevIx, ∃ t, exec (.retrainComplete d) s = .next t ∧ retraining t d = false ∧ KeepsMem s t)

/-- R358, step by step. -/
def Obligations.OfflineAndRepair : Prop := ∀ (s : State) (d : DevIx),
  (∃ t, exec (.deviceOffline d) s = .next t ∧ t.rd (offFld d) = 1 ∧ KeepsMem s t) ∧
  (s.rd (offFld d) = 1 → ∃ t, exec (.offlineReached d) s = .next t ∧ t.rd (offlineFld d) = 1 ∧ KeepsMem s t) ∧
  (∀ (hard : Bool) (loc : Nat), s.rd (offlineFld d) = 1 → s.rd (failedFld d) ≠ 1 → s.rd R.bufStatPprBusy ≠ 1 →
    ∃ t, exec (.pprStart d hard loc) s = .next t ∧ t.rd R.bufStatPprBusy = 1 ∧ KeepsMem s t) ∧
  (∀ (hard : Bool) (loc : Nat), s.rd (offlineFld d) ≠ 1 →
    ∃ t, exec (.pprStart d hard loc) s = .next t ∧ t.rd R.bufPprstatResult = 2 ∧
      t.rd R.bufStatPprBusy = s.rd R.bufStatPprBusy ∧ KeepsMem s t) ∧
  (∀ ok : Bool, s.rd R.bufStatPprBusy = 1 → ∃ t, exec (.pprDone ok) s = .next t ∧ t.rd R.bufStatPprBusy = 0 ∧
    t.rd R.bufPprstatResult = (if ok then 1 else 3) ∧ KeepsMem s t) ∧
  (s.rd (offlineFld d) = 1 → s.rd (failedFld d) ≠ 1 → ∃ t, exec (.deviceOnline d) s = .next t ∧ t.rd (offFld d) = 0 ∧
    ∀ o, d.val * s.half ≤ o → o < d.val * s.half + s.half → Mem.get t.gddr o = none) ∧
  (s.rd (offlineFld d) = 1 → s.rd (offFld d) ≠ 1 → s.rd (failedFld d) ≠ 1 →
    ∃ t, exec (.onlineReached d) s = .next t ∧ t.rd (offlineFld d) = 0)

/-- R362 over one line (a longer range repeats it); `o`: the window offset of the line. -/
def Obligations.BufferRangeOperations : Prop := ∀ (s : State) (o : Nat),
  s.rd R.bufStatRangeBusy ≠ 1 → s.rd R.bufRlenLines = 1 → s.rd R.bufRbaseAddr * 64 = winBase + o → s.inData o = true →
  mirrored s o = false →
  (∃ t, exec .vclr s = .next t ∧ t.rd R.bufStatRangeBusy = 1 ∧
    (∀ a, Mem.get t.gddr a = if classV s o = true ∧ o ≤ a ∧ a < o + 64 then none else Mem.get s.gddr a)) ∧
  (∃ t, exec .poison s = .next t ∧ t.rd R.bufStatRangeBusy = 1 ∧
    (∀ a, Mem.get t.gddr a = if classV s o = false ∧ o ≤ a ∧ a < o + 64 then none else Mem.get s.gddr a)) ∧
  (∃ t, exec .scrub s = .next t ∧ t.rd R.bufStatRangeBusy = 1 ∧ KeepsMem s t) ∧
  (∀ s' : State, ∃ t, exec .bufRangeDone s' = .next t ∧ t.rd R.bufStatRangeBusy = 0 ∧ KeepsMem s' t)

/-- R375 and R376: range operations, and R374: the eviction buffer's order. -/
def Obligations.CacheRangeOperations : Prop := ∀ s : State,
  (s.rd R.cchRangeStatBusy ≠ 1 →
    (∃ t, exec (.cchInvalidate true) s = .next t ∧ t.rd R.cchRangeStatBusy = 1 ∧ KeepsMem s t ∧
      slotsIn t winBase (s.cap / 64) = [] ∧
      ∀ e ∈ t.cch.evb, e.line < winBase ∨ winBase + s.cap / 64 * 64 ≤ e.line) ∧
    (∀ all : Bool, ∃ t, exec (.cchClean all) s = .next t ∧ t.rd R.cchRangeStatBusy = 1 ∧ t.sram = s.sram ∧
      t.ember = s.ember ∧ t.cch.evb = s.cch.evb) ∧
    (∀ all : Bool, ∃ t, exec (.cchCleanInv all) s = .next t ∧ t.rd R.cchRangeStatBusy = 1 ∧ t.sram = s.sram ∧
      t.ember = s.ember ∧ t.cch.evb = s.cch.evb ∧ slotsIn t (rangeOf s all).1 (rangeOf s all).2 = []) ∧
    (s.rd R.cchRlenLines = 1 → ∀ cls : Fin 8,
      let a := s.rd R.cchRbaseAddr * 64
      let o := a - winBase
      winBase ≤ a → o < s.cap → s.inData o = true → findLine s a = none → (∀ e ∈ s.cch.evb, e.line ≠ a) →
      (∃ w < 16, bitAt (s.rd (R.cchWaymaskMask cls)) w = true ∧ bitAt (s.rd R.cchLockLock) w = true ∧
        Assoc.get (lineSet a * 16 + w) s.cch.lines = none) →
      devGone s (s.devOf o) = false → scanWords s o 64 = ([], none) →
      ∃ t, exec (.cchLoad cls) s = .next t ∧ t.rd R.cchRangeStatBusy = 1 ∧ t.rd R.cchRangeStatSkip = 0 ∧
        (findLine t a).map (·.2.data) = some (gRead s o 64)) ∧
    (s.rd R.cchRlenLines = 0 → ∀ cls : Fin 8, ∃ t, exec (.cchLoad cls) s = .next t ∧ t.rd R.cchRangeStatBusy = 1 ∧
      t.rd R.cchRcmdClass = cls ∧ t.rd R.cchRangeStatSkip = 0 ∧ t.cch = s.cch ∧ KeepsMem s t)) ∧
  (s.rd R.cchRangeStatBusy = 1 →
    (∀ all : Bool, ∃ t, exec (.cchInvalidate all) s = .next t ∧ t.rd R.cchRangeStatErr = 1 ∧ t.cch = s.cch ∧ KeepsMem s t) ∧
    (∃ t, exec .cchRangeDone s = .next t ∧ t.rd R.cchRangeStatBusy = 0 ∧ t.rd R.cchRangeStatDone = 1 ∧
      (s.cch.evb.length ≤ 32 → t.cch.evb = []))) ∧
  (s.cch.evb = [] → ∃ t, exec .evictionWriteback s = .next t ∧ t.cch = s.cch ∧ KeepsMem s t) ∧
  (∀ (e : EvEntry) (l : List EvEntry), s.cch.evb = e :: l → ∃ t, exec .evictionWriteback s = .next t ∧ t.cch.evb = l ∧
    t.cch.lines = s.cch.lines ∧ t.sram = s.sram ∧ t.ember = s.ember ∧
    (e.data.length = 64 → ∀ i < 64,
      let o := e.line - winBase
      (devGone s (s.devOf o) = false → Mem.get t.gddr (o + i) = some (nth 0 e.data i)) ∧
      (s.devOf o = 0 → mirrored s o = true → devGone s 1 = false →
        Mem.get t.gddr (o + s.half + i) = some (nth 0 e.data i)))) ∧
  (∃ t, exec .cchCounterClear s = .next t ∧ t.rd R.cchEvbHits = 0 ∧ t.rd R.cchEvbStalls = 0 ∧
    (∀ c : Fin 8, t.rd (R.cchHitCount c) = 0 ∧ t.rd (R.cchMissCount c) = 0) ∧ KeepsMem s t)

/-- R405, R399, R398 and R403 for engine `z`; `a`: where the next descriptor stands. -/
def Obligations.CompressionJobs : Prop := ∀ (s : State) (z : CmpIx),
  let a := jobAddr s s.cmp.taken
  let d := s.sramRead a 64
  (∀ count : Nat, ∃ u, exec (.jobSubmit count) s = .next u ∧ u.rd R.cmpJpiCount = count % 2 ^ 32) ∧
  (s.rd R.cmpCtrlEn = 1 → zIdle s z = true → zInService s z = true →
    (s.rd R.cmpJpiCount + 2 ^ 32 - s.cmp.taken % 2 ^ 32) % 2 ^ 32 ≠ 0 →
    sramBase ≤ a → a + 64 ≤ sramBase + sramSize → (∀ i < 8, wordStatAt s (a + 8 * i) ≠ .ue) →
    (∀ r, jobCheck s d = some r → ∃ u, exec (.jobStart z) s = .next u ∧ u.cmp.taken = (s.cmp.taken + 1) % 2 ^ 32 ∧
      u.cmp.jobs = s.cmp.jobs ∧ u.rd R.cmpJdoneCount = (s.rd R.cmpJdoneCount + 1) % 2 ^ 32 ∧ u.rd R.cmpReasonCode = r) ∧
    (jobCheck s d = none → (jOp d = 1 ∧ (jInline d = false ∨ outReady s d = true) ∨ jOp d = 2) → ∃ u, exec (.jobStart z) s = .next u ∧
      u.cmp.taken = (s.cmp.taken + 1) % 2 ^ 32 ∧ bitAt (u.rd R.cmpStatBusy) z = true ∧
      ∃ j, u.cmp.jobs = s.cmp.jobs ++ [j] ∧ j.eng = z ∧ j.addr = a)) ∧
  ((s.rd R.cmpCtrlEn = 0 ∨ (s.rd R.cmpJpiCount + 2 ^ 32 - s.cmp.taken % 2 ^ 32) % 2 ^ 32 = 0) →
    ∃ u, exec (.jobStart z) s = .next u ∧ u.cmp = s.cmp) ∧
  (∀ j, zJob s z = some j → jobHeld s j = false → ∃ u, exec (.jobComplete z) s = .next u ∧ zJob u z = none ∧
    u.rd R.cmpJdoneCount = (s.rd R.cmpJdoneCount + 1) % 2 ^ 32 ∧
    (∀ s' : State, writeListed (.comp z) (jOutList (s.sramRead j.addr 64)) j.out s = (none, s') → sramBase ≤ j.addr →
      j.addr + 64 ≤ sramBase + sramSize → leAt (u.sramRead j.addr 64) 48 4 = j.consumed % 2 ^ 32 ∧
      leAt (u.sramRead j.addr 64) 52 4 = j.produced % 2 ^ 32 ∧ leAt (u.sramRead j.addr 64) 58 1 = j.status % 2 ^ 8)) ∧
  (∀ (j : CmpJob) (sent : Nat), zJob s z = some j → ∃ u, exec (.lockstepMismatch z sent) s = .next u ∧ zJob u z = none ∧
    bitAt (u.rd R.cmpStatFailed) z = true ∧ u.rd R.cmpReasonCode = 0x0B08) ∧
  (∀ (n : Fin 64) (c : CmpCtx) (e : Nat), s.cmp.ctxs.find? (fun x => x.num == n.val) = some c → c.expires = some e →
    resumeHeld s c = false →
    (e ≤ s.tim.local_ → ∃ u, exec (.contextExpiry n) s = .next u ∧ (∀ x ∈ u.cmp.ctxs, x.num ≠ n.val) ∧ u.cmp.jobs = s.cmp.jobs) ∧
    (s.tim.local_ + 10000000 < e → ∃ u, exec (.contextExpiry n) s = .next u ∧ u.cmp = s.cmp))

/-- The loss of each clock source (R406, Table 15.1): what it shows, what it sets, and its reason in CLK_REASON (R427). -/
def Obligations.ClockSourceStops : Prop := ∀ s : State,
  (∃ t, exec .xtalLoss s = .next t ∧ t.rd R.clkSrcXtal = 0 ∧ t.rd R.pwrSafePos = 0xFF ∧ t.rd R.pwrSafeLaser = 1 ∧
    t.rd R.clkReasonCode = 0x0D01 ∧ t.rd R.fltStatFatal = 1 ∧ KeepsMem s t) ∧
  (∃ t, exec .refclkLoss s = .next t ∧ t.rd R.clkSrcRef = 0 ∧ t.hqi.linkUp = false ∧ t.rd R.clkReasonCode = 0x0D07) ∧
  (∃ t, exec .x32Loss s = .next t ∧ t.rd R.clkSrcX32 = 0 ∧ t.rd R.pwrStatRc = 1 ∧ t.rd R.clkReasonCode = 0x0D06 ∧
    KeepsMem s t)

/-- PLL lock and loss (R409): the lock bit, the reason, and the snuff source of a link's PLL. -/
def Obligations.PllLockAndLoss : Prop := ∀ s : State,
  (∀ n : Fin 15, s.rd (R.clkPllLock n) = 1 → ∃ t, exec (.pllLockLoss n) s = .next t ∧ t.rd (R.clkPllLock n) = 0 ∧
    t.rd R.clkReasonCode = 0x0D02) ∧
  (∀ p : PosIx, posOffered s p = true → s.rd (R.clkPllLock (7 + p)) = 1 → ∃ t,
    exec (.pllLockLoss ⟨7 + p, by omega⟩) s = .next t ∧ t.rd (R.srvSnuffLatch p) = 1 ∧ t.pos[p].gates = 0) ∧
  (∀ n : Fin 15, pllWanted s n = true → refPresent s n = true → ∃ t, exec (.pllLock n) s = .next t ∧ t.rd (R.clkPllLock n) = 1)

/-- PWR_ENG and PWR_ENGRDY (R418), CLK_ZEN (R419) and self-refresh. -/
def Obligations.EngineAndCompressionPower : Prop :=
  (∀ s : State,
    (∀ value : Nat, ∃ t, exec (.enginePower value) s = .next t ∧
      (∀ e : EngIx, engOffered s e = true → bitAt value e = true → bitAt (t.rd R.pwrEngOn) e = true) ∧
      (∀ e : EngIx, engOffered s e = true → bitAt value e = false → engHeld s e = false → bitAt (s.rd R.pwrEngOn) e = true →
        bitAt (t.rd R.pwrEngOn) e = false ∧ bitAt (t.rd R.pwrEngrdyRdy) e = false) ∧
      (∀ e : EngIx, engHeld s e = true → bitAt (s.rd R.pwrEngOn) e = true → bitAt (t.rd R.pwrEngOn) e = true) ∧
      (∀ e : EngIx, engOffered s e = false → bitAt (t.rd R.pwrEngOn) e = bitAt (s.rd R.pwrEngOn) e)) ∧
    (∀ e : EngIx, engOffered s e = true → bitAt (s.rd R.pwrEngOn) e = true → s.rd (R.clkPllLock 1) = 1 →
      ∃ t, exec (.engineReady e) s = .next t ∧ bitAt (t.rd R.pwrEngrdyRdy) e = true)) ∧
  (∀ s : State,
    (∀ value : Nat, ∃ t, exec (.compressionClockEnable value) s = .next t ∧
      (∀ z : CmpIx, bitAt value z = true → bitAt (t.rd R.clkZenEn) z = true) ∧
      (∀ z : CmpIx, bitAt value z = false → bitAt (s.rd R.cmpStatBusy) z = false → bitAt (t.rd R.clkZenEn) z = false) ∧
      (∀ z : CmpIx, bitAt (s.rd R.cmpStatBusy) z = true → bitAt (s.rd R.clkZenEn) z = true →
        bitAt (t.rd R.clkZenEn) z = true)) ∧
    (s.rd R.bufCtrlEn = 1 → s.buf.retrain0 = false → s.buf.retrain1 = false → s.waitq = [] →
      ∃ t, exec .selfRefreshEntry s = .next t ∧ t.buf.selfRefresh = true ∧
        (s.rd (R.clkPllForce 3) = 0 → t.rd (R.clkPllLock 3) = 0) ∧ (s.rd (R.clkPllForce 4) = 0 → t.rd (R.clkPllLock 4) = 0) ∧
        KeepsMem s t))

/-- The safe-state latch (R438), LAMP_CREL and the test port. -/
def Obligations.SafeStateCoresAndTestMode : Prop :=
  (∀ s : State,
    (∀ p : PosIx, posOffered s p = true → s.rd R.lampStatRecovery = 0 → s.rd (R.posCfgEn p) = 1 →
      ∃ t, exec (.safeReleasePosition p) s = .next t ∧ bitAt (t.rd R.pwrSafePos) p = false ∧
        (∀ q : PosIx, q ≠ p → bitAt (t.rd R.pwrSafePos) q = bitAt (s.rd R.pwrSafePos) q) ∧ KeepsMem s t) ∧
    (∀ p : PosIx, s.rd (R.posCfgEn p) ≠ 1 → ∃ t, exec (.safeReleasePosition p) s = .next t ∧
      t.rd R.pwrSafePos = s.rd R.pwrSafePos) ∧
    (s.rd R.lampStatRecovery = 0 → s.rd R.pwrSafePos = 0 → ∃ t, exec .safeReleaseLaser s = .next t ∧ t.rd R.pwrSafeLaser = 0 ∧
      KeepsMem s t) ∧
    (s.rd R.pwrSafePos ≠ 0 → ∃ t, exec .safeReleaseLaser s = .next t ∧ t.rd R.pwrSafeLaser = s.rd R.pwrSafeLaser)) ∧
  (∀ s : State,
    (∀ value : Nat, s.rd R.lampCrelC0 = 1 → s.rd R.lampStatRecovery = 0 → ∃ t, exec (.coreRelease value) s = .next t ∧
      t.rd R.lampCrelRel = orBits (s.rd R.lampCrelRel) (value % 32) % 32 ∧ KeepsMem s t) ∧
    (∀ test extest : Bool, ∃ t, exec (.jtagTestMode test extest) s = .next t ∧ t.pins.testMode = test ∧ t.pins.extest = extest ∧
      (t.rd R.clkXstatMode = 1 ↔ s.lamp.started = true ∧ test = false ∧ extest = false)) ∧
    (∃ t, exec .trstAssert s = .next t ∧ t.pins.testMode = false ∧ t.pins.extest = false ∧ t.lamp.dbgSys = false ∧
      t.lamp.dbgCore = false ∧ t.lamp.level = s.lamp.level) ∧
    (∀ x : Int, ∃ t, exec (.thermTjCrossing x) s = .next t ∧ ((s.policyOf 0x61 0 : Int) ≤ x → t.lamp.tjHot = true) ∧
      (x ≤ (s.policyOf 0x61 0 : Int) - 50 → t.lamp.tjHot = false)))

/-- Snapshots of the counters (R379). The operand gives what the cores counted since the command before. -/
def Obligations.PerfSnapshotAndClear : Prop := ∀ s : State,
  (∀ counts : List (List Nat), ∃ t, exec (.perfSnapshot counts) s = .next t ∧
    t.rd R.perfSnapSeq = (s.rd R.perfSnapSeq + 1) % 2 ^ 31 ∧
    (∀ (c : Fin 6) (i : Fin 12),
      t.perf.live[c][i] = min (s.perf.live[c][i] + nth 0 (intervalCounts s.perf.flight[c] (nth [] counts c)) i) (2 ^ 64 - 1) ∧
      t.rd (nth (R.perfCycCyc c) (snapFlds c) i) = t.perf.live[c][i]) ∧ KeepsMem s t) ∧
  (∃ t, exec .perfClear s = .next t ∧ (∀ (c : Fin 6) (i : Fin 12), t.perf.live[c][i] = 0) ∧
    (Settled s → KeepsRegs [] s t) ∧ KeepsMem s t)

/-- Instruction sampling of core c (R381). -/
def Obligations.InstructionSampling : Prop := ∀ (s : State) (c : CoreIx),
  (∀ events : Nat, s.rd (R.perfSmpctlEn c) = 1 → 0 < events → events < s.perf.sample[c].countdown →
    ∃ t, exec (.sampleTrigger c events) s = .next t ∧
      t.perf.sample[c].countdown = s.perf.sample[c].countdown - events ∧ KeepsMem s t) ∧
  (∀ events : Nat, s.rd (R.perfSmpctlEn c) = 1 → 0 < events → s.perf.sample[c].countdown ≤ events →
    s.perf.sample[c].marked = none → ∃ t, exec (.sampleTrigger c events) s = .next t ∧
      t.perf.sample[c].marked = some (s.rd (R.perfSmpctlTrig c)) ∧ KeepsMem s t) ∧
  (∀ (x : SampleRec) (trig : Nat), s.perf.sample[c].marked = some trig →
    (s.rd (R.perfSwpCount c) + 2 ^ 32 - s.rd (R.perfSrpCount c)) % 2 ^ 32 = 2 ^ sampleLog s c →
    ∃ t, exec (.sampleRecord c x) s = .next t ∧ t.rd (R.perfSwpCount c) = s.rd (R.perfSwpCount c) ∧
      t.rd (R.perfSstatDrop c) = min (s.rd (R.perfSstatDrop c) + 1) (2 ^ (R.perfSstatDrop c).w - 1) ∧
      t.perf.sample[c].marked = none ∧ KeepsMem s t) ∧
  (∀ (x : SampleRec) (trig : Nat), s.perf.sample[c].marked = some trig →
    (s.rd (R.perfSwpCount c) + 2 ^ 32 - s.rd (R.perfSrpCount c)) % 2 ^ 32 ≠ 2 ^ sampleLog s c →
    ∃ t, exec (.sampleRecord c x) s = .next t ∧ t.rd (R.perfSwpCount c) = (s.rd (R.perfSwpCount c) + 1) % 2 ^ 32 ∧
      t.perf.sample[c].marked = none ∧
      let b := s.rd (R.perfSbufAddr c) * 4096 + 64 * (s.rd (R.perfSwpCount c) % 2 ^ sampleLog s c)
      (sramBase ≤ b → b + 64 ≤ sramBase + sramSize → t.sramRead b 64 = sampleBytes c trig (s.rd R.timeNowNs) x) ∧
      ∀ a, ¬ (b ≤ a ∧ a < b + 64) → Mem.get t.sram a = Mem.get s.sram a)

/-- R431, R434 and Table 16.1. `Sys`: the system level has been applied. -/
def Obligations.ResetSources : Prop := ∀ s : State,
  let Free := s.lamp.level ≠ some .system ∧ s.lamp.level ≠ some .power ∧ s.lamp.commit = false
  let Cleared := fun (u : State) => u.sram = [] ∧ u.journal.pend = [] ∧ (∀ p : PosIx, u.packs[p].status = .none) ∧
    (∀ f : FnIx, u.rd (R.fnCtlEn f) = 0) ∧ u.hqi.tags = [] ∧ u.rd R.lampCrelC0 = 0
  let Sys := fun (u : State) (cause : Fld) => u.rd cause = 1 ∧ u.lamp.level = some .system ∧ u.lamp.commit = true ∧
    Cleared u ∧ u.rd R.pwrStatEmbkept = 1 ∧ u.hqi.aseq = s.hqi.aseq
  let Core := fun (u : State) (cause : Fld) => u.rd cause = 1 ∧ u.lamp.level = some .core ∧ u.rd R.lampCrelC0 = 0 ∧
    u.rd R.lampCrelRel = 0 ∧ u.rd R.lampStatBootok = 0 ∧ u.lamp.wdRun = false ∧ KeepsMem s u
  (Free → ∃ u, exec .resetPin s = .next u ∧ Sys u R.lampCausePin ∧ u.lamp.pinHeld = true) ∧
  (Free → ∃ u, exec (.softwareSystemReset 0xA5) s = .next u ∧ Sys u R.lampCauseSwsys) ∧
  (Free → ∃ u, exec .mantleFault s = .next u ∧ Sys u R.lampCauseMtl) ∧
  (Free → s.rd R.fltVmonOut ≠ 0 → ∃ u, exec .mainSupplyFault s = .next u ∧ Sys u R.lampCauseMainsup ∧ u.lamp.mainHeld = true) ∧
  (Free → s.rd R.lampOptPerstLvl = 1 → ∃ u, exec .perstAssert s = .next u ∧ Sys u R.lampCausePerst ∧ u.lamp.perstHeld = true) ∧
  (Free → debugOpen s = true → ∃ u, exec (.debugResetRequest true) s = .next u ∧ Sys u R.lampCauseDbg ∧ u.lamp.dbgSys = true) ∧
  (Free → s.pins.pwrFail = true → s.rd R.fltVmonOut = 0 → ∃ u, exec .powerReturn s = .next u ∧ Sys u R.lampCausePfret ∧
    u.pins.pwrFail = false ∧ u.rd R.pwrStatPf = 0) ∧
  (s.lamp.level ≠ some .power → s.lamp.commit = false → ∃ u, exec .powerOnReset s = .next u ∧ u.rd R.lampCausePor = 1 ∧
    u.lamp.level = some .power ∧ u.lamp.porHeld = true ∧ Cleared u ∧ u.hqi.aseq = s.hqi.aseqEnd ∧
    u.journal.next = s.journal.seqEnd ∧ u.flt.nextSeq = s.flt.seqEnd ∧ u.ember = s.ember) ∧
  ((s.lamp.level = none ∨ s.lamp.level = some .core) →
    (∃ u, exec (.softwareCoreReset 0xA5) s = .next u ∧ Core u R.lampCauseSwcore) ∧
    (debugOpen s = true → ∃ u, exec (.debugResetRequest false) s = .next u ∧ Core u R.lampCauseDbg)) ∧
  (∀ key : Nat, key ≠ 0xA5 → (∃ u, exec (.softwareSystemReset key) s = .next u ∧ u.lamp = s.lamp ∧ KeepsMem s u) ∧
    (∃ u, exec (.softwareCoreReset key) s = .next u ∧ u.lamp = s.lamp ∧ KeepsMem s u)) ∧
  (s.rd R.lampOptPerstLvl = 0 → (∃ u, exec .perstAssert s = .next u ∧ u.hqi.linkUp = false ∧ u.pins.perst = true ∧
      u.lamp.level = s.lamp.level ∧ ∀ f : FnIx, u.rd (R.fnCtlEn f) = 0) ∧
    (∃ u, exec .perstRelease s = .next u ∧ u.pins.perst = false ∧ u.lamp = s.lamp)) ∧
  (s.rd R.lampOptPerstLvl = 1 → ∃ u, exec .perstRelease s = .next u ∧ u.lamp = { s.lamp with perstHeld := false }) ∧
  (s.pins.pwrFail = false → ∃ u, exec .powerFail s = .next u ∧ u.pins.pwrFail = true ∧ u.rd R.pwrStatPf = 1 ∧
    (∀ p : PosIx, posOffered s p = true → u.rd (R.srvSnuffLatch p) = 1 ∧ u.pos[p].gates = 0) ∧
    (s.lamp.started = true → u.lamp.commit = true ∧ u.journal.pend = []) ∧
    (s.lamp.started = false → u.lamp.pfHeld = true ∧ u.lamp.waiting = false ∧ u.lamp.level ≠ none)) ∧
  (s.lamp.level = none → s.lamp.commit = true → ∃ u, exec .resetPin s = .next u ∧ u.lamp.level = none ∧
    u.lamp.arrived = some (s.lamp.arrived.getD .system) ∧ u.rd R.lampCausePin = 1)

/-- R434, R437, R440 and R444. -/
def Obligations.StartUpAndWatchdog : Prop := ∀ s : State,
  (∀ cycles : Nat, s.lamp.level = some .system → heldAt (dropHeld .system s) .system = false →
    (s.lamp.commit = false → ∃ u, exec (.resetRelease .system cycles) s = .next u ∧ u.lamp.level = none ∧
      u.lamp.waiting = true ∧ u.rd (R.clkPllLock 0) = 1 ∧ u.rd (R.clkPllLock 5) = 1 ∧
      (optionOk (s.emberRead emberBase 256) = false → 3 ≤ s.lamp.failcnt → u.rd R.lampStatRecovery = 1)) ∧
    (s.lamp.commit = true → ∃ u, exec (.resetRelease .system cycles) s = .next u ∧ u.lamp.level = some .system ∧
      u.lamp.relDue = true)) ∧
  (∀ cycles : Nat, s.lamp.level = some .system → heldAt (dropHeld .core s) .system = true →
    ∃ u, exec (.resetRelease .core cycles) s = .next u ∧ u.lamp.level = some .system) ∧
  (∀ cycles : Nat, s.lamp.level = some .core → heldAt (dropHeld .core s) .core = false →
    ∃ u, exec (.resetRelease .core cycles) s = .next u ∧ u.lamp.level = none ∧ u.lamp.waiting = true) ∧
  (s.lamp.commit = true → s.lamp.arrived = none →
    (s.lamp.relDue = false → ∃ u, exec .emberCommitDone s = .next u ∧ u.lamp = { s.lamp with commit := false }) ∧
    (s.lamp.relDue = true → s.lamp.level = some .system → ∃ u, exec .emberCommitDone s = .next u ∧ u.lamp.level = none ∧
      u.lamp.waiting = true ∧ u.lamp.commit = false)) ∧
  (s.lamp.commit = true → s.lamp.arrived = some .system → s.lamp.level = none → ∃ u, exec .emberCommitDone s = .next u ∧
    u.lamp.level = some .system ∧ u.lamp.arrived = none ∧ u.sram = []) ∧
  (s.lamp.waiting = true → s.lamp.level = none → s.lamp.dbgCore = false → s.pins.pwrFail = false →
    ∃ u, exec .c0Release s = .next u ∧ u.rd R.lampCrelC0 = 1 ∧ u.lamp.waiting = false ∧ u.lamp.started = true ∧
      (u.lamp.deadline = true ↔ s.rd R.lampStatRecovery ≠ 1)) ∧
  (s.lamp.waiting = false → ∃ u, exec .c0Release s = .next u ∧ u.lamp = s.lamp ∧ u.rd R.lampCrelC0 = s.rd R.lampCrelC0) ∧
  (∀ fuses : Nat, s.rd R.lampCrelC0 = 1 → s.rd R.lampStatRecovery = 0 → ∃ u, exec (.bootOk fuses) s = .next u ∧
    u.rd R.lampStatBootok = 1 ∧ u.lamp = { s.lamp with deadline := false, failcnt := 0, trial := false } ∧
    u.rd R.lampStatFailcnt = 0) ∧
  (s.lamp.deadline = true → s.pins.pwrFail = false → s.lamp.level = none → s.lamp.commit = false →
    ∃ u, exec .bootDeadlineExpiry s = .next u ∧
    u.lamp.failcnt = min 15 (s.lamp.failcnt + 1) ∧ u.lamp.trial = false ∧ u.rd R.lampCauseBoottmo = 1 ∧
    u.lamp.pref = (if s.lamp.trial then 1 - s.lamp.pref else s.lamp.pref) ∧ u.lamp.level = some .system) ∧
  (s.lamp.deadline = false ∨ s.pins.pwrFail = true → ∃ u, exec .bootDeadlineExpiry s = .next u ∧ u.lamp = s.lamp ∧ KeepsMem s u) ∧
  (∀ period : Nat, s.rd R.lampWdtEn ≠ 1 → ∃ u, exec (.watchdogEnable period) s = .next u ∧ u.rd R.lampWdtEn = 1 ∧
    u.rd R.lampWdtPeriod = period % 2 ^ 20 ∧ u.lamp.wdStart = s.tim.local_) ∧
  (∀ period : Nat, s.rd R.lampWdtEn = 1 → ∃ u, exec (.watchdogEnable period) s = .next u ∧
    u.rd R.lampWdtPeriod = s.rd R.lampWdtPeriod ∧ u.lamp = s.lamp) ∧
  (s.rd R.lampWdtEn = 1 → s.lamp.wdRun = true →
    (∃ u, exec .watchdogKick s = .next u ∧ u.lamp = { s.lamp with wdStart := s.tim.local_ }) ∧
    (s.lamp.wdStart + watchdogPeriod s ≤ s.tim.local_ → s.lamp.level = none → ∃ u, exec .watchdogExpiry s = .next u ∧
      u.rd R.lampCauseWdt = 1 ∧ u.lamp.level = some .core ∧ u.rd R.lampCrelC0 = 0 ∧ u.lamp.wdRun = false) ∧
    (s.tim.local_ < s.lamp.wdStart + watchdogPeriod s → ∃ u, exec .watchdogExpiry s = .next u ∧ u.lamp = s.lamp ∧
      u.rd R.lampCrelC0 = s.rd R.lampCrelC0))

/-- R442, R443, R445 and R446, for a command `v` in its tag. -/
def Obligations.FirmwareUpdateAndBlockReset : Prop := ∀ (s : State) (n : Nat) (v : Tag),
  (∀ (data : List Byte) (ok : Bool), AllTaken s → v.orphan = false → cmdAt s n 0x20 = some v →
    let d := slice data 0 v.dlen
    let off := v.csp 36 4
    (v.csp 32 1 = 1 → off = 0 → v.dlen = 256 → optionOk d = true → ∃ u, exec (.fwDownload n data ok) s = .next u ∧
      Ended u n 0 0 ∧ u.emberRead emberBase 256 = d) ∧
    (v.csp 32 1 = 1 → off = 0 → v.dlen = 256 → optionOk d = false → ∃ u, exec (.fwDownload n data ok) s = .next u ∧
      Ended u n 1 0x0E08 ∧ u.ember = s.ember) ∧
    (v.csp 32 1 = 0 → off % 4096 = 0 → v.dlen % 4096 = 0 → 4096 ≤ v.dlen → v.dlen ≤ 1048576 → off + v.dlen ≤ 8388608 →
      (off = 0 ∨ s.lamp.dlNext = some off) → ∃ u, exec (.fwDownload n data true) s = .next u ∧ Ended u n 0 0 ∧
        u.lamp.dlNext = some (off + v.dlen) ∧
        flashRead u.lamp.flash (slotBase s (unusedSlot s) + off) v.dlen = d) ∧
    (v.csp 32 1 = 0 → off % 4096 ≠ 0 → ∃ u, exec (.fwDownload n data ok) s = .next u ∧ Ended u n 1 0x0E07 ∧
      u.lamp = s.lamp) ∧
    (1 < v.csp 32 1 → ∃ u, exec (.fwDownload n data ok) s = .next u ∧ Ended u n 1 0x0211 ∧ u.lamp = s.lamp)) ∧
  (AllTaken s → v.orphan = false → cmdAt s n 0x21 = some v → (v.csp 32 1 = 1 ∨ v.csp 32 1 = 2) →
    let slot := unusedSlot s
    let mounted := v.csp 32 1 = 2 ∧ ∃ p : PosIx, s.packs[p].status ≠ .none
    (slotImage s slot = none → ∃ u, exec (.fwActivate n) s = .next u ∧ Ended u n 1 0x0E0C ∧ u.lamp = s.lamp) ∧
    (slotImage s slot ≠ none → mounted → ∃ u, exec (.fwActivate n) s = .next u ∧ Ended u n 1 0x0E05 ∧ u.lamp = s.lamp) ∧
    (slotImage s slot ≠ none → ¬ mounted → ∃ u, exec (.fwActivate n) s = .next u ∧ Ended u n 0 0 ∧ u.lamp.pref = slot ∧
      u.lamp.trial = true ∧ u.lamp.failcnt = 0 ∧ (v.csp 32 1 = 2 → u.lamp.fwact = some n))) ∧
  (s.lamp.fwact = some n → tagOf s n = none → s.lamp.level = none → s.lamp.commit = false →
    ∃ u, exec .fwActivateReset s = .next u ∧ u.rd R.lampCauseFwact = 1 ∧ u.lamp.level = some .system) ∧
  (s.lamp.fwact = none → ∃ u, exec .fwActivateReset s = .next u ∧ u.lamp = s.lamp ∧ KeepsMem s u) ∧
  (∀ (position : Bool) (i : Nat),
    (∀ b, s.rd R.lampBrstatBusy ≠ 1 → blockNamed s position i = some b → ∃ u, exec (.blockReset position i) s = .next u ∧
      u.rd R.lampBrstatBusy = 1 ∧ u.rd R.lampBrstatResult = 0 ∧ u.lamp.blk = some b) ∧
    ((s.rd R.lampBrstatBusy = 1 ∨ blockNamed s position i = none) → ∃ u, exec (.blockReset position i) s = .next u ∧
      u.rd R.lampBrstatResult = 3 ∧ u.rd R.lampBrstatBusy = s.rd R.lampBrstatBusy ∧ u.lamp = s.lamp)) ∧
  (∀ l : List Requester,
    (∀ e : EngIx, s.lamp.blk = some (.engine e) →
      (blockIdle s (.engine e) = true → ∃ u, exec (.blockResetIdle l) s = .next u ∧ u.rd R.lampBrstatResult = 1 ∧
        u.lamp.blk = none ∧ u.lamp.restarting = some (.engine e) ∧ u.eng[e].home = s.eng[e].home ∧
        ∀ r ∈ R.engRegs e, ∀ g ∈ r.flds, u.rd g = g.rst) ∧
      (∃ u, exec (.blockResetTimeout l) s = .next u ∧ u.rd R.lampBrstatResult = 2 ∧ u.lamp.blk = none ∧
        u.lamp.restarting = some (.engine e) ∧ u.rd (R.castStatVerdict e) = 4 ∧ u.rd (R.castStatBusy e) = 0)) ∧
    (∀ p : PosIx, s.lamp.blk = some (.position p) →
      (blockIdle s (.position p) = true → ∃ u, exec (.blockResetIdle l) s = .next u ∧ u.rd R.lampBrstatResult = 1 ∧
        u.lamp.blk = none ∧ u.rd (R.posCfgEn p) = 0 ∧ u.rd (R.srvSnuffLatch p) = 1 ∧ u.pos[p].gates = 0 ∧
        u.packs[p].status = s.packs[p].status ∧ u.packs[p].power = 0) ∧
      (∃ u, exec (.blockResetTimeout l) s = .next u ∧ u.rd R.lampBrstatResult = 2 ∧ u.lamp.blk = none ∧
        u.rd (R.posCfgEn p) = 0 ∧ u.rd (R.srvSnuffLatch p) = 1 ∧ u.packs[p].power = 0)) ∧
    (s.lamp.blk = none → (∃ u, exec (.blockResetIdle l) s = .next u ∧ u.lamp = s.lamp) ∧
      (∃ u, exec (.blockResetTimeout l) s = .next u ∧ u.lamp = s.lamp))) ∧
  (∀ b, s.lamp.restarting = some b → ∃ u, exec .blockRestartDone s = .next u ∧ u.rd R.lampBrstatBusy = 0 ∧
    u.lamp = { s.lamp with restarting := none })

/-- R467, R463, R466, R455, R462 and R458. `p`: the position that argument byte 0 names; `Refused`: the operation ends so. -/
def Obligations.MailboxOperations : Prop := ∀ s : State,
  let p := mailPos (mtlData s)
  let Started := fun (u : State) (op : Nat) => u.rd R.mtlCmdOp = op ∧ u.rd R.mtlStatBusy = 1 ∧ u.rd R.mtlStatResult = 0 ∧
    u.mtl.op ≠ none ∧ KeepsMem s u
  let Refused := fun (u : State) (result reason : Nat) => u.mtl.op.map (fun r => (r.result, r.reason, r.data)) =
    some (result, reason, [])
  (s.rd R.mtlStatBusy = 0 →
    (∃ u, exec .keyNew s = .next u ∧ Started u 1 ∧
      (leAt (mtlData s) 8 8 = 0 → debugOpen s = true → Refused u 2 0x0C06 ∧ u.mtl.keys = s.mtl.keys) ∧
      (leAt (mtlData s) 8 8 = 0 → debugOpen s = false → s.mtl.trngBad = true → Refused u 3 0x0C08) ∧
      (leAt (mtlData s) 8 8 = 0 → debugOpen s = false → s.mtl.trngBad = false →
        (Assoc.get p.val u.mtl.keys).isSome = true ∧ bitAt (u.rd R.mtlKeysLoaded) p = true ∧
        ∀ q : PosIx, q ≠ p → Assoc.get q.val u.mtl.keys = Assoc.get q.val s.mtl.keys)) ∧
    (∃ u, exec .keyUnwrap s = .next u ∧ Started u 2 ∧ (debugOpen s = true → Refused u 2 0x0C06 ∧ u.mtl.keys = s.mtl.keys) ∧
      (∀ k, debugOpen s = false → leAt (slice (mtlData s) 8 96) 0 8 = fingerprint s →
        keyUnwrap kdw (slice (slice (mtlData s) 8 96) 8 40) = some k → Assoc.get p.val u.mtl.keys = some k ∧
        bitAt (u.rd R.mtlKeysLoaded) p = true ∧ u.mtl.op.map (·.result) = some 1)) ∧
    (∃ u, exec .keyDrop s = .next u ∧ Started u 3 ∧ Assoc.get p.val u.mtl.keys = none ∧
      bitAt (u.rd R.mtlKeysLoaded) p = false) ∧
    (∃ u, exec .keyDestroy s = .next u ∧ Started u 4 ∧ u.mtl.keys = s.mtl.keys ∧ (u.mtl.op.bind (·.destroy)) = some p) ∧
    (∃ u, exec .escrowEnroll s = .next u ∧ Started u 5 ∧
      (s.rd R.mtlStatDbgunlk = 0 ∨ s.mtl.byCustomer = false → Refused u 2 0x0C05 ∧ u.mtl.escrow = s.mtl.escrow) ∧
      (s.rd R.mtlStatDbgunlk = 1 → s.mtl.byCustomer = true → (∀ q : PosIx, s.packs[q].status = .none) →
        s.mtl.escrow.length < 4 → u.mtl.escrow = s.mtl.escrow ++ [slice (mtlData s) 0 32])) ∧
    (∃ u, exec .dbgChal s = .next u ∧ Started u 6 ∧ (s.mtl.trngBad = true → Refused u 3 0x0C08) ∧
      (s.mtl.trngBad = false → u.mtl.nonce.map (·.2) = some s.tim.local_)) ∧
    (∃ u, exec .dbgUnlock s = .next u ∧ Started u 7 ∧
      (s.mtl.nonce = none → Refused u 2 0x0C05 ∧ u.rd R.mtlStatDbgunlk = s.rd R.mtlStatDbgunlk) ∧
      (∀ b t, let scope := leAt (mtlData s) 120 1
        s.mtl.nonce = some (b, t) → s.tim.local_ < t + 60000000000 → (scope = 1 ∨ scope = 2) → s.mtl.keys = [] →
        Config.ed448 (if Config.enrolled 3 then 3 else 1) (shake256 64 (b ++ leBytes 8 (fingerprint s) ++ leBytes 1 scope))
          (slice (mtlData s) 0 114) = true →
        u.rd R.mtlStatDbgunlk = 1 ∧ u.mtl.scope = some scope)) ∧
    (∃ u, exec .trng s = .next u ∧ Started u 8 ∧ (1 ≤ leAt (mtlData s) 0 1 → leAt (mtlData s) 0 1 ≤ 64 →
      (s.mtl.trngBad = true → Refused u 3 0x0C08) ∧
      (s.mtl.trngBad = false → u.mtl.op.map (fun r => (r.result, r.data.length)) = some (1, 8 + leAt (mtlData s) 0 1))))) ∧
  (s.rd R.mtlStatBusy = 1 → ∀ c ∈ [Instr.keyNew, .keyUnwrap, .keyDrop, .keyDestroy, .escrowEnroll, .dbgChal, .dbgUnlock, .trng],
    ∃ u, exec c s = .next u ∧ u.rd R.mtlStatErr = 1 ∧ u.mtl = s.mtl) ∧
  (∀ r, s.mtl.op = some r →
    (r.destroy = none → ∃ u, exec .mailboxDone s = .next u ∧ u.rd R.mtlStatResult = r.result % 8 ∧
      u.rd R.mtlStatBusy = 0 ∧ u.mtl.op = none ∧ (r.reason = 0 → u.rd R.mtlReasonCode = s.rd R.mtlReasonCode) ∧
      ∀ i : Fin 32, u.rd (R.mtlDataData i) = leAt r.data (8 * i) 8) ∧
    (∀ q, r.destroy = some q → withinRank s q = true → ∃ u, exec .mailboxDone s = .next u ∧ u.mtl = s.mtl ∧
      u.rd R.mtlStatBusy = s.rd R.mtlStatBusy) ∧
    (∀ q, r.destroy = some q → withinRank s q = false → ∃ u, exec .mailboxDone s = .next u ∧ u.rd R.mtlStatBusy = 0 ∧
      u.mtl.op = none ∧ Assoc.get q.val u.mtl.keys = none ∧ u.packs[q].casts = [])) ∧
  (∀ b t, s.mtl.nonce = some (b, t) → ∃ u, exec .nonceExpiry s = .next u ∧
    (t + 60000000000 ≤ s.tim.local_ → u.mtl.nonce = none) ∧
    (s.tim.local_ < t + 60000000000 → u.mtl.nonce = s.mtl.nonce)) ∧
  (∃ u, exec .trngHealthFail s = .next u ∧ u.rd R.mtlStatTrngerr = 1 ∧ u.mtl = { s.mtl with trngBad := true }) ∧
  (∃ u, exec .trngHealthRecovery s = .next u ∧ u.mtl = { s.mtl with trngBad := false } ∧
    u.rd R.mtlStatTrngerr = s.rd R.mtlStatTrngerr) ∧
  (∀ msg : List Byte, ∃ u, exec (.spdmRequest msg) s = .next u ∧ KeepsMem s u ∧ u.mtl = s.mtl ∧
    ∃ l, u.hostOut = s.hostOut ++ [.spdm l])

/-- R6. `r`: the register at an address of block `h`, of the width of the access; its fields share no place. -/
def Obligations.ReadClearsRcFields : Prop := ∀ (s : State) (r : Reg) (size : Nat), (r.flds.map Fld.key).Nodup →
  (∀ (who : Requester) (h : Home) (a : Nat), (∀ f, who ≠ .host f) → stopped s who = false →
    reaches s who .regs a (.read size) = true → size ≤ 8 → homeOf a = some h → homeOffered s h = true → homePowered s h = true → regExact (homeRegs h a) a size = some r →
    (∀ p, h = .igl p → s.pos[p].igl.events.length ≤ 1) → (h = .sys 5 → s.hqi.events.length ≤ 1) →
    ∃ t, exec (.rcFieldRead who a size) s = .next t ∧ ∀ f ∈ r.flds, f.acc = .rc → t.rd f = 0) ∧
  (∀ (f : FnIx) (o : Nat), o < 0x1000 → regExact (R.fnRegs f) (bar0 f + o) size = some r →
    ∃ t, exec (.rcFieldRead (.host f) o size) s = .next t ∧ ∀ g ∈ r.flds, g.acc = .rc → t.rd g = 0)

/-- R4, R7, R2, R418, R342, R343, R11 and R366. `quiet`: nothing is upset and no error is met. -/
def Obligations.RegisterAndMemoryAccess : Prop := ∀ s : State,
  let quiet : AccessEnv := { upsets := [], crcFails := 0, cacheErr := none, userAllowed := true, prefetch := false }
  (∀ (who : Requester) (h : Home) (a size x : Nat) (r : Reg), (∀ f, who ≠ .host f) → stopped s who = false →
    reaches s who .regs a (.write (leBytes size x)) = true → size ≤ 8 → plainRegister h a = true → homeOf a = some h →
    homeOffered s h = true → homePowered s h = true → regExact (homeRegs h a) a size = some r → x < 256 ^ size →
    regLocked s h a x = false → (r.flds.map Fld.key).Nodup →
    ∃ t, exec (.registerWrite who a size x) s = .next t ∧ t.resp = .written ∧
      ∀ f ∈ r.flds, (∀ p, ∀ g ∈ latchFlds p, f.key ≠ g.key) →
        t.rd f = (if f ∈ ownRow h then s.rd f else f.written (s.rd f) (fieldOperand f x) % 2 ^ f.w)) ∧
  (∀ (c : CoreIx) (p : PosIx) (op : Nat), op < 16 → posOffered s p = true →
    (op = 0 ∨ 5 < op → ∃ t, exec (.registerWrite (.core c) (R.spnCmdOp p).addr 4 op) s = .next t ∧
      t.rd (R.spnStatCmderr p) = 1 ∧ t.rd (R.spnStatState p) = s.rd (R.spnStatState p)) ∧
    (op = 0 ∨ 9 < op → ∃ t, exec (.registerWrite (.core c) (R.carCmdOp p).addr 4 op) s = .next t ∧
      t.rd (R.carStatCmderr p) = 1 ∧ t.rd (R.carReasonCode p) = 0x0708 ∧ t.rd (R.carStatState p) = s.rd (R.carStatState p))) ∧
  (∀ (who : Requester) (a size x : Nat) (env : AccessEnv) (priv : Priv) (acc : Access) (g : Target), (∀ f, who ≠ .host f) →
    let Untouched := fun (t : State) => KeepsMem s t ∧ ∀ f : Fld, (∀ k ∈ logFlds, f.key ≠ k.key) →
      (∀ p, ∀ k ∈ latchFlds p, f.key ≠ k.key) → t.rd f = s.rd f
    (reaches s who .regs a (.write (leBytes size x)) = false →
      ∃ t, exec (.registerWrite who a size x) s = .next t ∧ Untouched t) ∧
    (reaches s who .regs a (.read size) = false → ∃ t, exec (.rcFieldRead who a size) s = .next t ∧ Untouched t) ∧
    ((acc = .zeroLine → a % 64 = 0) → targetOf s a (accSize acc) = some g → reaches s who g a acc = false →
      ∃ t, exec (.fabricAccess who priv a acc env) s = .next t ∧ Untouched t)) ∧
  (∀ (c : CoreIx) (h : Home) (a size x : Nat), size ≤ 8 → homeOf a = some h → homeOffered s h = true → homePowered s h = true →
    regExact (homeRegs h a) a size = none → regsTouched (homeRegs h a) a size ≠ [] →
    (∃ t, exec (.registerWrite (.core c) a size x) s = .next t ∧ t.resp = .busError 0 ∧ KeepsMem s t ∧
      ∀ f : Fld, (∀ p, ∀ g ∈ latchFlds p, f.key ≠ g.key) → t.rd f = s.rd f)) ∧
  (∀ (c : CoreIx) (h : Home) (a size x : Nat), size ≤ 8 → homeOf a = some h → homeOffered s h = false →
    (∃ t, exec (.registerWrite (.core c) a size x) s = .next t ∧ t.resp = .ignored ∧
      ∀ f : Fld, (∀ p, ∀ g ∈ latchFlds p, f.key ≠ g.key) → t.rd f = s.rd f) ∧
    (∃ t, exec (.rcFieldRead (.core c) a size) s = .next t ∧ t.resp = .value 0)) ∧
  (∀ (c : CoreIx) (e : EngIx) (a size x : Nat), size ≤ 8 → homeOf a = some (.eng e) → engOffered s e = true →
    bitAt (s.rd R.pwrEngrdyRdy) e = false → ∃ t, exec (.registerWrite (.core c) a size x) s = .next t ∧
      t.resp = .busError 0x0D04 ∧ t.rd R.clkReasonCode = 0x0D04) ∧
  (∀ (c : CoreIx) (a : Nat) (l : List Byte), sramBase ≤ a → a + l.length ≤ sramBase + sramSize → 0 < l.length →
    (wholeWords a l = true → (wordsOf a l.length).any (inSealTable s) = false →
      ∃ t, exec (.fabricAccess (.core c) .machine a (.write l) quiet) s = .next t ∧ t.resp = .written ∧
        t.sramRead a l.length = l ∧ (∀ b, b < a ∨ a + l.length ≤ b → Mem.get t.sram b = Mem.get s.sram b) ∧
        t.ember = s.ember ∧ t.gddr = s.gddr) ∧
    (wholeWords a l = false → ∃ t, exec (.fabricAccess (.core c) .machine a (.write l) quiet) s = .next t ∧
      t.resp = refusedStore (.core c) 0x0A06 ∧ t.rd R.fltLastReason = 0x0A06 ∧ KeepsMem s t)) ∧
  (∀ (c : CoreIx) (a n : Nat), sramBase ≤ a → a + n ≤ sramBase + sramSize → 0 < n →
    (∀ w ∈ wordsOf a n, wordStatAt s w = .good) →
    ∃ t, exec (.fabricAccess (.core c) .machine a (.read n) quiet) s = .next t ∧ t.resp = .data (s.sramRead a n) ∧
      KeepsMem s t) ∧
  (∀ (c : CoreIx) (priv : Priv) (a : Nat) (acc : Access) (env : AccessEnv), (acc = .zeroLine → a % 64 = 0) →
    targetOf s a (accSize acc) = none →
    ∃ t, exec (.fabricAccess (.core c) priv a acc env) s = .next t ∧ (∃ r, t.resp = .busError r) ∧ KeepsMem s t) ∧
  (∀ (c : CoreIx) (priv : Priv) (a : Nat) (acc : Access) (env : AccessEnv) (g : Target),
    (acc = .zeroLine → a % 64 = 0) → targetOf s a (accSize acc) = some g → reaches s (.core c) g a acc = true → allowed priv g acc env.userAllowed = false →
    ∃ t, exec (.fabricAccess (.core c) priv a acc env) s = .next t ∧ t.resp = .illegalAccess ∧ KeepsMem s t ∧ t.flt = s.flt)

/-- A step runs the front command; the queue is the model's own (log entry 1). -/
def Obligations.StepRunsFront : Prop :=
  (∀ (c : Instr) (rest : List Instr) (s : State), s.pending = c :: rest → step s = exec c { s with pending := rest }) ∧
  (∀ s : State, s.pending = [] → step s = .next s)

/-- What reset leaves (R8, R430); the values of what has no Reset column are the model's choice (log entry 2). -/
def Obligations.ResetState : Prop :=
  (∀ f : Fld, f.key ≠ R.lampCausePor.key → f.key ≠ R.clkSrcX32.key → State.reset.rd f = f.rst) ∧
  State.reset.rd R.lampCausePor = 1 ∧
  (∀ p : PosIx, State.reset.rd (R.srvSnuffLatch p) = 1 ∧ State.reset.rd (R.spnStatState p) = 0 ∧
    State.reset.rd (R.carStatState p) = 0 ∧ State.reset.rd (R.posCfgEn p) = 0 ∧ State.reset.pos[p].gates = 0 ∧
    State.reset.packs[p].status = .none) ∧
  State.reset.rd R.pwrSafePos = 0xFF ∧ State.reset.rd R.pwrSafeLaser = 1 ∧ State.reset.rd R.lampCrelC0 = 0 ∧
  State.reset.rd R.lampCrelRel = 0 ∧ (∀ f : FnIx, State.reset.rd (R.fnCtlEn f) = 0) ∧ State.reset.hqi.tags = [] ∧
  (∀ a, Mem.get State.reset.sram a = none ∧ Mem.get State.reset.ember a = none ∧ Mem.get State.reset.gddr a = none) ∧
  State.reset.pending = []

/-- The invariants of StepKeepsSettled and MemoryStaysCanonical hold at reset. -/
def Obligations.ResetSettled : Prop := Settled State.reset ∧ MemWf State.reset

/-- R83, R85, R166 and R264 as an invariant of every step, over all commands and all states. -/
def Obligations.StepKeepsSettled : Prop := ∀ s : State, s.pending ≠ [] ∨ Settled s → ∃ t, step s = .next t ∧ Settled t

/-- The canonical form is the model's own; what it holds are the memories of R342, R346 and R417. -/
def Obligations.MemoryStaysCanonical : Prop := ∀ s t : State, MemWf s → step s = .next t → MemWf t

/-- For every command that `leavesMemory` lists. -/
def Obligations.MemoryKept : Prop := ∀ (c : Instr) (s t : State), leavesMemory c = true → exec c s = .next t →
  t.sram = s.sram ∧ t.ember = s.ember ∧ t.gddr = s.gddr

/-- For every command that `positionOf` gives a position. -/
def Obligations.PositionIsolation : Prop := ∀ (c : Instr) (p q : PosIx) (s t : State), positionOf c = some p → q ≠ p →
  Settled s → exec c s = .next t →
  t.pos[q] = s.pos[q] ∧ t.packs[q] = s.packs[q] ∧ ∀ f : Fld, f.Proper → f.atPosition q → t.rd f = s.rd f

/-- The frames of register-like commands of positions, packs, BUF, CMP, power, Lamplighter, Mantle and time. -/
def Obligations.ExactFrames : Prop :=
  (∀ p : PosIx,
    (∀ on, Frame (.srvEnable p on) [.pos p] [R.srvCtrlEn p]) ∧
    (∀ f v, Frame (.setpointWrite p f v) [.pos p] [R.srvSpFocus p f, R.srvSpTrack p f, R.srvSpTilt p f]) ∧
    (∀ l m, Frame (.loopModeWrite p l m) [.pos p] [R.loopCtrlMode p l, R.loopFlagsModeerr p l]) ∧
    (∀ l, Frame (.loopGainNow p l) [.pos p] [R.loopFlagsModeerr p l]) ∧
    (∀ l bank n j v, Frame (.loopCoefWrite p l bank n j v) [.pos p]
      [R.loopFlagsBankerr p l, R.loopCoefCoef p l bank n j]) ∧
    (∀ f, Frame (.jumpGo p f) [.pos p] [R.jmpStatResult p f]) ∧ (∀ f, Frame (.jumpAbort p f) [.pos p] []) ∧
    Frame (.snuffClear p) [.pos p] [R.srvSnuffLatch p, R.srvSnuffSeen p] ∧
    Frame (.centrePublish p) [.pos p] [R.srvCentreCentre p] ∧ Frame (.commutation p) [.pos p] [R.spnIphStep p] ∧
    (∀ rpm, Frame (.speedTargetWrite p rpm) [.pos p] [R.spnSpdTarget p]) ∧
    (∀ v, Frame (.carTargetWrite p v) [.pos p]
      [R.carReasonCode p, R.carStatLimclip p, R.carStatSettled p, R.carTgtTgt p]) ∧
    (∀ b level, Frame (.encoderEdge p b level) [.pos p] [R.carPosPos p]) ∧
    Frame (.shockRelease p) [.pins] [R.srvSnuffLive p] ∧
    (∀ on, Frame (.linkEnable p on) [.pos p] [R.iglCtrlEn p, R.iglStatState p, R.iglStatLanes p, R.iglStatDegraded p,
      R.iglStatSuspend p, R.clkPllLock (7 + p)]) ∧
    (∀ x, Frame (.downstreamServoSlot p x) [.pos p] []) ∧ Frame (.pourStreamIdle p) [.pack p] [] ∧
    Frame (.ledgerAgeExpiry p) [.pack p] [] ∧ (∀ n, Frame (.rankIdleExpiry p n) [.pack p] []) ∧
    Frame (.safeReleasePosition p) [] [R.pwrSafePos]) ∧
  (∀ d : DevIx, Frame (.retrainComplete d) [.buf] [] ∧
    ∀ hard loc, Frame (.pprStart d hard loc) []
      [R.bufPprDev, R.bufPprHard, R.bufPprLoc, R.bufStatPprBusy, R.bufPprstatResult]) ∧
  Frame .bufInitDone [] [R.bufStatInitBusy, R.bufStatReady] ∧ Frame .bufRangeDone [] [R.bufStatRangeBusy] ∧
  (∀ n, Frame (.jobSubmit n) [] [R.cmpJpiCount]) ∧ (∀ e, Frame (.engineReady e) [] [R.pwrEngrdyRdy]) ∧
  Frame .safeReleaseLaser [] [R.pwrSafeLaser] ∧ (∀ v, Frame (.coreRelease v) [] [R.lampCrelRel]) ∧
  (∀ x, Frame (.watchdogEnable x) [.lamp] [R.lampWdtPeriod, R.lampWdtEn]) ∧ Frame .watchdogKick [.lamp] [] ∧
  Frame .blockRestartDone [.lamp] [R.lampBrstatBusy] ∧ (∀ x, Frame (.thermTjCrossing x) [.lamp] []) ∧
  (∀ x y, Frame (.jtagTestMode x y) [.pins] [R.clkXstatMode]) ∧ Frame .perfClear [.perf] [] ∧
  Frame .keyDrop [.mtl] [R.mtlCmdOp, R.mtlStatBusy, R.mtlStatErr, R.mtlStatResult, R.mtlKeysLoaded] ∧
  Frame .nonceExpiry [.mtl] [] ∧ Frame .trngHealthFail [.mtl] [R.mtlStatTrngerr] ∧
  Frame .trngHealthRecovery [.mtl] [] ∧ (∀ msg, Frame (.spdmRequest msg) [.hostOut, .freeCtr] []) ∧
  (∀ x, Frame (.timeSetsec x) [.tim] [])
end

