-- ==== Sys2Proof/Laws/Assoc.lean ====
section
/-! SUPPORT. Laws of sparse lists, of the register file and of its reads after writes. -/

namespace Sys2Proof.Machine

theorem Assoc.get_put_same {α : Type} (k : Nat) (v : α) (l : List (Nat × α)) : Assoc.get k (Assoc.put k v l) = some v := by
  induction l with
  | nil => simp [Assoc.put, Assoc.get]
  | cons x t ih =>
    obtain ⟨a, w⟩ := x
    simp only [Assoc.put]
    split
    · simp [Assoc.get]
    · split
      · simp [Assoc.get]
      · rename_i h
        simp [Assoc.get, ih, Ne.symm h]

theorem Assoc.get_put_ne {α : Type} {j k : Nat} (h : j ≠ k) (v : α) (l : List (Nat × α)) :
    Assoc.get j (Assoc.put k v l) = Assoc.get j l := by
  induction l with
  | nil => simp [Assoc.put, Assoc.get, Ne.symm h]
  | cons x t ih =>
    obtain ⟨a, w⟩ := x
    simp only [Assoc.put]
    split
    · simp [Assoc.get, Ne.symm h]
    · split
      · next e => subst e; simp [Assoc.get, Ne.symm h]
      · simp [Assoc.get, ih]

theorem Assoc.get_del_same {α : Type} (k : Nat) (l : List (Nat × α)) : Assoc.get k (Assoc.del k l) = none := by
  induction l with
  | nil => simp [Assoc.del, Assoc.get]
  | cons x t ih =>
    obtain ⟨a, w⟩ := x
    simp only [Assoc.del]
    split
    · exact ih
    · next h => simp [Assoc.get, h, ih]

theorem Assoc.get_del_ne {α : Type} {j k : Nat} (h : j ≠ k) (l : List (Nat × α)) :
    Assoc.get j (Assoc.del k l) = Assoc.get j l := by
  induction l with
  | nil => simp [Assoc.del]
  | cons x t ih =>
    obtain ⟨a, w⟩ := x
    simp only [Assoc.del]
    split
    · next e => subst e; simp [Assoc.get, Ne.symm h, ih]
    · simp [Assoc.get, ih]

/-- A field reads back what was written to it, cut to its width. -/
theorem RegFile.rd_wr_same (r : RegFile) (f : Fld) (v : Nat) : RegFile.rd (RegFile.wr r f v) f = v % 2 ^ f.w := by
  unfold RegFile.rd RegFile.wr
  split
  · next h => simp [Assoc.get_del_same, h]
  · simp [Assoc.get_put_same]

/-- A write to one field leaves every other field alone. -/
theorem RegFile.rd_wr_ne (r : RegFile) {f g : Fld} (v : Nat) (h : f.key ≠ g.key) :
    RegFile.rd (RegFile.wr r g v) f = RegFile.rd r f := by
  unfold RegFile.rd RegFile.wr
  split
  · rw [Assoc.get_del_ne h]
  · rw [Assoc.get_put_ne h]

/-- Every key of a list stands above a bound. -/
def Assoc.above {α : Type} (b : Nat) (l : List (Nat × α)) : Prop := ∀ x ∈ l, b < x.1

theorem Assoc.sorted_cons {α : Type} (x : Nat × α) (l : List (Nat × α)) :
    Assoc.sorted (x :: l) = true ↔ Assoc.above x.1 l ∧ Assoc.sorted l = true := by
  induction l generalizing x with
  | nil => simp [Assoc.sorted, Assoc.above]
  | cons y t ih =>
    obtain ⟨a, v⟩ := x
    obtain ⟨b, w⟩ := y
    simp only [Assoc.sorted, Bool.and_eq_true, decide_eq_true_eq, Assoc.above, List.mem_cons]
    constructor
    · rintro ⟨h1, h2⟩
      refine ⟨?_, h2⟩
      rintro z (rfl | hz)
      · exact h1
      · exact Nat.lt_trans h1 (((ih (b, w)).1 h2).1 z hz)
    · rintro ⟨h1, h2⟩
      exact ⟨h1 _ (.inl rfl), h2⟩

theorem Assoc.mem_put {α : Type} {k : Nat} {v : α} {l : List (Nat × α)} {x : Nat × α} (h : x ∈ Assoc.put k v l) :
    x = (k, v) ∨ x ∈ l := by
  induction l with
  | nil => simp [Assoc.put] at h; exact .inl h
  | cons y t ih =>
    obtain ⟨a, w⟩ := y
    simp only [Assoc.put] at h
    split at h
    · simpa using h
    · split at h
      · rcases List.mem_cons.1 h with h | h
        · exact .inl h
        · exact .inr (List.mem_cons_of_mem _ h)
      · rcases List.mem_cons.1 h with h | h
        · exact .inr (h ▸ List.mem_cons_self)
        · rcases ih h with h | h
          · exact .inl h
          · exact .inr (List.mem_cons_of_mem _ h)

/-- Writing a key keeps the canonical form. -/
theorem Assoc.sorted_put {α : Type} (k : Nat) (v : α) (l : List (Nat × α)) (h : Assoc.sorted l = true) :
    Assoc.sorted (Assoc.put k v l) = true := by
  induction l with
  | nil => simp [Assoc.put, Assoc.sorted]
  | cons y t ih =>
    obtain ⟨a, w⟩ := y
    obtain ⟨h1, h2⟩ := (Assoc.sorted_cons _ _).1 h
    simp only [Assoc.put]
    split
    · next hk =>
      refine (Assoc.sorted_cons _ _).2 ⟨?_, h⟩
      intro x hx
      rcases List.mem_cons.1 hx with rfl | hx
      · exact hk
      · exact Nat.lt_trans hk (h1 x hx)
    · split
      · next e => subst e; exact (Assoc.sorted_cons _ _).2 ⟨h1, h2⟩
      · refine (Assoc.sorted_cons _ _).2 ⟨?_, ih h2⟩
        intro x hx
        rcases Assoc.mem_put hx with rfl | hx
        · simp only; omega
        · exact h1 x hx

theorem Assoc.mem_del {α : Type} {k : Nat} {l : List (Nat × α)} {x : Nat × α} (h : x ∈ Assoc.del k l) : x ∈ l := by
  induction l with
  | nil => exact h
  | cons y t ih =>
    obtain ⟨a, w⟩ := y
    simp only [Assoc.del] at h
    split at h
    · exact List.mem_cons_of_mem _ (ih h)
    · rcases List.mem_cons.1 h with h | h
      · exact h ▸ List.mem_cons_self
      · exact List.mem_cons_of_mem _ (ih h)

/-- Removing a key keeps the canonical form. -/
theorem Assoc.sorted_del {α : Type} (k : Nat) (l : List (Nat × α)) (h : Assoc.sorted l = true) :
    Assoc.sorted (Assoc.del k l) = true := by
  induction l with
  | nil => simp [Assoc.del, Assoc.sorted]
  | cons y t ih =>
    obtain ⟨a, w⟩ := y
    obtain ⟨h1, h2⟩ := (Assoc.sorted_cons _ _).1 h
    simp only [Assoc.del]
    split
    · exact ih h2
    · exact (Assoc.sorted_cons _ _).2 ⟨fun x hx => h1 x (Assoc.mem_del hx), ih h2⟩

/-- Filtering keeps the canonical form. -/
theorem Assoc.sorted_filter {α : Type} (p : Nat × α → Bool) (l : List (Nat × α)) (h : Assoc.sorted l = true) :
    Assoc.sorted (l.filter p) = true := by
  induction l with
  | nil => simp [Assoc.sorted]
  | cons y t ih =>
    obtain ⟨h1, h2⟩ := (Assoc.sorted_cons _ _).1 h
    rw [List.filter_cons]
    split
    · exact (Assoc.sorted_cons _ _).2 ⟨fun x hx => h1 x (List.mem_filter.1 hx).1, ih h2⟩
    · exact ih h2

/-- A field write keeps the register file's keys rising. -/
theorem RegFile.sorted_wr (r : RegFile) (f : Fld) (v : Nat) (h : Assoc.sorted r = true) :
    Assoc.sorted (RegFile.wr r f v) = true := by
  unfold RegFile.wr
  split
  · exact Assoc.sorted_del _ _ h
  · exact Assoc.sorted_put _ _ _ h

end Sys2Proof.Machine
end

