-- ==== Sys2Proof/Laws/Memory.lean ====
section
/-! SUPPORT. Laws of the memories: reads after writes, and the canonical form that every operation keeps. -/

namespace Sys2Proof.Machine

theorem Mem.cells_above (keep : Byte → Bool) (a : Nat) (l : List Byte) :
    ∀ c ∈ Mem.cells keep a l, a ≤ c.1 ∧ c.1 < a + l.length ∧ keep c.2 = true := by
  induction l generalizing a with
  | nil => simp [Mem.cells]
  | cons b t ih =>
    intro c hc
    unfold Mem.cells at hc
    split at hc
    · next hb =>
      rcases List.mem_cons.1 hc with rfl | hc
      · simp [hb]
      · obtain ⟨h1, h2, h3⟩ := ih (a + 1) c hc
        simp only [List.length_cons]
        exact ⟨by omega, by omega, h3⟩
    · obtain ⟨h1, h2, h3⟩ := ih (a + 1) c hc
      simp only [List.length_cons]
      exact ⟨by omega, by omega, h3⟩

theorem Mem.cells_sorted (keep : Byte → Bool) (a : Nat) (l : List Byte) : Assoc.sorted (Mem.cells keep a l) = true := by
  induction l generalizing a with
  | nil => rfl
  | cons b t ih =>
    unfold Mem.cells
    split
    · refine (Assoc.sorted_cons _ _).2 ⟨fun x hx => ?_, ih _⟩
      have := (Mem.cells_above keep (a + 1) t x hx).1
      simp only
      omega
    · exact ih _

theorem Assoc.sorted_append {α : Type} (l r : List (Nat × α)) (hl : Assoc.sorted l = true) (hr : Assoc.sorted r = true)
    (h : ∀ x ∈ l, ∀ y ∈ r, x.1 < y.1) : Assoc.sorted (l ++ r) = true := by
  induction l with
  | nil => exact hr
  | cons x t ih =>
    obtain ⟨h1, h2⟩ := (Assoc.sorted_cons _ _).1 hl
    refine (Assoc.sorted_cons _ _).2 ⟨fun y hy => ?_, ih h2 fun a ha => h a (List.mem_cons_of_mem _ ha)⟩
    rcases List.mem_append.1 hy with hy | hy
    · exact h1 y hy
    · exact h x List.mem_cons_self y hy

/-- A write keeps the canonical form. -/
theorem Mem.wf_put (keep : Byte → Bool) (m : Mem) (a : Nat) (l : List Byte) (h : Mem.wf keep m = true) :
    Mem.wf keep (Mem.put keep m a l) = true := by
  unfold Mem.wf at *
  rw [Bool.and_eq_true, List.all_eq_true] at *
  obtain ⟨hs, hk⟩ := h
  refine ⟨?_, fun c hc => ?_⟩
  · unfold Mem.put
    refine Assoc.sorted_append _ _ (Assoc.sorted_append _ _ (Assoc.sorted_filter _ _ hs) (Mem.cells_sorted _ _ _) ?_)
      (Assoc.sorted_filter _ _ hs) ?_
    · intro x hx y hy
      have h1 := (List.mem_filter.1 hx).2
      have h2 := (Mem.cells_above keep a l y hy).1
      simp only [decide_eq_true_eq] at h1
      omega
    · intro x hx y hy
      have h2 := (List.mem_filter.1 hy).2
      simp only [decide_eq_true_eq] at h2
      rcases List.mem_append.1 hx with hx | hx
      · have h1 := (List.mem_filter.1 hx).2
        simp only [decide_eq_true_eq] at h1
        omega
      · have h1 := (Mem.cells_above keep a l x hx).2.1
        omega
  · unfold Mem.put at hc
    rcases List.mem_append.1 hc with hc | hc
    · rcases List.mem_append.1 hc with hc | hc
      · exact hk c (List.mem_filter.1 hc).1
      · exact (Mem.cells_above keep a l c hc).2.2
    · exact hk c (List.mem_filter.1 hc).1

/-- Dropping a range keeps the canonical form. -/
theorem Mem.wf_drop (keep : Byte → Bool) (m : Mem) (a n : Nat) (h : Mem.wf keep m = true) :
    Mem.wf keep (Mem.drop m a n) = true := by
  unfold Mem.wf at *
  rw [Bool.and_eq_true, List.all_eq_true] at *
  exact ⟨Assoc.sorted_filter _ _ h.1, fun c hc => h.2 c (List.mem_filter.1 hc).1⟩

/-- The writes of SRAM, of the Ember store and of the window keep their memory's canonical form. -/
theorem sramWrite_wf (s : State) (a : Nat) (l : List Byte) (h : Mem.wf nonZero s.sram = true) :
    Mem.wf nonZero (s.sramWrite a l).sram = true := Mem.wf_put _ _ _ _ h
theorem emberWrite_wf (s : State) (a : Nat) (l : List Byte) (h : Mem.wf nonZero s.ember = true) :
    Mem.wf nonZero (s.emberWrite a l).ember = true := Mem.wf_put _ _ _ _ h
theorem gStore_wf (o : Nat) (l : List Byte) (s : State) (h : Mem.wf (fun _ => true) s.gddr = true) :
    Mem.wf (fun _ => true) (gStore o l s).gddr = true := by
  unfold gStore unmark
  refine Mem.wf_put _ _ _ _ ?_
  split
  · exact Mem.wf_put _ _ _ _ h
  · exact h
theorem gPoison_wf (o n : Nat) (s : State) (h : Mem.wf (fun _ => true) s.gddr = true) :
    Mem.wf (fun _ => true) (gPoison o n s).gddr = true := by
  unfold gPoison
  split
  · exact gStore_wf o _ s h
  · exact Mem.wf_drop _ _ _ _ h

/-- Addresses moved by one distance stay in order. -/
theorem Assoc.sorted_shift {α : Type} (src dst : Nat) (l : List (Nat × α)) (hs : Assoc.sorted l = true)
    (h : ∀ x ∈ l, src ≤ x.1) : Assoc.sorted (l.map fun c => (c.1 - src + dst, c.2)) = true := by
  induction l with
  | nil => rfl
  | cons x t ih =>
    obtain ⟨h1, h2⟩ := (Assoc.sorted_cons _ _).1 hs
    refine (Assoc.sorted_cons _ _).2 ⟨fun y hy => ?_, ih h2 fun a ha => h a (List.mem_cons_of_mem _ ha)⟩
    obtain ⟨z, hz, rfl⟩ := List.mem_map.1 hy
    have := h1 z hz
    have := h x List.mem_cons_self
    simp only
    omega

/-- A copy keeps the canonical form. -/
theorem Mem.wf_copy (keep : Byte → Bool) (m : Mem) (src dst n : Nat) (ok : Nat → Bool) (h : Mem.wf keep m = true) :
    Mem.wf keep (Mem.copy m src dst n ok) = true := by
  unfold Mem.wf at *
  rw [Bool.and_eq_true, List.all_eq_true] at *
  obtain ⟨hs, hk⟩ := h
  have mid : ∀ y ∈ (m.filter fun c => src ≤ c.1 && c.1 < src + n && ok c.1).map (fun c => (c.1 - src + dst, c.2)),
      dst ≤ y.1 ∧ y.1 < dst + n ∧ keep y.2 = true := by
    intro y hy
    obtain ⟨z, hz, rfl⟩ := List.mem_map.1 hy
    obtain ⟨hz, hb⟩ := List.mem_filter.1 hz
    simp only [Bool.and_eq_true, decide_eq_true_eq] at hb
    exact ⟨by simp only; omega, by simp only; omega, hk z hz⟩
  refine ⟨?_, fun c hc => ?_⟩
  · unfold Mem.copy
    refine Assoc.sorted_append _ _ (Assoc.sorted_append _ _ (Assoc.sorted_filter _ _ hs)
      (Assoc.sorted_shift _ _ _ (Assoc.sorted_filter _ _ hs) fun x hx => ?_) ?_) (Assoc.sorted_filter _ _ hs) ?_
    · have hb := (List.mem_filter.1 hx).2
      simp only [Bool.and_eq_true, decide_eq_true_eq] at hb
      omega
    · intro x hx y hy
      have h1 := (List.mem_filter.1 hx).2
      have h2 := (mid y hy).1
      simp only [decide_eq_true_eq] at h1
      omega
    · intro x hx y hy
      have h2 := (List.mem_filter.1 hy).2
      simp only [decide_eq_true_eq] at h2
      rcases List.mem_append.1 hx with hx | hx
      · have h1 := (List.mem_filter.1 hx).2
        simp only [decide_eq_true_eq] at h1
        omega
      · have h1 := (mid x hx).2.1
        omega
  · unfold Mem.copy at hc
    rcases List.mem_append.1 hc with hc | hc
    · rcases List.mem_append.1 hc with hc | hc
      · exact hk c (List.mem_filter.1 hc).1
      · exact (mid c hc).2.2
    · exact hk c (List.mem_filter.1 hc).1

theorem gCopy_wf (src dst n : Nat) (s : State) (h : Mem.wf (fun _ => true) s.gddr = true) :
    Mem.wf (fun _ => true) (gCopy src dst n s).gddr = true := by
  have := Mem.wf_copy (fun _ => true) s.gddr src dst n (fun a => Assoc.get (winBase + (a - a % 8)) s.marks != some 2) h
  exact this

theorem Mem.get_append (l r : Mem) (a : Nat) : Mem.get (l ++ r) a = (Mem.get l a).or (Mem.get r a) := by
  unfold Mem.get
  induction l with
  | nil => simp [Assoc.get]
  | cons x t ih =>
    obtain ⟨k, v⟩ := x
    simp only [List.cons_append, Assoc.get]
    split
    · simp
    · exact ih

theorem Mem.get_none {m : Mem} {a : Nat} (h : ∀ c ∈ m, c.1 ≠ a) : Mem.get m a = none := by
  unfold Mem.get
  induction m with
  | nil => rfl
  | cons x t ih =>
    obtain ⟨k, v⟩ := x
    simp only [Assoc.get]
    rw [if_neg (h _ List.mem_cons_self), ih fun c hc => h c (List.mem_cons_of_mem _ hc)]

theorem Mem.get_filter (m : Mem) (p : Nat → Bool) (a : Nat) :
    Mem.get (m.filter fun c => p c.1) a = if p a then Mem.get m a else none := by
  unfold Mem.get
  induction m with
  | nil => simp [Assoc.get]
  | cons x t ih =>
    obtain ⟨k, v⟩ := x
    rw [List.filter_cons]
    by_cases hk : k = a
    · subst hk
      by_cases hp : p k = true
      · simp [hp, Assoc.get]
      · simp [hp] at ih ⊢
        exact ih
    · by_cases hp : p k = true
      · simp [hp, Assoc.get, hk, ih]
      · simp [hp, Assoc.get, hk, ih]

theorem Mem.get_cells (keep : Byte → Bool) (a : Nat) (l : List Byte) (x : Nat) :
    Mem.get (Mem.cells keep a l) x =
      if a ≤ x then (l[x - a]?).filter keep else none := by
  induction l generalizing a with
  | nil => simp [Mem.cells, Mem.get, Assoc.get]
  | cons b t ih =>
    unfold Mem.cells
    by_cases hx : x = a
    · subst hx
      by_cases hb : keep b = true
      · simp [hb, Mem.get, Assoc.get, Option.filter]
      · simp only [hb]
        rw [if_neg (by simp), Mem.get_none]
        · simp [Option.filter, hb]
        · intro c hc
          have := (Mem.cells_above keep (x + 1) t c hc).1
          omega
    · have e : Mem.get (if keep b = true then (a, b) :: Mem.cells keep (a + 1) t else Mem.cells keep (a + 1) t) x =
          Mem.get (Mem.cells keep (a + 1) t) x := by
        split
        · simp [Mem.get, Assoc.get, Ne.symm hx]
        · rfl
      rw [e, ih]
      by_cases hl : a ≤ x
      · have h1 : a + 1 ≤ x := by omega
        have h2 : x - a = (x - (a + 1)) + 1 := by omega
        simp [h1, hl, h2]
      · have h1 : ¬ a + 1 ≤ x := by omega
        simp [h1, hl]

/-- A read after a write: inside the written bytes the byte written where it is listed, outside what stood there. -/
theorem Mem.get_put (keep : Byte → Bool) (m : Mem) (a : Nat) (l : List Byte) (x : Nat) :
    Mem.get (Mem.put keep m a l) x =
      if a ≤ x ∧ x < a + l.length then (l[x - a]?).filter keep else Mem.get m x := by
  unfold Mem.put
  rw [Mem.get_append, Mem.get_append, Mem.get_filter m (fun k => k < a), Mem.get_filter m (fun k => a + l.length ≤ k),
    Mem.get_cells]
  by_cases h1 : x < a
  · have : ¬ a ≤ x := by omega
    have h3 : ¬ a + l.length ≤ x := by omega
    simp [h1, this, h3]
  · have ha : a ≤ x := by omega
    by_cases h2 : x < a + l.length
    · have h3 : ¬ a + l.length ≤ x := by omega
      simp [h1, ha, h2, h3]
    · have h3 : a + l.length ≤ x := by omega
      have h4 : l[x - a]? = none := by
        rw [List.getElem?_eq_none_iff]
        omega
      simp [h1, ha, h2, h3, h4]

end Sys2Proof.Machine
end

