-- ==== Sys2Proof/Laws/State.lean ====
section
/-! SUPPORT. For each update of the state, the fields it leaves alone, and what it makes of the one it changes. -/

namespace Sys2Proof.Machine

variable (s : State)

@[simp] theorem State.set1_eq (f : Fld) : s.set1 f = s.wr f 1 := rfl
@[simp] theorem State.clr1_eq (f : Fld) : s.clr1 f = s.wr f 0 := rfl
@[simp] theorem State.log_eq (a b c d e : Nat) : s.log a b c d e = s.logF a b c 0 d e := rfl

/-- A field just written reads its value, cut to the width. -/
@[simp] theorem State.rd_wr_same (f : Fld) (v : Nat) : (s.wr f v).rd f = v % 2 ^ f.w := RegFile.rd_wr_same _ _ _

/-- A write to another field does not show. -/
theorem State.rd_wr_ne {f g : Fld} (v : Nat) (h : f.key ≠ g.key) : (s.wr g v).rd f = s.rd f := RegFile.rd_wr_ne _ _ h

/-- The record of an event shows in no register but FLT's own. -/
theorem State.rd_logF {f : Fld} (reason source pos flags addr detail : Nat)
    (h : ∀ g ∈ [R.fltStatNew, R.fltSeqSeq, R.fltLastPos, R.fltLastSource, R.fltLastReason], f.key ≠ g.key) :
    (s.logF reason source pos flags addr detail).rd f = s.rd f := by
  simp only [List.mem_cons, forall_eq_or_imp, List.not_mem_nil, false_implies, implies_true, and_true] at h
  obtain ⟨h1, h2, h3, h4, h5⟩ := h
  simp only [State.logF, State.set1_eq]
  rw [State.rd_wr_ne _ _ h5, State.rd_wr_ne _ _ h4, State.rd_wr_ne _ _ h3, State.rd_wr_ne _ _ h2, State.rd_wr_ne _ _ h1]
  rfl

/-- What `wr` leaves alone. -/
@[simp] theorem State.wr_frame (f : Fld) (v : Nat) :
    (s.wr f v).part = s.part ∧ (s.wr f v).sram = s.sram ∧ (s.wr f v).ember = s.ember ∧ (s.wr f v).gddr = s.gddr ∧
    (s.wr f v).marks = s.marks ∧ (s.wr f v).resp = s.resp ∧ (s.wr f v).halted = s.halted ∧ (s.wr f v).waitq = s.waitq
    ∧ (s.wr f v).hostOut = s.hostOut ∧ (s.wr f v).freeCtr = s.freeCtr ∧ (s.wr f v).buf = s.buf ∧ (s.wr f v).cch =
    s.cch ∧ (s.wr f v).perf = s.perf ∧ (s.wr f v).flt = s.flt ∧ (s.wr f v).tim = s.tim ∧ (s.wr f v).pins = s.pins ∧
    (s.wr f v).pos = s.pos ∧ (s.wr f v).spares = s.spares ∧ (s.wr f v).policy = s.policy ∧ (s.wr f v).eng = s.eng ∧
    (s.wr f v).packs = s.packs ∧ (s.wr f v).lists = s.lists ∧ (s.wr f v).stripes = s.stripes ∧ (s.wr f v).journal =
    s.journal ∧ (s.wr f v).hqi = s.hqi ∧ (s.wr f v).fns = s.fns ∧ (s.wr f v).cal = s.cal ∧ (s.wr f v).cmp = s.cmp ∧
    (s.wr f v).mtl = s.mtl ∧ (s.wr f v).lamp = s.lamp ∧ (s.wr f v).pending = s.pending :=
  ⟨rfl, rfl, rfl, rfl, rfl, rfl, rfl, rfl, rfl, rfl, rfl, rfl, rfl, rfl, rfl, rfl, rfl, rfl, rfl, rfl, rfl, rfl, rfl,
  rfl, rfl, rfl, rfl, rfl, rfl, rfl, rfl⟩

/-- What `draw` leaves alone. -/
@[simp] theorem State.draw_frame (site : Nat) :
    ((s.draw site).2).part = s.part ∧ ((s.draw site).2).regs = s.regs ∧ ((s.draw site).2).sram = s.sram ∧ ((s.draw
    site).2).ember = s.ember ∧ ((s.draw site).2).gddr = s.gddr ∧ ((s.draw site).2).marks = s.marks ∧ ((s.draw
    site).2).resp = s.resp ∧ ((s.draw site).2).halted = s.halted ∧ ((s.draw site).2).waitq = s.waitq ∧ ((s.draw
    site).2).hostOut = s.hostOut ∧ ((s.draw site).2).buf = s.buf ∧ ((s.draw site).2).cch = s.cch ∧ ((s.draw
    site).2).perf = s.perf ∧ ((s.draw site).2).flt = s.flt ∧ ((s.draw site).2).tim = s.tim ∧ ((s.draw site).2).pins =
    s.pins ∧ ((s.draw site).2).pos = s.pos ∧ ((s.draw site).2).spares = s.spares ∧ ((s.draw site).2).policy = s.policy
    ∧ ((s.draw site).2).eng = s.eng ∧ ((s.draw site).2).packs = s.packs ∧ ((s.draw site).2).lists = s.lists ∧ ((s.draw
    site).2).stripes = s.stripes ∧ ((s.draw site).2).journal = s.journal ∧ ((s.draw site).2).hqi = s.hqi ∧ ((s.draw
    site).2).fns = s.fns ∧ ((s.draw site).2).cal = s.cal ∧ ((s.draw site).2).cmp = s.cmp ∧ ((s.draw site).2).mtl =
    s.mtl ∧ ((s.draw site).2).lamp = s.lamp ∧ ((s.draw site).2).pending = s.pending ∧ ∀ x, ((s.draw site).2).rd x =
    s.rd x :=
  ⟨rfl, rfl, rfl, rfl, rfl, rfl, rfl, rfl, rfl, rfl, rfl, rfl, rfl, rfl, rfl, rfl, rfl, rfl, rfl, rfl, rfl, rfl, rfl,
  rfl, rfl, rfl, rfl, rfl, rfl, rfl, rfl, fun _ => rfl⟩

/-- What `updPos` leaves alone. -/
@[simp] theorem State.updPos_frame (p : PosIx) (g : PosState → PosState) :
    (s.updPos p g).part = s.part ∧ (s.updPos p g).regs = s.regs ∧ (s.updPos p g).sram = s.sram ∧ (s.updPos p g).ember
    = s.ember ∧ (s.updPos p g).gddr = s.gddr ∧ (s.updPos p g).marks = s.marks ∧ (s.updPos p g).resp = s.resp ∧
    (s.updPos p g).halted = s.halted ∧ (s.updPos p g).waitq = s.waitq ∧ (s.updPos p g).hostOut = s.hostOut ∧ (s.updPos
    p g).freeCtr = s.freeCtr ∧ (s.updPos p g).buf = s.buf ∧ (s.updPos p g).cch = s.cch ∧ (s.updPos p g).perf = s.perf
    ∧ (s.updPos p g).flt = s.flt ∧ (s.updPos p g).tim = s.tim ∧ (s.updPos p g).pins = s.pins ∧ (s.updPos p g).spares =
    s.spares ∧ (s.updPos p g).policy = s.policy ∧ (s.updPos p g).eng = s.eng ∧ (s.updPos p g).packs = s.packs ∧
    (s.updPos p g).lists = s.lists ∧ (s.updPos p g).stripes = s.stripes ∧ (s.updPos p g).journal = s.journal ∧
    (s.updPos p g).hqi = s.hqi ∧ (s.updPos p g).fns = s.fns ∧ (s.updPos p g).cal = s.cal ∧ (s.updPos p g).cmp = s.cmp
    ∧ (s.updPos p g).mtl = s.mtl ∧ (s.updPos p g).lamp = s.lamp ∧ (s.updPos p g).pending = s.pending ∧ ∀ x, (s.updPos
    p g).rd x = s.rd x :=
  ⟨rfl, rfl, rfl, rfl, rfl, rfl, rfl, rfl, rfl, rfl, rfl, rfl, rfl, rfl, rfl, rfl, rfl, rfl, rfl, rfl, rfl, rfl, rfl,
  rfl, rfl, rfl, rfl, rfl, rfl, rfl, rfl, fun _ => rfl⟩

/-- What `updSpn` leaves alone. -/
@[simp] theorem State.updSpn_frame (p : PosIx) (g : SpnState → SpnState) :
    (s.updSpn p g).part = s.part ∧ (s.updSpn p g).regs = s.regs ∧ (s.updSpn p g).sram = s.sram ∧ (s.updSpn p g).ember
    = s.ember ∧ (s.updSpn p g).gddr = s.gddr ∧ (s.updSpn p g).marks = s.marks ∧ (s.updSpn p g).resp = s.resp ∧
    (s.updSpn p g).halted = s.halted ∧ (s.updSpn p g).waitq = s.waitq ∧ (s.updSpn p g).hostOut = s.hostOut ∧ (s.updSpn
    p g).freeCtr = s.freeCtr ∧ (s.updSpn p g).buf = s.buf ∧ (s.updSpn p g).cch = s.cch ∧ (s.updSpn p g).perf = s.perf
    ∧ (s.updSpn p g).flt = s.flt ∧ (s.updSpn p g).tim = s.tim ∧ (s.updSpn p g).pins = s.pins ∧ (s.updSpn p g).spares =
    s.spares ∧ (s.updSpn p g).policy = s.policy ∧ (s.updSpn p g).eng = s.eng ∧ (s.updSpn p g).packs = s.packs ∧
    (s.updSpn p g).lists = s.lists ∧ (s.updSpn p g).stripes = s.stripes ∧ (s.updSpn p g).journal = s.journal ∧
    (s.updSpn p g).hqi = s.hqi ∧ (s.updSpn p g).fns = s.fns ∧ (s.updSpn p g).cal = s.cal ∧ (s.updSpn p g).cmp = s.cmp
    ∧ (s.updSpn p g).mtl = s.mtl ∧ (s.updSpn p g).lamp = s.lamp ∧ (s.updSpn p g).pending = s.pending ∧ ∀ x, (s.updSpn
    p g).rd x = s.rd x :=
  ⟨rfl, rfl, rfl, rfl, rfl, rfl, rfl, rfl, rfl, rfl, rfl, rfl, rfl, rfl, rfl, rfl, rfl, rfl, rfl, rfl, rfl, rfl, rfl,
  rfl, rfl, rfl, rfl, rfl, rfl, rfl, rfl, fun _ => rfl⟩

/-- What `updCar` leaves alone. -/
@[simp] theorem State.updCar_frame (p : PosIx) (g : CarState → CarState) :
    (s.updCar p g).part = s.part ∧ (s.updCar p g).regs = s.regs ∧ (s.updCar p g).sram = s.sram ∧ (s.updCar p g).ember
    = s.ember ∧ (s.updCar p g).gddr = s.gddr ∧ (s.updCar p g).marks = s.marks ∧ (s.updCar p g).resp = s.resp ∧
    (s.updCar p g).halted = s.halted ∧ (s.updCar p g).waitq = s.waitq ∧ (s.updCar p g).hostOut = s.hostOut ∧ (s.updCar
    p g).freeCtr = s.freeCtr ∧ (s.updCar p g).buf = s.buf ∧ (s.updCar p g).cch = s.cch ∧ (s.updCar p g).perf = s.perf
    ∧ (s.updCar p g).flt = s.flt ∧ (s.updCar p g).tim = s.tim ∧ (s.updCar p g).pins = s.pins ∧ (s.updCar p g).spares =
    s.spares ∧ (s.updCar p g).policy = s.policy ∧ (s.updCar p g).eng = s.eng ∧ (s.updCar p g).packs = s.packs ∧
    (s.updCar p g).lists = s.lists ∧ (s.updCar p g).stripes = s.stripes ∧ (s.updCar p g).journal = s.journal ∧
    (s.updCar p g).hqi = s.hqi ∧ (s.updCar p g).fns = s.fns ∧ (s.updCar p g).cal = s.cal ∧ (s.updCar p g).cmp = s.cmp
    ∧ (s.updCar p g).mtl = s.mtl ∧ (s.updCar p g).lamp = s.lamp ∧ (s.updCar p g).pending = s.pending ∧ ∀ x, (s.updCar
    p g).rd x = s.rd x :=
  ⟨rfl, rfl, rfl, rfl, rfl, rfl, rfl, rfl, rfl, rfl, rfl, rfl, rfl, rfl, rfl, rfl, rfl, rfl, rfl, rfl, rfl, rfl, rfl,
  rfl, rfl, rfl, rfl, rfl, rfl, rfl, rfl, fun _ => rfl⟩

/-- What `updSrv` leaves alone. -/
@[simp] theorem State.updSrv_frame (p : PosIx) (g : SrvState → SrvState) :
    (s.updSrv p g).part = s.part ∧ (s.updSrv p g).regs = s.regs ∧ (s.updSrv p g).sram = s.sram ∧ (s.updSrv p g).ember
    = s.ember ∧ (s.updSrv p g).gddr = s.gddr ∧ (s.updSrv p g).marks = s.marks ∧ (s.updSrv p g).resp = s.resp ∧
    (s.updSrv p g).halted = s.halted ∧ (s.updSrv p g).waitq = s.waitq ∧ (s.updSrv p g).hostOut = s.hostOut ∧ (s.updSrv
    p g).freeCtr = s.freeCtr ∧ (s.updSrv p g).buf = s.buf ∧ (s.updSrv p g).cch = s.cch ∧ (s.updSrv p g).perf = s.perf
    ∧ (s.updSrv p g).flt = s.flt ∧ (s.updSrv p g).tim = s.tim ∧ (s.updSrv p g).pins = s.pins ∧ (s.updSrv p g).spares =
    s.spares ∧ (s.updSrv p g).policy = s.policy ∧ (s.updSrv p g).eng = s.eng ∧ (s.updSrv p g).packs = s.packs ∧
    (s.updSrv p g).lists = s.lists ∧ (s.updSrv p g).stripes = s.stripes ∧ (s.updSrv p g).journal = s.journal ∧
    (s.updSrv p g).hqi = s.hqi ∧ (s.updSrv p g).fns = s.fns ∧ (s.updSrv p g).cal = s.cal ∧ (s.updSrv p g).cmp = s.cmp
    ∧ (s.updSrv p g).mtl = s.mtl ∧ (s.updSrv p g).lamp = s.lamp ∧ (s.updSrv p g).pending = s.pending ∧ ∀ x, (s.updSrv
    p g).rd x = s.rd x :=
  ⟨rfl, rfl, rfl, rfl, rfl, rfl, rfl, rfl, rfl, rfl, rfl, rfl, rfl, rfl, rfl, rfl, rfl, rfl, rfl, rfl, rfl, rfl, rfl,
  rfl, rfl, rfl, rfl, rfl, rfl, rfl, rfl, fun _ => rfl⟩

/-- What `updIgl` leaves alone. -/
@[simp] theorem State.updIgl_frame (p : PosIx) (g : IglState → IglState) :
    (s.updIgl p g).part = s.part ∧ (s.updIgl p g).regs = s.regs ∧ (s.updIgl p g).sram = s.sram ∧ (s.updIgl p g).ember
    = s.ember ∧ (s.updIgl p g).gddr = s.gddr ∧ (s.updIgl p g).marks = s.marks ∧ (s.updIgl p g).resp = s.resp ∧
    (s.updIgl p g).halted = s.halted ∧ (s.updIgl p g).waitq = s.waitq ∧ (s.updIgl p g).hostOut = s.hostOut ∧ (s.updIgl
    p g).freeCtr = s.freeCtr ∧ (s.updIgl p g).buf = s.buf ∧ (s.updIgl p g).cch = s.cch ∧ (s.updIgl p g).perf = s.perf
    ∧ (s.updIgl p g).flt = s.flt ∧ (s.updIgl p g).tim = s.tim ∧ (s.updIgl p g).pins = s.pins ∧ (s.updIgl p g).spares =
    s.spares ∧ (s.updIgl p g).policy = s.policy ∧ (s.updIgl p g).eng = s.eng ∧ (s.updIgl p g).packs = s.packs ∧
    (s.updIgl p g).lists = s.lists ∧ (s.updIgl p g).stripes = s.stripes ∧ (s.updIgl p g).journal = s.journal ∧
    (s.updIgl p g).hqi = s.hqi ∧ (s.updIgl p g).fns = s.fns ∧ (s.updIgl p g).cal = s.cal ∧ (s.updIgl p g).cmp = s.cmp
    ∧ (s.updIgl p g).mtl = s.mtl ∧ (s.updIgl p g).lamp = s.lamp ∧ (s.updIgl p g).pending = s.pending ∧ ∀ x, (s.updIgl
    p g).rd x = s.rd x :=
  ⟨rfl, rfl, rfl, rfl, rfl, rfl, rfl, rfl, rfl, rfl, rfl, rfl, rfl, rfl, rfl, rfl, rfl, rfl, rfl, rfl, rfl, rfl, rfl,
  rfl, rfl, rfl, rfl, rfl, rfl, rfl, rfl, fun _ => rfl⟩

/-- What `updTx` leaves alone. -/
@[simp] theorem State.updTx_frame (p : PosIx) (g : TxState → TxState) :
    (s.updTx p g).part = s.part ∧ (s.updTx p g).regs = s.regs ∧ (s.updTx p g).sram = s.sram ∧ (s.updTx p g).ember =
    s.ember ∧ (s.updTx p g).gddr = s.gddr ∧ (s.updTx p g).marks = s.marks ∧ (s.updTx p g).resp = s.resp ∧ (s.updTx p
    g).halted = s.halted ∧ (s.updTx p g).waitq = s.waitq ∧ (s.updTx p g).hostOut = s.hostOut ∧ (s.updTx p g).freeCtr =
    s.freeCtr ∧ (s.updTx p g).buf = s.buf ∧ (s.updTx p g).cch = s.cch ∧ (s.updTx p g).perf = s.perf ∧ (s.updTx p
    g).flt = s.flt ∧ (s.updTx p g).tim = s.tim ∧ (s.updTx p g).pins = s.pins ∧ (s.updTx p g).spares = s.spares ∧
    (s.updTx p g).policy = s.policy ∧ (s.updTx p g).eng = s.eng ∧ (s.updTx p g).packs = s.packs ∧ (s.updTx p g).lists
    = s.lists ∧ (s.updTx p g).stripes = s.stripes ∧ (s.updTx p g).journal = s.journal ∧ (s.updTx p g).hqi = s.hqi ∧
    (s.updTx p g).fns = s.fns ∧ (s.updTx p g).cal = s.cal ∧ (s.updTx p g).cmp = s.cmp ∧ (s.updTx p g).mtl = s.mtl ∧
    (s.updTx p g).lamp = s.lamp ∧ (s.updTx p g).pending = s.pending ∧ ∀ x, (s.updTx p g).rd x = s.rd x :=
  ⟨rfl, rfl, rfl, rfl, rfl, rfl, rfl, rfl, rfl, rfl, rfl, rfl, rfl, rfl, rfl, rfl, rfl, rfl, rfl, rfl, rfl, rfl, rfl,
  rfl, rfl, rfl, rfl, rfl, rfl, rfl, rfl, fun _ => rfl⟩

/-- What `updPf8` leaves alone. -/
@[simp] theorem State.updPf8_frame (p : PosIx) (g : Pf8State → Pf8State) :
    (s.updPf8 p g).part = s.part ∧ (s.updPf8 p g).regs = s.regs ∧ (s.updPf8 p g).sram = s.sram ∧ (s.updPf8 p g).ember
    = s.ember ∧ (s.updPf8 p g).gddr = s.gddr ∧ (s.updPf8 p g).marks = s.marks ∧ (s.updPf8 p g).resp = s.resp ∧
    (s.updPf8 p g).halted = s.halted ∧ (s.updPf8 p g).waitq = s.waitq ∧ (s.updPf8 p g).hostOut = s.hostOut ∧ (s.updPf8
    p g).freeCtr = s.freeCtr ∧ (s.updPf8 p g).buf = s.buf ∧ (s.updPf8 p g).cch = s.cch ∧ (s.updPf8 p g).perf = s.perf
    ∧ (s.updPf8 p g).flt = s.flt ∧ (s.updPf8 p g).tim = s.tim ∧ (s.updPf8 p g).pins = s.pins ∧ (s.updPf8 p g).spares =
    s.spares ∧ (s.updPf8 p g).policy = s.policy ∧ (s.updPf8 p g).eng = s.eng ∧ (s.updPf8 p g).packs = s.packs ∧
    (s.updPf8 p g).lists = s.lists ∧ (s.updPf8 p g).stripes = s.stripes ∧ (s.updPf8 p g).journal = s.journal ∧
    (s.updPf8 p g).hqi = s.hqi ∧ (s.updPf8 p g).fns = s.fns ∧ (s.updPf8 p g).cal = s.cal ∧ (s.updPf8 p g).cmp = s.cmp
    ∧ (s.updPf8 p g).mtl = s.mtl ∧ (s.updPf8 p g).lamp = s.lamp ∧ (s.updPf8 p g).pending = s.pending ∧ ∀ x, (s.updPf8
    p g).rd x = s.rd x :=
  ⟨rfl, rfl, rfl, rfl, rfl, rfl, rfl, rfl, rfl, rfl, rfl, rfl, rfl, rfl, rfl, rfl, rfl, rfl, rfl, rfl, rfl, rfl, rfl,
  rfl, rfl, rfl, rfl, rfl, rfl, rfl, rfl, fun _ => rfl⟩

/-- What `updHqi` leaves alone. -/
@[simp] theorem State.updHqi_frame (g : HqiState → HqiState) :
    (s.updHqi g).part = s.part ∧ (s.updHqi g).regs = s.regs ∧ (s.updHqi g).sram = s.sram ∧ (s.updHqi g).ember =
    s.ember ∧ (s.updHqi g).gddr = s.gddr ∧ (s.updHqi g).marks = s.marks ∧ (s.updHqi g).resp = s.resp ∧ (s.updHqi
    g).halted = s.halted ∧ (s.updHqi g).waitq = s.waitq ∧ (s.updHqi g).hostOut = s.hostOut ∧ (s.updHqi g).freeCtr =
    s.freeCtr ∧ (s.updHqi g).buf = s.buf ∧ (s.updHqi g).cch = s.cch ∧ (s.updHqi g).perf = s.perf ∧ (s.updHqi g).flt =
    s.flt ∧ (s.updHqi g).tim = s.tim ∧ (s.updHqi g).pins = s.pins ∧ (s.updHqi g).pos = s.pos ∧ (s.updHqi g).spares =
    s.spares ∧ (s.updHqi g).policy = s.policy ∧ (s.updHqi g).eng = s.eng ∧ (s.updHqi g).packs = s.packs ∧ (s.updHqi
    g).lists = s.lists ∧ (s.updHqi g).stripes = s.stripes ∧ (s.updHqi g).journal = s.journal ∧ (s.updHqi g).fns =
    s.fns ∧ (s.updHqi g).cal = s.cal ∧ (s.updHqi g).cmp = s.cmp ∧ (s.updHqi g).mtl = s.mtl ∧ (s.updHqi g).lamp =
    s.lamp ∧ (s.updHqi g).pending = s.pending ∧ ∀ x, (s.updHqi g).rd x = s.rd x :=
  ⟨rfl, rfl, rfl, rfl, rfl, rfl, rfl, rfl, rfl, rfl, rfl, rfl, rfl, rfl, rfl, rfl, rfl, rfl, rfl, rfl, rfl, rfl, rfl,
  rfl, rfl, rfl, rfl, rfl, rfl, rfl, rfl, fun _ => rfl⟩

/-- What `updFn` leaves alone. -/
@[simp] theorem State.updFn_frame (f : FnIx) (g : FnState → FnState) :
    (s.updFn f g).part = s.part ∧ (s.updFn f g).regs = s.regs ∧ (s.updFn f g).sram = s.sram ∧ (s.updFn f g).ember =
    s.ember ∧ (s.updFn f g).gddr = s.gddr ∧ (s.updFn f g).marks = s.marks ∧ (s.updFn f g).resp = s.resp ∧ (s.updFn f
    g).halted = s.halted ∧ (s.updFn f g).waitq = s.waitq ∧ (s.updFn f g).hostOut = s.hostOut ∧ (s.updFn f g).freeCtr =
    s.freeCtr ∧ (s.updFn f g).buf = s.buf ∧ (s.updFn f g).cch = s.cch ∧ (s.updFn f g).perf = s.perf ∧ (s.updFn f
    g).flt = s.flt ∧ (s.updFn f g).tim = s.tim ∧ (s.updFn f g).pins = s.pins ∧ (s.updFn f g).pos = s.pos ∧ (s.updFn f
    g).spares = s.spares ∧ (s.updFn f g).policy = s.policy ∧ (s.updFn f g).eng = s.eng ∧ (s.updFn f g).packs = s.packs
    ∧ (s.updFn f g).lists = s.lists ∧ (s.updFn f g).stripes = s.stripes ∧ (s.updFn f g).journal = s.journal ∧ (s.updFn
    f g).hqi = s.hqi ∧ (s.updFn f g).cal = s.cal ∧ (s.updFn f g).cmp = s.cmp ∧ (s.updFn f g).mtl = s.mtl ∧ (s.updFn f
    g).lamp = s.lamp ∧ (s.updFn f g).pending = s.pending ∧ ∀ x, (s.updFn f g).rd x = s.rd x :=
  ⟨rfl, rfl, rfl, rfl, rfl, rfl, rfl, rfl, rfl, rfl, rfl, rfl, rfl, rfl, rfl, rfl, rfl, rfl, rfl, rfl, rfl, rfl, rfl,
  rfl, rfl, rfl, rfl, rfl, rfl, rfl, rfl, fun _ => rfl⟩

/-- What `updPack` leaves alone. -/
@[simp] theorem State.updPack_frame (p : PosIx) (g : PackState → PackState) :
    (s.updPack p g).part = s.part ∧ (s.updPack p g).regs = s.regs ∧ (s.updPack p g).sram = s.sram ∧ (s.updPack p
    g).ember = s.ember ∧ (s.updPack p g).gddr = s.gddr ∧ (s.updPack p g).marks = s.marks ∧ (s.updPack p g).resp =
    s.resp ∧ (s.updPack p g).halted = s.halted ∧ (s.updPack p g).waitq = s.waitq ∧ (s.updPack p g).hostOut = s.hostOut
    ∧ (s.updPack p g).freeCtr = s.freeCtr ∧ (s.updPack p g).buf = s.buf ∧ (s.updPack p g).cch = s.cch ∧ (s.updPack p
    g).perf = s.perf ∧ (s.updPack p g).flt = s.flt ∧ (s.updPack p g).tim = s.tim ∧ (s.updPack p g).pins = s.pins ∧
    (s.updPack p g).pos = s.pos ∧ (s.updPack p g).spares = s.spares ∧ (s.updPack p g).policy = s.policy ∧ (s.updPack p
    g).eng = s.eng ∧ (s.updPack p g).lists = s.lists ∧ (s.updPack p g).stripes = s.stripes ∧ (s.updPack p g).journal =
    s.journal ∧ (s.updPack p g).hqi = s.hqi ∧ (s.updPack p g).fns = s.fns ∧ (s.updPack p g).cal = s.cal ∧ (s.updPack p
    g).cmp = s.cmp ∧ (s.updPack p g).mtl = s.mtl ∧ (s.updPack p g).lamp = s.lamp ∧ (s.updPack p g).pending = s.pending
    ∧ ∀ x, (s.updPack p g).rd x = s.rd x :=
  ⟨rfl, rfl, rfl, rfl, rfl, rfl, rfl, rfl, rfl, rfl, rfl, rfl, rfl, rfl, rfl, rfl, rfl, rfl, rfl, rfl, rfl, rfl, rfl,
  rfl, rfl, rfl, rfl, rfl, rfl, rfl, rfl, fun _ => rfl⟩

/-- What `updEng` leaves alone. -/
@[simp] theorem State.updEng_frame (e : EngIx) (g : EngState → EngState) :
    (s.updEng e g).part = s.part ∧ (s.updEng e g).regs = s.regs ∧ (s.updEng e g).sram = s.sram ∧ (s.updEng e g).ember
    = s.ember ∧ (s.updEng e g).gddr = s.gddr ∧ (s.updEng e g).marks = s.marks ∧ (s.updEng e g).resp = s.resp ∧
    (s.updEng e g).halted = s.halted ∧ (s.updEng e g).waitq = s.waitq ∧ (s.updEng e g).hostOut = s.hostOut ∧ (s.updEng
    e g).freeCtr = s.freeCtr ∧ (s.updEng e g).buf = s.buf ∧ (s.updEng e g).cch = s.cch ∧ (s.updEng e g).perf = s.perf
    ∧ (s.updEng e g).flt = s.flt ∧ (s.updEng e g).tim = s.tim ∧ (s.updEng e g).pins = s.pins ∧ (s.updEng e g).pos =
    s.pos ∧ (s.updEng e g).spares = s.spares ∧ (s.updEng e g).policy = s.policy ∧ (s.updEng e g).packs = s.packs ∧
    (s.updEng e g).lists = s.lists ∧ (s.updEng e g).stripes = s.stripes ∧ (s.updEng e g).journal = s.journal ∧
    (s.updEng e g).hqi = s.hqi ∧ (s.updEng e g).fns = s.fns ∧ (s.updEng e g).cal = s.cal ∧ (s.updEng e g).cmp = s.cmp
    ∧ (s.updEng e g).mtl = s.mtl ∧ (s.updEng e g).lamp = s.lamp ∧ (s.updEng e g).pending = s.pending ∧ ∀ x, (s.updEng
    e g).rd x = s.rd x :=
  ⟨rfl, rfl, rfl, rfl, rfl, rfl, rfl, rfl, rfl, rfl, rfl, rfl, rfl, rfl, rfl, rfl, rfl, rfl, rfl, rfl, rfl, rfl, rfl,
  rfl, rfl, rfl, rfl, rfl, rfl, rfl, rfl, fun _ => rfl⟩

/-- What `updLamp` leaves alone. -/
@[simp] theorem State.updLamp_frame (g : LampState → LampState) :
    (s.updLamp g).part = s.part ∧ (s.updLamp g).regs = s.regs ∧ (s.updLamp g).sram = s.sram ∧ (s.updLamp g).ember =
    s.ember ∧ (s.updLamp g).gddr = s.gddr ∧ (s.updLamp g).marks = s.marks ∧ (s.updLamp g).resp = s.resp ∧ (s.updLamp
    g).halted = s.halted ∧ (s.updLamp g).waitq = s.waitq ∧ (s.updLamp g).hostOut = s.hostOut ∧ (s.updLamp g).freeCtr =
    s.freeCtr ∧ (s.updLamp g).buf = s.buf ∧ (s.updLamp g).cch = s.cch ∧ (s.updLamp g).perf = s.perf ∧ (s.updLamp
    g).flt = s.flt ∧ (s.updLamp g).tim = s.tim ∧ (s.updLamp g).pins = s.pins ∧ (s.updLamp g).pos = s.pos ∧ (s.updLamp
    g).spares = s.spares ∧ (s.updLamp g).policy = s.policy ∧ (s.updLamp g).eng = s.eng ∧ (s.updLamp g).packs = s.packs
    ∧ (s.updLamp g).lists = s.lists ∧ (s.updLamp g).stripes = s.stripes ∧ (s.updLamp g).journal = s.journal ∧
    (s.updLamp g).hqi = s.hqi ∧ (s.updLamp g).fns = s.fns ∧ (s.updLamp g).cal = s.cal ∧ (s.updLamp g).cmp = s.cmp ∧
    (s.updLamp g).mtl = s.mtl ∧ (s.updLamp g).pending = s.pending ∧ ∀ x, (s.updLamp g).rd x = s.rd x :=
  ⟨rfl, rfl, rfl, rfl, rfl, rfl, rfl, rfl, rfl, rfl, rfl, rfl, rfl, rfl, rfl, rfl, rfl, rfl, rfl, rfl, rfl, rfl, rfl,
  rfl, rfl, rfl, rfl, rfl, rfl, rfl, rfl, fun _ => rfl⟩

/-- What `updMtl` leaves alone. -/
@[simp] theorem State.updMtl_frame (g : MtlState → MtlState) :
    (s.updMtl g).part = s.part ∧ (s.updMtl g).regs = s.regs ∧ (s.updMtl g).sram = s.sram ∧ (s.updMtl g).ember =
    s.ember ∧ (s.updMtl g).gddr = s.gddr ∧ (s.updMtl g).marks = s.marks ∧ (s.updMtl g).resp = s.resp ∧ (s.updMtl
    g).halted = s.halted ∧ (s.updMtl g).waitq = s.waitq ∧ (s.updMtl g).hostOut = s.hostOut ∧ (s.updMtl g).freeCtr =
    s.freeCtr ∧ (s.updMtl g).buf = s.buf ∧ (s.updMtl g).cch = s.cch ∧ (s.updMtl g).perf = s.perf ∧ (s.updMtl g).flt =
    s.flt ∧ (s.updMtl g).tim = s.tim ∧ (s.updMtl g).pins = s.pins ∧ (s.updMtl g).pos = s.pos ∧ (s.updMtl g).spares =
    s.spares ∧ (s.updMtl g).policy = s.policy ∧ (s.updMtl g).eng = s.eng ∧ (s.updMtl g).packs = s.packs ∧ (s.updMtl
    g).lists = s.lists ∧ (s.updMtl g).stripes = s.stripes ∧ (s.updMtl g).journal = s.journal ∧ (s.updMtl g).hqi =
    s.hqi ∧ (s.updMtl g).fns = s.fns ∧ (s.updMtl g).cal = s.cal ∧ (s.updMtl g).cmp = s.cmp ∧ (s.updMtl g).lamp =
    s.lamp ∧ (s.updMtl g).pending = s.pending ∧ ∀ x, (s.updMtl g).rd x = s.rd x :=
  ⟨rfl, rfl, rfl, rfl, rfl, rfl, rfl, rfl, rfl, rfl, rfl, rfl, rfl, rfl, rfl, rfl, rfl, rfl, rfl, rfl, rfl, rfl, rfl,
  rfl, rfl, rfl, rfl, rfl, rfl, rfl, rfl, fun _ => rfl⟩

/-- What `sramWrite` leaves alone. -/
@[simp] theorem State.sramWrite_frame (a : Nat) (l : List Byte) :
    (s.sramWrite a l).part = s.part ∧ (s.sramWrite a l).regs = s.regs ∧ (s.sramWrite a l).ember = s.ember ∧
    (s.sramWrite a l).gddr = s.gddr ∧ (s.sramWrite a l).marks = s.marks ∧ (s.sramWrite a l).resp = s.resp ∧
    (s.sramWrite a l).halted = s.halted ∧ (s.sramWrite a l).waitq = s.waitq ∧ (s.sramWrite a l).hostOut = s.hostOut ∧
    (s.sramWrite a l).freeCtr = s.freeCtr ∧ (s.sramWrite a l).buf = s.buf ∧ (s.sramWrite a l).cch = s.cch ∧
    (s.sramWrite a l).perf = s.perf ∧ (s.sramWrite a l).flt = s.flt ∧ (s.sramWrite a l).tim = s.tim ∧ (s.sramWrite a
    l).pins = s.pins ∧ (s.sramWrite a l).pos = s.pos ∧ (s.sramWrite a l).spares = s.spares ∧ (s.sramWrite a l).policy
    = s.policy ∧ (s.sramWrite a l).eng = s.eng ∧ (s.sramWrite a l).packs = s.packs ∧ (s.sramWrite a l).lists = s.lists
    ∧ (s.sramWrite a l).stripes = s.stripes ∧ (s.sramWrite a l).journal = s.journal ∧ (s.sramWrite a l).hqi = s.hqi ∧
    (s.sramWrite a l).fns = s.fns ∧ (s.sramWrite a l).cal = s.cal ∧ (s.sramWrite a l).cmp = s.cmp ∧ (s.sramWrite a
    l).mtl = s.mtl ∧ (s.sramWrite a l).lamp = s.lamp ∧ (s.sramWrite a l).pending = s.pending ∧ ∀ x, (s.sramWrite a
    l).rd x = s.rd x :=
  ⟨rfl, rfl, rfl, rfl, rfl, rfl, rfl, rfl, rfl, rfl, rfl, rfl, rfl, rfl, rfl, rfl, rfl, rfl, rfl, rfl, rfl, rfl, rfl,
  rfl, rfl, rfl, rfl, rfl, rfl, rfl, rfl, fun _ => rfl⟩

/-- What `emberWrite` leaves alone. -/
@[simp] theorem State.emberWrite_frame (a : Nat) (l : List Byte) :
    (s.emberWrite a l).part = s.part ∧ (s.emberWrite a l).regs = s.regs ∧ (s.emberWrite a l).sram = s.sram ∧
    (s.emberWrite a l).gddr = s.gddr ∧ (s.emberWrite a l).marks = s.marks ∧ (s.emberWrite a l).resp = s.resp ∧
    (s.emberWrite a l).halted = s.halted ∧ (s.emberWrite a l).waitq = s.waitq ∧ (s.emberWrite a l).hostOut = s.hostOut
    ∧ (s.emberWrite a l).freeCtr = s.freeCtr ∧ (s.emberWrite a l).buf = s.buf ∧ (s.emberWrite a l).cch = s.cch ∧
    (s.emberWrite a l).perf = s.perf ∧ (s.emberWrite a l).flt = s.flt ∧ (s.emberWrite a l).tim = s.tim ∧ (s.emberWrite
    a l).pins = s.pins ∧ (s.emberWrite a l).pos = s.pos ∧ (s.emberWrite a l).spares = s.spares ∧ (s.emberWrite a
    l).policy = s.policy ∧ (s.emberWrite a l).eng = s.eng ∧ (s.emberWrite a l).packs = s.packs ∧ (s.emberWrite a
    l).lists = s.lists ∧ (s.emberWrite a l).stripes = s.stripes ∧ (s.emberWrite a l).journal = s.journal ∧
    (s.emberWrite a l).hqi = s.hqi ∧ (s.emberWrite a l).fns = s.fns ∧ (s.emberWrite a l).cal = s.cal ∧ (s.emberWrite a
    l).cmp = s.cmp ∧ (s.emberWrite a l).mtl = s.mtl ∧ (s.emberWrite a l).lamp = s.lamp ∧ (s.emberWrite a l).pending =
    s.pending ∧ ∀ x, (s.emberWrite a l).rd x = s.rd x :=
  ⟨rfl, rfl, rfl, rfl, rfl, rfl, rfl, rfl, rfl, rfl, rfl, rfl, rfl, rfl, rfl, rfl, rfl, rfl, rfl, rfl, rfl, rfl, rfl,
  rfl, rfl, rfl, rfl, rfl, rfl, rfl, rfl, fun _ => rfl⟩

/-- What `logF` leaves alone. -/
@[simp] theorem State.logF_frame (reason source pos flags addr detail : Nat) :
    (s.logF reason source pos flags addr detail).part = s.part ∧ (s.logF reason source pos flags addr detail).sram =
    s.sram ∧ (s.logF reason source pos flags addr detail).ember = s.ember ∧ (s.logF reason source pos flags addr
    detail).gddr = s.gddr ∧ (s.logF reason source pos flags addr detail).marks = s.marks ∧ (s.logF reason source pos
    flags addr detail).resp = s.resp ∧ (s.logF reason source pos flags addr detail).halted = s.halted ∧ (s.logF reason
    source pos flags addr detail).waitq = s.waitq ∧ (s.logF reason source pos flags addr detail).hostOut = s.hostOut ∧
    (s.logF reason source pos flags addr detail).freeCtr = s.freeCtr ∧ (s.logF reason source pos flags addr
    detail).buf = s.buf ∧ (s.logF reason source pos flags addr detail).cch = s.cch ∧ (s.logF reason source pos flags
    addr detail).perf = s.perf ∧ (s.logF reason source pos flags addr detail).tim = s.tim ∧ (s.logF reason source pos
    flags addr detail).pins = s.pins ∧ (s.logF reason source pos flags addr detail).pos = s.pos ∧ (s.logF reason
    source pos flags addr detail).spares = s.spares ∧ (s.logF reason source pos flags addr detail).policy = s.policy ∧
    (s.logF reason source pos flags addr detail).eng = s.eng ∧ (s.logF reason source pos flags addr detail).packs =
    s.packs ∧ (s.logF reason source pos flags addr detail).lists = s.lists ∧ (s.logF reason source pos flags addr
    detail).stripes = s.stripes ∧ (s.logF reason source pos flags addr detail).journal = s.journal ∧ (s.logF reason
    source pos flags addr detail).hqi = s.hqi ∧ (s.logF reason source pos flags addr detail).fns = s.fns ∧ (s.logF
    reason source pos flags addr detail).cal = s.cal ∧ (s.logF reason source pos flags addr detail).cmp = s.cmp ∧
    (s.logF reason source pos flags addr detail).mtl = s.mtl ∧ (s.logF reason source pos flags addr detail).lamp =
    s.lamp ∧ (s.logF reason source pos flags addr detail).pending = s.pending :=
  ⟨rfl, rfl, rfl, rfl, rfl, rfl, rfl, rfl, rfl, rfl, rfl, rfl, rfl, rfl, rfl, rfl, rfl, rfl, rfl, rfl, rfl, rfl, rfl,
  rfl, rfl, rfl, rfl, rfl, rfl, rfl⟩

@[simp] theorem State.updPos_same (p : PosIx) (g : PosState → PosState) :
    (s.updPos p g).pos[(p : Nat)] = g s.pos[(p : Nat)] := by
  simp [State.updPos]
theorem State.updPos_ne {p q : PosIx} (g : PosState → PosState) (h : q ≠ p) :
    (s.updPos p g).pos[(q : Nat)] = s.pos[(q : Nat)] := by
  have : (p : Nat) ≠ q := fun e => h (Fin.ext e.symm)
  simp [State.updPos, this]
@[simp] theorem State.updTx_same (p : PosIx) (g : TxState → TxState) :
    (s.updTx p g).pos[(p : Nat)].igl.tx = g s.pos[(p : Nat)].igl.tx := by
  simp [State.updTx, State.updIgl]
@[simp] theorem State.updEng_same (e : EngIx) (g : EngState → EngState) :
    (s.updEng e g).eng[(e : Nat)] = g s.eng[(e : Nat)] := by
  simp [State.updEng]
@[simp] theorem State.updPack_same (p : PosIx) (g : PackState → PackState) :
    (s.updPack p g).packs[(p : Nat)] = g s.packs[(p : Nat)] := by
  simp [State.updPack]
@[simp] theorem State.updFn_same (f : FnIx) (g : FnState → FnState) :
    (s.updFn f g).fns[(f : Nat)] = g s.fns[(f : Nat)] := by
  simp [State.updFn]
@[simp] theorem State.updHqi_hqi (g : HqiState → HqiState) : (s.updHqi g).hqi = g s.hqi := rfl
@[simp] theorem State.updLamp_lamp (g : LampState → LampState) : (s.updLamp g).lamp = g s.lamp := rfl
@[simp] theorem State.updMtl_mtl (g : MtlState → MtlState) : (s.updMtl g).mtl = g s.mtl := rfl

/-- What every pass of a loop leaves alone, the loop leaves alone. -/
theorem State.forEach_keep {α β : Type} (φ : State → β) (l : List α) (g : α → State → State)
    (h : ∀ a ∈ l, ∀ t, φ (g a t) = φ t) (s : State) : φ (s.forEach l g) = φ s := by
  unfold State.forEach
  induction l generalizing s with
  | nil => rfl
  | cons a t ih =>
    rw [List.foldl_cons, ih (fun b hb => h b (List.mem_cons_of_mem _ hb)), h a List.mem_cons_self]

end Sys2Proof.Machine
end

