-- ==== Sys2Proof/Laws/Settle.lean ====
section
/-! SUPPORT. The end of every command: what it changes, and that it leaves a settled state. -/

namespace Sys2Proof.Machine

theorem latchLive_rd (p : PosIx) (s : State) {f : Fld} (h1 : f.key ≠ (R.srvSnuffLatch p).key)
    (h2 : f.key ≠ (R.srvSnuffSeen p).key) : (latchLive p s).rd f = s.rd f := by
  unfold latchLive
  split
  · rfl
  · rw [State.rd_wr_ne _ _ h2, State.rd_wr_ne _ _ h1]

@[simp] theorem shutGates_rd (p : PosIx) (s : State) (f : Fld) : (shutGates p s).rd f = s.rd f := by
  unfold shutGates
  split <;> simp

@[simp] theorem askSnuff_rd (p : PosIx) (s : State) (f : Fld) : (askSnuff p s).rd f = s.rd f := by
  unfold askSnuff
  split <;> simp

theorem settle_rd (p : PosIx) (s : State) {f : Fld} (h : ∀ g ∈ latchFlds p, f.key ≠ g.key) :
    (settle p s).rd f = s.rd f := by
  simp only [latchFlds, List.mem_cons, forall_eq_or_imp, List.not_mem_nil, false_implies, implies_true, and_true] at h
  obtain ⟨h1, h2, h3⟩ := h
  rw [settle, showSuspend, State.rd_wr_ne _ _ h3, askSnuff_rd, shutGates_rd, latchLive_rd p s h1 h2]

/-- What the latch leaves alone. -/
@[simp] theorem latchLive_frame (p : PosIx) (s : State) :
    (latchLive p s).part = s.part ∧ (latchLive p s).sram = s.sram ∧ (latchLive p s).ember = s.ember ∧ (latchLive p
    s).gddr = s.gddr ∧ (latchLive p s).marks = s.marks ∧ (latchLive p s).resp = s.resp ∧ (latchLive p s).halted = s.halted ∧ (latchLive p s).waitq = s.waitq ∧ (latchLive p s).hostOut =
    s.hostOut ∧ (latchLive p s).freeCtr = s.freeCtr ∧ (latchLive p s).buf = s.buf ∧ (latchLive p s).cch = s.cch ∧
    (latchLive p s).perf = s.perf ∧ (latchLive p s).flt = s.flt ∧ (latchLive p s).tim = s.tim ∧ (latchLive p s).pins =
    s.pins ∧ (latchLive p s).spares = s.spares ∧ (latchLive p s).policy = s.policy ∧ (latchLive p s).eng = s.eng ∧
    (latchLive p s).packs = s.packs ∧ (latchLive p s).lists = s.lists ∧ (latchLive p s).stripes = s.stripes ∧
    (latchLive p s).journal = s.journal ∧ (latchLive p s).hqi = s.hqi ∧ (latchLive p s).fns = s.fns ∧ (latchLive p
    s).cal = s.cal ∧ (latchLive p s).cmp = s.cmp ∧ (latchLive p s).mtl = s.mtl ∧ (latchLive p s).lamp = s.lamp ∧
    (latchLive p s).pending = s.pending ∧ (latchLive p s).pos = s.pos := by
  unfold latchLive
  split <;> simp

/-- What shutting the gates leaves alone. -/
@[simp] theorem shutGates_frame (p : PosIx) (s : State) :
    (shutGates p s).part = s.part ∧ (shutGates p s).sram = s.sram ∧ (shutGates p s).ember = s.ember ∧ (shutGates p
    s).gddr = s.gddr ∧ (shutGates p s).marks = s.marks ∧ (shutGates p s).resp = s.resp ∧ (shutGates p s).halted = s.halted ∧ (shutGates p s).waitq = s.waitq ∧ (shutGates p s).hostOut =
    s.hostOut ∧ (shutGates p s).freeCtr = s.freeCtr ∧ (shutGates p s).buf = s.buf ∧ (shutGates p s).cch = s.cch ∧
    (shutGates p s).perf = s.perf ∧ (shutGates p s).flt = s.flt ∧ (shutGates p s).tim = s.tim ∧ (shutGates p s).pins =
    s.pins ∧ (shutGates p s).spares = s.spares ∧ (shutGates p s).policy = s.policy ∧ (shutGates p s).eng = s.eng ∧
    (shutGates p s).packs = s.packs ∧ (shutGates p s).lists = s.lists ∧ (shutGates p s).stripes = s.stripes ∧
    (shutGates p s).journal = s.journal ∧ (shutGates p s).hqi = s.hqi ∧ (shutGates p s).fns = s.fns ∧ (shutGates p
    s).cal = s.cal ∧ (shutGates p s).cmp = s.cmp ∧ (shutGates p s).mtl = s.mtl ∧ (shutGates p s).lamp = s.lamp ∧
    (shutGates p s).pending = s.pending := by
  unfold shutGates
  split <;> simp

/-- What the transmitter's request leaves alone. -/
@[simp] theorem askSnuff_frame (p : PosIx) (s : State) :
    (askSnuff p s).part = s.part ∧ (askSnuff p s).sram = s.sram ∧ (askSnuff p s).ember = s.ember ∧ (askSnuff p
    s).gddr = s.gddr ∧ (askSnuff p s).marks = s.marks ∧ (askSnuff p s).resp = s.resp ∧ (askSnuff p s).halted = s.halted ∧ (askSnuff p s).waitq = s.waitq ∧ (askSnuff p s).hostOut =
    s.hostOut ∧ (askSnuff p s).freeCtr = s.freeCtr ∧ (askSnuff p s).buf = s.buf ∧ (askSnuff p s).cch = s.cch ∧
    (askSnuff p s).perf = s.perf ∧ (askSnuff p s).flt = s.flt ∧ (askSnuff p s).tim = s.tim ∧ (askSnuff p s).pins =
    s.pins ∧ (askSnuff p s).spares = s.spares ∧ (askSnuff p s).policy = s.policy ∧ (askSnuff p s).eng = s.eng ∧
    (askSnuff p s).packs = s.packs ∧ (askSnuff p s).lists = s.lists ∧ (askSnuff p s).stripes = s.stripes ∧
    (askSnuff p s).journal = s.journal ∧ (askSnuff p s).hqi = s.hqi ∧ (askSnuff p s).fns = s.fns ∧ (askSnuff p
    s).cal = s.cal ∧ (askSnuff p s).cmp = s.cmp ∧ (askSnuff p s).mtl = s.mtl ∧ (askSnuff p s).lamp = s.lamp ∧
    (askSnuff p s).pending = s.pending := by
  unfold askSnuff
  split <;> simp

/-- What a command's end leaves alone at a position. -/
@[simp] theorem settle_frame (p : PosIx) (s : State) :
    (settle p s).part = s.part ∧ (settle p s).sram = s.sram ∧ (settle p s).ember = s.ember ∧ (settle p s).gddr =
    s.gddr ∧ (settle p s).marks = s.marks ∧ (settle p s).resp = s.resp ∧ (settle p s).halted = s.halted ∧ (settle p s).waitq = s.waitq ∧ (settle p s).hostOut = s.hostOut ∧ (settle p
    s).freeCtr = s.freeCtr ∧ (settle p s).buf = s.buf ∧ (settle p s).cch = s.cch ∧ (settle p s).perf = s.perf ∧
    (settle p s).flt = s.flt ∧ (settle p s).tim = s.tim ∧ (settle p s).pins = s.pins ∧ (settle p s).spares = s.spares
    ∧ (settle p s).policy = s.policy ∧ (settle p s).eng = s.eng ∧ (settle p s).packs = s.packs ∧ (settle p s).lists =
    s.lists ∧ (settle p s).stripes = s.stripes ∧ (settle p s).journal = s.journal ∧ (settle p s).hqi = s.hqi ∧ (settle
    p s).fns = s.fns ∧ (settle p s).cal = s.cal ∧ (settle p s).cmp = s.cmp ∧ (settle p s).mtl = s.mtl ∧ (settle p
    s).lamp = s.lamp ∧ (settle p s).pending = s.pending := by
  simp [settle, showSuspend]

/-- A position without what the latch's logic drives: its gates and the transmitter. -/
def PosState.noLatch (x : PosState) : PosState := { x with gates := 0, igl := { x.igl with tx := .reset } }

theorem shutGates_pos (p q : PosIx) (s : State) : (shutGates p s).pos[q].noLatch = s.pos[q].noLatch := by
  unfold shutGates
  split
  · by_cases h : q = p
    · subst h; simp [PosState.noLatch]
    · simp [State.updPos_ne, h]
  · rfl

theorem askSnuff_pos (p q : PosIx) (s : State) : (askSnuff p s).pos[q].noLatch = s.pos[q].noLatch := by
  unfold askSnuff
  split
  · rfl
  · by_cases h : q = p
    · subst h; simp [PosState.noLatch, State.updTx, State.updIgl]
    · simp [State.updTx, State.updIgl, State.updPos_ne, h]

theorem shutGates_ne {p q : PosIx} (h : q ≠ p) (s : State) : (shutGates p s).pos[q] = s.pos[q] := by
  unfold shutGates
  split <;> simp [State.updPos_ne, h]

theorem askSnuff_ne {p q : PosIx} (h : q ≠ p) (s : State) : (askSnuff p s).pos[q] = s.pos[q] := by
  unfold askSnuff
  split <;> simp [State.updTx, State.updIgl, State.updPos_ne, h]

@[simp] theorem askSnuff_gates (p : PosIx) (s : State) : (askSnuff p s).pos[p].gates = s.pos[p].gates := by
  unfold askSnuff
  split <;> simp [State.updTx, State.updIgl]

@[simp] theorem askSnuff_spn (p q : PosIx) (s : State) : (askSnuff p s).pos[q].spn = s.pos[q].spn := by
  have h := congrArg PosState.spn (askSnuff_pos p q s)
  exact h

@[simp] theorem askSnuff_latched (p : PosIx) (s : State) :
    (askSnuff p s).pos[p].igl.tx.latched = s.bit (R.srvSnuffLatch p) := by
  unfold askSnuff
  split
  · assumption
  · simp

theorem settle_pos (p q : PosIx) (s : State) : (settle p s).pos[q].noLatch = s.pos[q].noLatch := by
  have h : (settle p s).pos = (askSnuff p (shutGates p (latchLive p s))).pos := by simp [settle, showSuspend]
  rw [h, askSnuff_pos, shutGates_pos]
  simp

theorem settleAll_rd (s : State) {f : Fld} (h : ∀ p : PosIx, ∀ g ∈ latchFlds p, f.key ≠ g.key) :
    (settleAll s).rd f = s.rd f :=
  State.forEach_keep (fun t => t.rd f) _ _ (fun p _ t => settle_rd p t (h p)) s

/-- What the end of a command leaves alone. -/
@[simp] theorem settleAll_frame (s : State) :
    (settleAll s).part = s.part ∧ (settleAll s).sram = s.sram ∧ (settleAll s).ember = s.ember ∧ (settleAll s).gddr =
    s.gddr ∧ (settleAll s).marks = s.marks ∧ (settleAll s).resp = s.resp ∧ (settleAll s).halted = s.halted ∧ (settleAll s).waitq = s.waitq ∧ (settleAll s).hostOut = s.hostOut ∧
    (settleAll s).freeCtr = s.freeCtr ∧ (settleAll s).buf = s.buf ∧ (settleAll s).cch = s.cch ∧ (settleAll s).perf =
    s.perf ∧ (settleAll s).flt = s.flt ∧ (settleAll s).tim = s.tim ∧ (settleAll s).pins = s.pins ∧ (settleAll
    s).spares = s.spares ∧ (settleAll s).policy = s.policy ∧ (settleAll s).eng = s.eng ∧ (settleAll s).packs = s.packs
    ∧ (settleAll s).lists = s.lists ∧ (settleAll s).stripes = s.stripes ∧ (settleAll s).journal = s.journal ∧
    (settleAll s).hqi = s.hqi ∧ (settleAll s).fns = s.fns ∧ (settleAll s).cal = s.cal ∧ (settleAll s).cmp = s.cmp ∧
    (settleAll s).mtl = s.mtl ∧ (settleAll s).lamp = s.lamp ∧ (settleAll s).pending = s.pending := by
  have k : ∀ {β : Type} (φ : State → β), (∀ p t, φ (settle p t) = φ t) → φ (settleAll s) = φ s :=
    fun φ h => State.forEach_keep φ _ _ (fun p _ t => h p t) s
  refine ⟨k State.part ?_, k State.sram ?_, k State.ember ?_, k State.gddr ?_, k State.marks ?_, k State.resp ?_, k State.halted ?_, k State.waitq ?_, k
    State.hostOut ?_, k State.freeCtr ?_, k State.buf ?_, k State.cch ?_, k State.perf ?_, k State.flt ?_, k
    State.tim ?_, k State.pins ?_, k State.spares ?_, k State.policy ?_, k State.eng ?_, k State.packs ?_, k
    State.lists ?_, k State.stripes ?_, k State.journal ?_, k State.hqi ?_, k State.fns ?_, k State.cal ?_, k
    State.cmp ?_, k State.mtl ?_, k State.lamp ?_, k State.pending ?_⟩ <;> (intro p t; simp)

theorem settleAll_pos (q : PosIx) (s : State) : (settleAll s).pos[q].noLatch = s.pos[q].noLatch :=
  State.forEach_keep (fun t => t.pos[q].noLatch) _ _ (fun p _ t => settle_pos p q t) s

/-- Everything of a position but what the latch's logic drives survives a command's end. -/
@[simp] theorem settleAll_pos_frame (q : PosIx) (s : State) :
    (settleAll s).pos[q].spn = s.pos[q].spn ∧ (settleAll s).pos[q].car = s.pos[q].car ∧
    (settleAll s).pos[q].srv = s.pos[q].srv ∧ (settleAll s).pos[q].pf8 = s.pos[q].pf8 ∧
    (settleAll s).pos[q].encA = s.pos[q].encA ∧ (settleAll s).pos[q].encB = s.pos[q].encB := by
  have h := settleAll_pos q s
  simp only [PosState.noLatch, PosState.mk.injEq] at h
  obtain ⟨h1, h2, h3, -, h5, h6, h7, -⟩ := h
  exact ⟨h1, h2, h3, h5, h6, h7⟩

/-- What `SettledAt` at q depends on. -/
theorem SettledAt.congr {s t : State} {q : PosIx} (hs : SettledAt s q)
    (h : ∀ f ∈ [R.srvSnuffLive q, R.srvSnuffLatch q, R.srvSnuffSeen q, R.iglStatSuspend q, R.iglStatDegraded q,
      R.spnStatLock q, R.spnSpdDegraded q], t.rd f = s.rd f)
    (hp : t.pos[q] = s.pos[q]) : SettledAt t q := by
  simp only [List.mem_cons, forall_eq_or_imp, List.not_mem_nil, false_implies, implies_true, and_true] at h
  obtain ⟨e1, e2, e3, e4, e5, e6, e7⟩ := h
  unfold SettledAt suspended State.bit at *
  rw [e1, e2, e3, e4, e5, e6, e7, hp]
  exact hs

/-- Settling one position leaves what another depends on alone. -/
theorem settle_settledAt_ne {p q : PosIx} (h : q ≠ p) (s : State) (hs : SettledAt s q) : SettledAt (settle p s) q := by
  have hp : (settle p s).pos[q] = s.pos[q] := by
    have e : (settle p s).pos = (askSnuff p (shutGates p (latchLive p s))).pos := by simp [settle, showSuspend]
    rw [e, askSnuff_ne h, shutGates_ne h]
    simp
  have k : ∀ p q : PosIx, q ≠ p → ∀ f ∈ [R.srvSnuffLive q, R.srvSnuffLatch q, R.srvSnuffSeen q, R.iglStatSuspend q,
      R.iglStatDegraded q, R.spnStatLock q, R.spnSpdDegraded q], ∀ g ∈ latchFlds p, f.key ≠ g.key := by decide
  exact hs.congr (fun f hf => settle_rd p s (k p q h f hf)) hp

/-- Settling a position settles it. -/
theorem settle_settledAt (p : PosIx) (s : State) : SettledAt (settle p s) p := by
  have n1 : (R.srvSnuffLive p).key ≠ (R.srvSnuffLatch p).key := by decide +revert
  have n2 : (R.srvSnuffLive p).key ≠ (R.srvSnuffSeen p).key := by decide +revert
  have n3 : (R.srvSnuffLive p).key ≠ (R.iglStatSuspend p).key := by decide +revert
  have n4 : (R.srvSnuffLatch p).key ≠ (R.iglStatSuspend p).key := by decide +revert
  have n5 : (R.srvSnuffSeen p).key ≠ (R.iglStatSuspend p).key := by decide +revert
  have n6 : (R.srvSnuffLatch p).key ≠ (R.srvSnuffSeen p).key := by decide +revert
  have w1 : (R.srvSnuffSeen p).w = 10 := rfl
  have w2 : (R.srvSnuffLatch p).w = 1 := rfl
  have w3 : (R.iglStatSuspend p).w = 1 := rfl
  have m : ∀ a b : Nat, orBits (orBits a b % 2 ^ 10) b % 2 ^ 10 = orBits a b % 2 ^ 10 := by
    intro a b
    simp only [orBits]
    rw [Nat.or_mod_two_pow, Nat.mod_mod, ← Nat.or_mod_two_pow, Nat.or_assoc, Nat.or_self]
  refine ⟨?_, ?_, ?_, ?_⟩
  · rw [settle, showSuspend, State.rd_wr_ne _ _ n3, State.rd_wr_ne _ _ n4, State.rd_wr_ne _ _ n5, askSnuff_rd, askSnuff_rd,
      askSnuff_rd, shutGates_rd, shutGates_rd, shutGates_rd, latchLive_rd p s n1 n2]
    intro hl
    unfold latchLive
    rw [if_neg hl, State.rd_wr_ne _ _ n6, State.rd_wr_same, State.rd_wr_same, w1, w2]
    exact ⟨rfl, m _ _⟩
  · rw [settle, showSuspend, State.rd_wr_ne _ _ n4, askSnuff_rd, shutGates_rd]
    intro hl
    simp only [State.wr_frame, askSnuff_gates, shutGates, State.bit, hl]
    simp
  · rw [settle, showSuspend]
    simp only [State.wr_frame, askSnuff_latched, State.bit]
    rw [State.rd_wr_ne _ _ n4, askSnuff_rd]
  · have k : suspended (askSnuff p (shutGates p (latchLive p s))) p = suspended (settle p s) p := by
      rw [settle, showSuspend]
      unfold suspended State.bit
      simp only [State.wr_frame]
      rw [State.rd_wr_ne, State.rd_wr_ne, State.rd_wr_ne] <;> decide +revert
    rw [← k, settle, showSuspend, State.rd_wr_same, w3]
    split <;> rfl

/-- Every command's end leaves a settled state. -/
theorem settleAll_settled (s : State) : Settled (settleAll s) := by
  have k : ∀ (l : List PosIx) (s : State) (q : PosIx), q ∈ l ∨ SettledAt s q →
      SettledAt (l.foldl (fun s a => settle a s) s) q := by
    intro l
    induction l with
    | nil => intro s q h; simpa using h
    | cons a t ih =>
      intro s q h
      refine ih _ q ?_
      by_cases e : q = a
      · subst e
        exact .inr (settle_settledAt q s)
      · rcases h with h | h
        · exact .inl ((List.mem_cons.1 h).resolve_left e)
        · exact .inr (settle_settledAt_ne e s h)
  exact fun q => k allPos s q (.inl (List.mem_finRange q))

/-- At a settled position the end of a command shows the latch fields as they stand. -/
theorem settle_rd_latch {p : PosIx} {s : State} (hs : SettledAt s p) (f : Fld) (hf : f ∈ latchFlds p) :
    (settle p s).rd f = s.rd f := by
  have n4 : (R.srvSnuffLatch p).key ≠ (R.iglStatSuspend p).key := (by decide : ∀ p : PosIx, (R.srvSnuffLatch p).key ≠ (R.iglStatSuspend p).key) p
  have n5 : (R.srvSnuffSeen p).key ≠ (R.iglStatSuspend p).key := (by decide : ∀ p : PosIx, (R.srvSnuffSeen p).key ≠ (R.iglStatSuspend p).key) p
  have n6 : (R.srvSnuffLatch p).key ≠ (R.srvSnuffSeen p).key := (by decide : ∀ p : PosIx, (R.srvSnuffLatch p).key ≠ (R.srvSnuffSeen p).key) p
  have w1 : (R.srvSnuffSeen p).w = 10 := rfl
  have w2 : (R.srvSnuffLatch p).w = 1 := rfl
  have w3 : (R.iglStatSuspend p).w = 1 := rfl
  obtain ⟨h1, -, -, h3⟩ := hs
  simp only [latchFlds, List.mem_cons, List.not_mem_nil, or_false] at hf
  rcases hf with rfl | rfl | rfl
  · rw [settle, showSuspend, State.rd_wr_ne _ _ n4, askSnuff_rd, shutGates_rd]
    unfold latchLive
    split
    · rfl
    · next hl => rw [State.rd_wr_ne _ _ n6, State.rd_wr_same, (h1 hl).1]; exact (by decide : 1 % 2 ^ 1 = 1)
  · rw [settle, showSuspend, State.rd_wr_ne _ _ n5, askSnuff_rd, shutGates_rd]
    unfold latchLive
    split
    · rfl
    · next hl => rw [State.rd_wr_same, w1, (h1 hl).2]
  · have k : suspended (askSnuff p (shutGates p (latchLive p s))) p = suspended s p := by
      have hp : (shutGates p (latchLive p s)).pos[p].spn = s.pos[p].spn := by
        unfold shutGates
        split <;> simp
      unfold suspended State.bit
      simp only [askSnuff_rd, askSnuff_spn, shutGates_rd, hp]
      have e : ∀ p : PosIx, ∀ f ∈ [R.iglStatDegraded p, R.spnStatLock p, R.spnSpdDegraded p],
          f.key ≠ (R.srvSnuffLatch p).key ∧ f.key ≠ (R.srvSnuffSeen p).key := by decide
      have r : ∀ f ∈ [R.iglStatDegraded p, R.spnStatLock p, R.spnSpdDegraded p], (latchLive p s).rd f = s.rd f :=
        fun f hf => latchLive_rd p s (e p f hf).1 (e p f hf).2
      rw [r _ (by simp), r _ (by simp), r _ (by simp)]
    rw [settle, showSuspend, State.rd_wr_same, w3, k, h3]
    split <;> rfl

/-- In a settled state the end of a command shows every register field as it stands. -/
theorem settleAll_rd_settled {s : State} (hs : Settled s) (f : Fld)
    (hf : f.Proper) : (settleAll s).rd f = s.rd f := by
  have k : ∀ (l : List PosIx) (t : State), Settled t → t.rd f = s.rd f →
      (l.foldl (fun s a => settle a s) t).rd f = s.rd f := by
    intro l
    induction l with
    | nil => intro t _ h; exact h
    | cons a l ih =>
      intro t ht h
      refine ih _ (fun q => ?_) ?_
      · by_cases e : q = a
        · subst e
          exact settle_settledAt q t
        · exact settle_settledAt_ne e t (ht q)
      · by_cases e : ∃ g ∈ latchFlds a, f.key = g.key
        · obtain ⟨g, hg, e⟩ := e
          rw [settle_rd_latch (ht a) f (hf a g hg e ▸ hg), h]
        · rw [settle_rd a t fun g hg x => e ⟨g, hg, x⟩, h]
  exact k allPos s hs rfl

end Sys2Proof.Machine
end

