-- ==== Sys2Proof/WellFormed.lean ====
section
/-! DEFINITION. Well-formed commands: operands within the widths and counts that the spec gives what they stand for. No
meaning asks for it; an operand beyond its width acts by the bits it has. -/

namespace Sys2Proof

/-- Access sizes of a bus (R7, R273). -/
def wfSize (n : Nat) : Bool := n == 1 || n == 2 || n == 4 || n == 8

/-- A fabric address has 40 bits (Table 1.3); the host's is an offset of the 32 MiB of BAR0 (R19). -/
def wfSpace (who : Requester) (a : Nat) : Bool :=
  match who with
  | .host _ => a < 2 ^ 25
  | _ => a < 2 ^ 40

/-- An access stays within a tile's length. -/
def wfAccess : Access → Bool
  | .read n => 1 ≤ n && n ≤ 65536
  | .fetch n => 1 ≤ n && n ≤ 65536
  | .write l => 1 ≤ l.length && l.length ≤ 65536
  | .zeroLine => true

/-- A logical rank of the 362,400 casts of a pack (R58). -/
def wfRank (n : Nat) : Bool := n < 362400 * 128

/-- The phase values, one of sixteen each, of the 790 wobbles of a wobble address unit (R28, R253). -/
def wfWord (w : List Nat) : Bool := w.length == 790 && w.all (· < 16)

/-- A sample packet holds 384 6-bit samples and up to 8 wobble phase values (Table 9.3). -/
def wfPacket (x : SamplePacket) : Bool :=
  x.raw.length == 384 && x.raw.all (· < 64) && x.wob.length ≤ 8 && x.wob.all (· < 16) && x.wobofs < 50 && x.symcnt < 2 ^ 32

/-- The codes of the 12-bit motor ADC (R172). -/
def wfPwm (x : PwmSample) : Bool := [x.s1, x.s2, x.bu, x.bv, x.bw, x.bn, x.vbus, x.peak].all (· < 4096) && x.peakAt < 2500

/-- What training finds of four lanes (R261). -/
def wfTraining (x : Training) : Bool := x.pass < 16 && x.tx.length == 4 && x.rx.length == 4

/-- Queue IDs, command tags and tile numbers (Table 1.8, R353). -/
def wfQueue (q : Nat) : Bool := q < 1024
def wfTag (n : Nat) : Bool := n < 32768
def wfTile (t : Nat) : Bool := t < 2 ^ 17

/-- Whether a command's operands are well formed. -/
def Instr.wf : Instr → Bool
  | .registerWrite who addr size value => wfSpace who addr && wfSize size && value < 256 ^ size
  | .rcFieldRead who addr size => wfSpace who addr && wfSize size
  | .fabricAccess who _ addr acc _ => wfSpace who addr && wfAccess acc
  | .deviceFailed _ => true
  | .selfRefreshEntry => true
  | .evictionWriteback => true
  | .tileRelease _ n _ => wfRank n
  | .rankIdleExpiry _ n => wfRank n
  | .rankAssembly _ n _ => wfRank n
  | .castStart _ => true
  | .castAbort _ => true
  | .pourSlotStart _ start => wfWord start.wobble
  | .frameVerdict _ _ => true
  | .journalCommit => true
  | .riserVisit _ m => m < 362400
  | .pourStreamIdle _ => true
  | .ledgerAgeExpiry _ => true
  | .ledgerPour _ => true
  | .ledgerPourVerified _ => true
  | .layerFirstAccess _ _ cards => cards.length == 8
  | .shockFall _ => true
  | .snuffClear _ => true
  | .readStart _ => true
  | .readAbort _ => true
  | .readSlotStart _ wobble _ => wfWord wobble
  | .samplePacket _ x => wfPacket x
  | .readResultPost _ _ _ _ => true
  | .retryPass _ n _ _ => wfRank n
  | .marginClear _ => true
  | .servoTick _ _ => true
  | .srvEnable _ _ => true
  | .spareLeave _ => true
  | .servoFail _ => true
  | .loopModeWrite _ _ _ => true
  | .loopGainNow _ _ => true
  | .loopCoefWrite _ _ _ _ _ value => value < 2 ^ 32
  | .setpointWrite _ _ value => value < 2 ^ 64
  | .focusLost _ _ => true
  | .jumpGo _ _ => true
  | .srvJmpgo _ mask => mask < 256
  | .jumpAbort _ _ => true
  | .jumpTimeout _ _ => true
  | .centrePublish _ => true
  | .spnStart _ => true
  | .spnStopRegen _ => true
  | .spnStopShort _ => true
  | .spnCoast _ => true
  | .spnClear _ => true
  | .spnPwmPeriod _ x => wfPwm x
  | .commutation _ => true
  | .chopperFeedbackTimeout _ => true
  | .ipeakFault _ => true
  | .speedLoop _ => true
  | .observeEnd _ _ => true
  | .brakeEnd _ => true
  | .alignEnd _ => true
  | .lockedRotorTimeout _ => true
  | .waitEnd _ => true
  | .stopNoEventTimeout _ => true
  | .brakeIntervalEnd _ => true
  | .observationWindowEnd _ _ => true
  | .finalBrakeEnd _ => true
  | .speedTargetWrite _ rpm => rpm < 2 ^ 16
  | .spinupSlotOpen _ => true
  | .carEnable _ => true
  | .carHome _ => true
  | .carSeek _ => true
  | .carDirect _ => true
  | .carGear _ => true
  | .carStop _ => true
  | .carPark _ => true
  | .carOff _ => true
  | .carClear _ => true
  | .carTargetWrite _ value => value < 2 ^ 32
  | .carPwmPeriod _ ia ib => ia < 4096 && ib < 4096
  | .carriageLoop _ => true
  | .followingErrorFault _ => true
  | .phaseOvercurrent _ => true
  | .encoderError _ => true
  | .indexEdge _ => true
  | .homingTimeout _ => true
  | .calLookup _ => true
  | .calStore _ => true
  | .calOperationDone => true
  | .injectionStart _ _ _ => true
  | .injectionDone => true
  | .opcRun _ _ => true
  | .linkEnable _ _ => true
  | .linkTrain _ => true
  | .trainingDone _ x => wfTraining x
  | .upstreamServoSlot _ blocks => blocks.length == 8
  | .servoLinkFault _ => true
  | .statusBlock _ copies => copies.all fun c => c.2.length == 16
  | .snuffBlock _ _ _ => true
  | .controlRequest _ op addr => op < 8 && addr < 2 ^ 16
  | .crsp _ seq _ status data => seq < 256 && status < 256 && data < 2 ^ 32
  | .creqTimeout _ _ => true
  | .cevt _ _ _ _ => true
  | .laneFail _ _ => true
  | .alignSend _ => true
  | .wickPacket _ _ => true
  | .downstreamServoSlot _ flips => (flips.map fun c => c.length == 84).getD true
  | .functionEnable _ => true
  | .functionReady _ => true
  | .sqDoorbell _ q value size => wfQueue q && wfSize size && value < 256 ^ size
  | .cqDoorbell _ q value size => wfQueue q && wfSize size && value < 256 ^ size
  | .sqPollExpiry _ q => wfQueue q
  | .sqFetch _ q entries => wfQueue q && entries.all fun e => e.sqe.length == 64 && e.sgl.all fun x => x.length == 16
  | .sqFetchFailed _ q => wfQueue q
  | .commandRecordConsumed _ => true
  | .createCq n => wfTag n
  | .createSq n => wfTag n
  | .destroySq n _ => wfTag n
  | .destroyCq n => wfTag n
  | .thawQueue n entries => wfTag n && entries.all fun e => e.length == 64
  | .abort n => wfTag n
  | .quota n => wfTag n
  | .completionPost n => wfTag n
  | .hqiAbort n => wfTag n
  | .interruptTimer _ q => wfQueue q
  | .flr _ => true
  | .busMasterDisable _ => true
  | .functionDisable _ => true
  | .vfEnableClear => true
  | .hotReset => true
  | .pcieLinkDown => true
  | .functionResetDone _ => true
  | .hostDataArrival n _ _ tiles => wfTag n && tiles.all wfTile
  | .hostDmaReadError n => wfTag n
  | .pcieLaneFail _ => true
  | .getLog n => wfTag n
  | .eventWait n => wfTag n
  | .setPolicy n _ => wfTag n
  | .grant n => wfTag n
  | .mount n _ => wfTag n
  | .unmount _ => true
  | .packPower _ => true
  | .format _ => true
  | .sanitise _ _ => true
  | .discardRange _ => true
  | .fwDownload n _ _ => wfTag n
  | .fwActivate n => wfTag n
  | .fwActivateReset => true
  | .append n tiles => wfTag n && tiles.all wfTile
  | .place n tiles => wfTag n && tiles.all wfTile
  | .read n => wfTag n
  | .verify n => wfTag n
  | .compress n => wfTag n
  | .decompress n => wfTag n
  | .patrolRead _ n => wfRank n
  | .stripeStart _ _ _ engines => engines.length == 8 && engines.Nodup
  | .packRemoved _ => true
  | .packSeated _ => true
  | .positionEnable _ _ => true
  | .streamingIdleExpiry _ => true
  | .idleParkExpiry _ => true
  | .idleSpindownExpiry _ => true
  | .tileOpen t => wfTile t
  | .tileClose t => wfTile t
  | .tileFree t => wfTile t
  | .tileVerify t _ => wfTile t
  | .tileUse _ t _ _ _ => wfTile t
  | .bufEnable _ _ => true
  | .bufInit => true
  | .bufInitDone => true
  | .deviceOffline _ => true
  | .offlineReached _ => true
  | .deviceOnline _ => true
  | .onlineReached _ => true
  | .pprStart _ _ loc => loc < 2 ^ 24
  | .pprDone _ => true
  | .vclr => true
  | .poison => true
  | .scrub => true
  | .bufRangeDone => true
  | .cchClean _ => true
  | .cchInvalidate _ => true
  | .cchCleanInv _ => true
  | .cchLoad _ => true
  | .cchRangeDone => true
  | .cchCounterClear => true
  | .perfSnapshot counts => counts.length == 6 && counts.all fun c => c.length == 11
  | .perfClear => true
  | .sampleTrigger _ _ => true
  | .sampleRecord _ _ => true
  | .coreRelease value => value < 2 ^ 5
  | .jobSubmit _ => true
  | .jobStart _ => true
  | .jobComplete _ => true
  | .lockstepMismatch _ _ => true
  | .contextExpiry _ => true
  | .xtalLoss => true
  | .refclkLoss => true
  | .x32Loss => true
  | .pllLockLoss _ => true
  | .pllLock _ => true
  | .enginePower value => value < 2 ^ 24
  | .engineReady _ => true
  | .compressionClockEnable value => value < 16
  | .safeReleasePosition _ => true
  | .safeReleaseLaser => true
  | .powerOnReset => true
  | .mainSupplyFault => true
  | .resetPin => true
  | .perstAssert => true
  | .softwareSystemReset key => key < 256
  | .softwareCoreReset key => key < 256
  | .debugResetRequest _ => true
  | .powerFail => true
  | .emberCommitDone => true
  | .powerReturn => true
  | .resetRelease _ _ => true
  | .c0Release => true
  | .bootOk fuses => fuses ≤ 64
  | .bootDeadlineExpiry => true
  | .watchdogEnable _ => true
  | .watchdogKick => true
  | .watchdogExpiry => true
  | .blockReset _ index => index < 32
  | .blockResetIdle _ => true
  | .blockResetTimeout _ => true
  | .blockRestartDone => true
  | .keyNew => true
  | .keyUnwrap => true
  | .keyDrop => true
  | .keyDestroy => true
  | .escrowEnroll => true
  | .dbgChal => true
  | .dbgUnlock => true
  | .trng => true
  | .mailboxDone => true
  | .nonceExpiry => true
  | .trngHealthFail => true
  | .mantleFault => true
  | .spdmRequest _ => true
  | .supplyOutOfRange _ => true
  | .ppsEdge _ => true
  | .ppsHoldover => true
  | .timeSetsec _ => true
  | .shockRelease _ => true
  | .supplyInRange _ => true
  | .encoderEdge _ _ _ => true
  | .trstAssert => true
  | .jtagTestMode _ _ => true
  | .thermTjCrossing _ => true
  | .trngHealthRecovery => true
  | .retrainComplete _ => true
  | .alignReceived _ _ => true
  | .perstRelease => true

end Sys2Proof
end

