-- ==== Sys2Proof/Tests/Slice0.lean ====
section
/-! SUPPORT. Tests: ill-formed commands are refused; and for each statement, states and operands that meet the
hypotheses of its clauses, with what one step on them gives. -/

namespace Sys2Proof.Tests

-- The witnesses are evaluated one after the other, so that no more than one state is held at a time.
set_option Elab.async false

open Sys2Proof Sys2Proof.Machine

/-- The reset state with register fields at given values. -/
def wit (l : List (Fld × Nat)) : State := l.foldl (fun s x => s.wr x.1 x.2) State.reset

/-- Whether a command answers a next state in which f holds. -/
def leaves (c : Instr) (s : State) (f : State → Prop) [∀ t, Decidable (f t)] : Bool :=
  match exec c s with
  | .next t => decide (f t)
  | _ => false

/-- Whether a command answers at all, for a state whose conclusion rests on a free value. -/
def runs (c : Instr) (s : State) : Bool :=
  match exec c s with
  | .next _ => true
  | _ => false

/-- The three memories are the same. -/
def sameMem (s t : State) : Bool := s.sram == t.sram && s.ember == t.ember && s.gddr == t.gddr

/-- A rank under number n in a phase, with nothing staged or assigned. -/
def rankW (n : Nat) (ph : RankPhase) : Rank :=
  { n := n, assigned := 0, pads := 0, valids := [], tiles := [], fill := [], force := false, begun := true, idle := false, phase := ph, slot := 0, prev := 0, reason := 0, repour := 0, posted := 0, passed := 0, judged := 0, cipher := [], frames := [], bad := 0, abandoned := false }

/-- Cast 0 with some ranks. -/
def castW (l : List Rank) : Cast :=
  { m := 0, ranks := l, filled := true, opened := 0, first := none, failed := none, digest := none, recSeq := none, verified := true, closed := true, visit := false }

/-- A pack at position 0 that holds cast 0. -/
def packW (l : List Rank) (s : State) : State := s.updPack 0 fun k => { k with status := .mounted, casts := [castW l] }

/-- Engine 0 at position 0, surface 0. -/
def engHome (s : State) : State := s.updEng 0 fun e => { e with home := some (0, 0) }

/-- A pour descriptor of the home slot of logical rank 0, surface 0. -/
def descW : List Byte := leBytes 4 (homeSlot 0) ++ List.replicate 124 0

/-- The 790 wobble phase values that spell nibbles after a sync field. -/
def phasesW (nibbles : List Nat) : List Nat :=
  let bits := nibbles.flatMap fun v => [bitsOf v 3 1, bitsOf v 2 1, bitsOf v 1 1, bitsOf v 0 1]
  (syncField ++ bits).flatMap (fun c => (List.range 10).map fun i => if i < 3 * c then 8 else 0) ++ List.replicate 70 0

/-- The phases of that slot's address word. -/
def wordW : List Nat := phasesW (wobbleCode (wobbleWord 0 0 (zoneOf 0 (homeSlot 0)) (homeSlot 0) 0))

/-- Engine 0 in cast mode, armed for that slot, in a pour on position 0 whose rank 0 is assembled. -/
def armedW (s : State) : State :=
  { (packW [{ rankW 0 .assembled with slot := homeSlot 0 }] (engHome s)).updEng 0 (fun e => { e with armed := true, mode := true, desc := descW }) with
    stripes := [{ p := 0, pour := true, engines := [0, 1, 2, 3, 4, 5, 6, 7] }] }

/-- A frame poured from that descriptor. -/
def pouredW : Poured := { desc := descW, time := 0, gateLost := false, slot := none }

/-- A ledger record. -/
def recW : LRec := { seq := 7, time := 0, body := .packState 0 0 0 }

theorem test_EngineArmsAndAborts_met :
    (let s := (wit [(R.pwrEngrdyRdy, 1), (R.castDescAddr 0, 0x200000)]).updEng 0 fun e => { e with mode := true }
     let a := s.rd (R.castDescAddr 0) * 128
     engOffered s 0 = true ∧ engReady s 0 = true ∧ s.rd (R.castStatBusy 0) ≠ 1 ∧ s.rd (R.rdStatBusy 0) ≠ 1 ∧
       s.eng[(0 : EngIx)].mode = true ∧ sramBase ≤ a ∧ a + 128 ≤ sramBase + sramSize ∧ (∀ i < 16, wordStatAt s (a + 8 * i) ≠ .ue) ∧
       leaves (.castStart 0) s fun t => t.rd (R.castStatBusy 0) = 1 ∧ t.eng[(0 : EngIx)].armed = true) ∧
    (let s := engHome (wit [(R.pwrEngrdyRdy, 1), (R.castStatBusy 0, 1)])
     engReady s 0 = true ∧ s.eng[(0 : EngIx)].home = some (0, 0) ∧ s.rd (R.castStatBusy 0) = 1 ∧
       leaves (.castAbort 0) s fun t => t.rd (R.castStatVerdict 0) = 3 ∧ t.rd (R.castStatDone 0) = 1 ∧
         t.rd (R.castStatBusy 0) = 0 ∧ t.rd (R.srvSnuffLatch 0) = 1 ∧ bitAt (t.rd (R.srvSnuffLive 0)) 9 = true) ∧
    (let s := (wit [(R.pwrEngrdyRdy, 2 ^ 23), (R.castStatBusy 23, 1)]).updEng 23 fun e => { e with armed := true }
     engOffered s 23 = true ∧ engReady s 23 = true ∧ s.eng[(23 : EngIx)].home = none ∧ s.rd (R.castStatBusy 23) = 1 ∧
       leaves (.castAbort 23) s fun t => t.rd (R.castStatVerdict 23) = 3 ∧ t.rd (R.castStatBusy 23) = 0 ∧
         t.eng[(23 : EngIx)].armed = false) ∧
    (let s := wit [(R.pwrEngrdyRdy, 1)]
     s.rd (R.castStatBusy 0) ≠ 1 ∧ leaves (.castAbort 0) s fun t => t.rd (R.castStatDone 0) = 0) := by decide +kernel

theorem test_GateOpensAtSlot_met :
    (let s := armedW (settleAll (wit [(R.srvSnuffLatch 0, 0), (R.lampCrelC0, 1)]))
     Settled s ∧ s.eng[(0 : EngIx)].armed = true ∧ s.rd (R.srvSnuffLatch 0) ≠ 1 ∧
       wobbleAt (wauNibbles wordW) (dLayer descW) (dSurf descW) (dSlot descW) (startEighth descW) = true ∧
       s.eng[(0 : EngIx)].uploads = 0 ∧ (s.surfAt 0 0).jump = none ∧ pourAllowed s 0 0 descW = true ∧
       leaves (.pourSlotStart 0 { wobble := wordW, symcnt := 7 }) s fun t =>
         t.pos[(0 : PosIx)].gates = 1 ∧ t.eng[(0 : EngIx)].gate = true ∧ (rankOf t 0 0).map (·.phase) = some .pouring) ∧
    (let s := armedW State.reset
     Settled s ∧ s.rd (R.srvSnuffLatch 0) = 1 ∧
       leaves (.pourSlotStart 0 { wobble := wordW, symcnt := 7 }) s fun t =>
         t.rd (R.castStatSync 0) = 1 ∧ t.pos[(0 : PosIx)].gates = 0) ∧
    (let s := armedW (settleAll (wit [(R.srvSnuffLatch 0, 0), (R.lampCrelC0, 1)]))
     wobbleAt (wauNibbles (List.replicate 790 0)) (dLayer descW) (dSurf descW) (dSlot descW) (startEighth descW) = false ∧
       leaves (.pourSlotStart 0 { wobble := List.replicate 790 0, symcnt := 7 }) s fun t => t.rd (R.castStatSync 0) = 1) ∧
    (let s := armedW (settleAll (wit [(R.srvSnuffLatch 0, 0)]))
     pourAllowed s 0 0 descW = false ∧
       leaves (.pourSlotStart 0 { wobble := wordW, symcnt := 7 }) s fun t => t.rd (R.castStatSync 0) = 1) := by
  unfold Settled SettledAt
  decide +kernel

/-- The verdict itself takes a whole slot's decoding; the hypotheses of its clauses are met together here. -/
theorem test_FrameAndRankVerdict_met :
    let s := packW [{ rankW 0 .awaiting with posted := 254, passed := 254 }] ((engHome (wit [(R.lampCrelC0, 1)])).updEng 0
      fun e => { e with poured := [pouredW] })
    engOffered s 0 = true ∧ s.eng[(0 : EngIx)].home = some (0, 0) ∧ s.eng[(0 : EngIx)].poured = [pouredW] ∧ dIsRank descW = true ∧
      (rankOf s 0 (dRank descW)).map (fun r => (r.phase, setBit r.posted 0, setBit r.passed 0, bitAt r.passed 0)) =
        some (.awaiting, 255, 255, false) ∧
      castFailedAt s 0 (dRank descW / 128) = false ∧ s.pins.pwrFail = false ∧ fwUp s = true ∧
      leaves (.frameVerdict 0 true) s (fun t => t.rd (R.castStatVerdict 0) = 3 ∧ t.rd (R.castStatDone 0) = 1 ∧
        bitAt (t.rd (R.srvSnuffLive 0)) 9 = true ∧ t.rd R.fltLastReason = 0x0F03) := by decide +kernel

theorem test_RanksBecomeReady_met :
    (let s := packW [{ rankW 0 .filling with assigned := 1, fill := [400000, 400000, 400000, 400000, 400000, 400000] }] State.reset
     (rankOf s 0 0).map (fun r => (r.begun, r.phase, rankStaged r)) = some (true, .filling, true) ∧
       leaves (.rankIdleExpiry 0 0) s fun t => (rankOf t 0 0).map (fun r => (r.idle, r.phase, r.assigned)) =
         some (true, .ready, rankCw)) ∧
    (let s := (packW [rankW 0 .ready] (wit [(R.lampCrelC0, 1)])).updMtl fun m => { m with keys := [(0, [])] }
     (rankOf s 0 0).map (·.phase) = some .ready ∧ Assoc.get 0 s.mtl.keys = some [] ∧ assembledBefore s 0 0 = true ∧
       fwUp s = true ∧ s.pins.pwrFail = false ∧
       leaves (.rankAssembly 0 0 [3]) s fun t => (rankOf t 0 0).map (fun r => (r.phase, r.reason)) = some (.failed, 1)) ∧
    (let s := packW [{ rankW 0 .ready with force := false }] (wit [(R.lampCrelC0, 1)])
     Assoc.get 0 s.mtl.keys = none ∧ assembledBefore s 0 0 = true ∧ fwUp s = true ∧
       leaves (.rankAssembly 0 0 []) s fun t => (rankOf t 0 0).map (·.phase) = some .ready ∧ t.rd R.fltLastReason = 0x0C0B) ∧
    (let s := packW ((List.range 128).map fun i => rankW i (if i = 0 then .failed else .cast)) State.reset
     (castOf s 0 0).map (fun c => (c.filled, c.failed, c.ranks.length)) = some (true, none, 128) ∧
       leaves (.riserVisit 0 0) s fun t => (castOf t 0 0).map (·.visit) = some true) := by decide +kernel

theorem test_TilesAndJournal_met :
    (let s := packW [{ rankW 0 .cast with tiles := [(5, 3)] }] (wit [(R.bufSealtAddr, 0x100)])
     releasable s 0 0 5 = some 3 ∧ sramBase ≤ sealAddr s 3 ∧ sealAddr s 3 + 16 ≤ sramBase + sramSize ∧
       leaves (.tileRelease 0 0 5) s fun t => (sealGet t 3).state = tileFree) ∧
    (let s : State := { State.reset with journal := { State.reset.journal with pend := [{ seq := 0, tag := 1, time := 0, body := .castClosed 0 0 }] } }
     s.journal.pend ≠ [] ∧ leaves .journalCommit s fun t => t.journal.pend = []) ∧
    leaves (.pourStreamIdle 7) State.reset (fun t => t.packs[(7 : PosIx)].stream = none) := by decide +kernel

theorem test_LedgerPours_met :
    (let s := State.reset.updPack 0 fun k => { k with status := .mounted, lq := [recW], seg := ledgerSegs - 1 }
     s.packs[(0 : PosIx)].lq ≠ [] ∧
       leaves (.ledgerAgeExpiry 0) s fun t => t.packs[(0 : PosIx)].flushDue = true) ∧
    (let s := State.reset.updPack 0 fun k => { k with status := .mounted, flushDue := true, lq := [recW], seg := ledgerSegs - 1 }
     s.packs[(0 : PosIx)].lpour = none ∧ s.pins.pwrFail = false ∧ s.packs[(0 : PosIx)].roMount = false ∧
       s.packs[(0 : PosIx)].status ≠ .none ∧ ledgerDue s 0 = true ∧ s.packs[(0 : PosIx)].seg + segCount s.packs[(0 : PosIx)].lq ≤ ledgerSegs ∧
       leaves (.ledgerPour 0) s fun t => t.packs[(0 : PosIx)].lpour.map (·.seg) = some (ledgerSegs - 1)) ∧
    (let s := State.reset.updPack 0 fun k => { k with status := .mounted, lpour := some { recs := [recW], seg := 3, nseg := 1, ok0 := 1, ok1 := 1, reached := 4 } }
     leaves (.ledgerPourVerified 0) s fun t => t.packs[(0 : PosIx)].lpour = none ∧ t.packs[(0 : PosIx)].seg = 4 ∧
       t.packs[(0 : PosIx)].ledger = [recW] ∧ t.journal.pend.map (·.body) = [.ledgerFlushed (some 7)]) := by decide +kernel

theorem test_SnuffClosesGates_met :
    (let s := (engHome (wit [(R.srvSnuffLatch 0, 0), (R.castStatBusy 0, 1)])).updEng 0 fun e => { e with gate := true, desc := descW }
     leaves (.shockFall 0) s fun t => t.rd (R.srvSnuffLatch 0) = 1 ∧ t.rd (R.castStatVerdict 0) = 3 ∧
       t.eng[(0 : EngIx)].gate = false ∧ t.rd (R.castStatBusy 0) = 0) ∧
    (let s := settleAll (wit [(R.srvSnuffLive 0, 4)])
     Settled s ∧ s.rd (R.srvSnuffLive 0) ≠ 0 ∧
       leaves (.shockRelease 0) s (fun t => t.rd (R.srvSnuffLive 0) = 0 ∧ t.rd (R.srvSnuffLatch 0) = 1) ∧
       leaves (.snuffClear 0) s (fun t => t.rd (R.srvSnuffLatch 0) = 1)) ∧
    leaves (.snuffClear 0) State.reset (fun t => t.rd (R.srvSnuffLatch 0) = 0 ∧ t.rd (R.srvSnuffSeen 0) = 0) ∧
    leaves (.supplyOutOfRange 6) State.reset (fun t => bitAt (t.rd R.fltVmonOut) 6 = true ∧ t.rd R.fltLastReason = 0x0F02 ∧
      bitAt (t.rd (R.srvSnuffLive 7)) 7 = true) ∧
    leaves (.supplyInRange 0) (wit [(R.fltVmonOut, 1), (R.srvSnuffLive 0, 128)]) (fun t => t.rd R.fltVmonOut = 0 ∧
      t.rd (R.srvSnuffLive 0) = 0) := by
  unfold Settled SettledAt
  decide +kernel

theorem test_TickAndTime_met :
    leaves (.servoTick [] 3) State.reset (fun t => t.rd R.pwrRtcCount = 3 ∧ t.flt.pend = [] ∧ t.rd (R.srvTickTick 0) = 0) ∧
    (let s := wit [(R.clkPllLock 5, 1)]
     s.rd (R.clkPllLock 5) = 1 ∧ leaves (.servoTick [] 0) s fun t => t.rd (R.srvTickTick 7) = 1) ∧
    (let s : State := { State.reset with tim := { State.reset.tim with lastEdge := some 0 } }
     0 + 1000100001 > s.tim.local_ + 1000100000 ∧
       leaves (.ppsEdge 999899999) s (fun t => t.rd R.timePpsRej = 1 ∧ t.tim = s.tim) ∧
       leaves (.ppsEdge 1000100001) s (fun t => t.rd R.timePpsRej = 1)) ∧
    (let s := wit [(R.timeNowNs, 500000000)]
     s.tim.lastEdge = none ∧ s.tim.acquire = true ∧ s.tim.setSec = none ∧ 0 ≤ s.tim.hold ∧
       leaves (.ppsEdge 0) s fun t => t.rd R.timeNowNs = 1000000000 ∧ t.rd R.timePpscapNs = 500000000) ∧
    leaves (.ppsEdge 0) (wit [(R.timeNowNs, 499999999)]) (fun t => t.rd R.timeNowNs = 499999999 ∧ t.tim.hold = 499999999) ∧
    (let s := wit [(R.timeStatHoldover, 0)]
     s.rd R.timeStatHoldover ≠ 1 ∧ leaves .ppsHoldover s fun t => t.rd R.timeStatHoldover = 1 ∧ t.rd R.fltLastReason = 0x0F07) ∧
    leaves (.timeSetsec (2 ^ 34 - 1)) State.reset (fun t => t.tim.setSec = some (2 ^ 34 - 1)) := by decide +kernel

/-- A sample packet without samples. -/
def packetW (ok : Bool) : SamplePacket :=
  { pickup := 7, stream := 3, lock := true, symcnt := 2 ^ 32 - 1, crcOk := ok, raw := [], wob := [], wobofs := 0, slip := false }

/-- A reading of rank 0 with every role of every column failed. -/
def readW (step : Nat) : RankRead :=
  { n := 0, slot := 0, layer := 0, outs := [], posted := 255, result := [], okMask := 0, lateMask := 0, builtMask := 0, step := step, sub := 0, revs := 0,
    digest := false, moved := 0, final := false, policy := [] }

/-- Engine 0 in a slot that has begun or not, with a read descriptor of zeros. -/
def readingW (on : Bool) : State :=
  (wit [(R.rdStatBusy 0, 1), (R.pwrEngrdyRdy, 1)]).updEng 0 fun e => { e with rdesc := descW, slot := { SlotRead.idle with on := on } }

/-- The posting of results takes a whole slot's decoding; the hypotheses of its clauses are met together here. -/
theorem test_ReadStartsAndEnds_met :
    (let s := wit [(R.pwrEngrdyRdy, 1), (R.rdDescAddr 0, 0x200000)]
     let a := s.rd (R.rdDescAddr 0) * 128
     let d := s.sramRead a 128
     engReady s 0 = true ∧ s.rd (R.castCtrlEn 0) ≠ 1 ∧ s.eng[(0 : EngIx)].mode = false ∧ s.rd (R.castStatBusy 0) ≠ 1 ∧ s.rd (R.rdStatBusy 0) ≠ 1 ∧ sramBase ≤ a ∧
       a + 128 ≤ sramBase + sramSize ∧ (∀ i < 16, wordStatAt s (a + 8 * i) ≠ .ue) ∧ s.eng[(0 : EngIx)].last = none ∧
       leAt d 48 2 = 0 ∧ rStep d ≠ 1 ∧ rStep d ≠ 2 ∧
       leaves (.readStart 0) s fun t => t.rd (R.rdStatBusy 0) = 1 ∧ t.eng[(0 : EngIx)].rdesc = d) ∧
    leaves (.readStart 0) (wit [(R.pwrEngrdyRdy, 1), (R.castCtrlEn 0, 1)]) (fun t => t.rd (R.rdStatErr 0) = 1) ∧
    leaves (.readStart 0) (wit [(R.pwrEngrdyRdy, 1), (R.rdStatBusy 0, 1)]) (fun t => t.rd (R.rdStatErr 0) = 1) ∧
    (let s := readingW false
     s.rd (R.rdStatBusy 0) = 1 ∧ s.eng[(0 : EngIx)].slot.on = false ∧ rStep descW ≠ 5 ∧ wobbleAt (wauNibbles wordW) (dLayer descW) (dSurf descW) (dSlot descW) 0 = true ∧ leAt descW 32 8 = 0 ∧
       leaves (.readSlotStart 0 wordW 77) s fun t => t.eng[(0 : EngIx)].slot.on = true ∧ t.eng[(0 : EngIx)].slot.base = 77) ∧
    (let w := phasesW (wobbleCode (wobbleWord 0 0 0 5 0))
     wobbleAt (wauNibbles w) (dLayer descW) (dSurf descW) (dSlot descW) 0 = false ∧ wobbleDecodes (wauNibbles w) = true ∧
       leaves (.readSlotStart 0 w 0) (readingW false) fun t => t.rd (R.rdStatResult 0) = 6 ∧ t.rd (R.rdStatBusy 0) = 0) ∧
    (let s := readingW true
     s.eng[(0 : EngIx)].slot.on = true ∧ rBlank s.eng[(0 : EngIx)].rdesc = false ∧
       leaves (.readAbort 0) s (fun t => t.rd (R.rdStatResult 0) = 7 ∧ t.rd (R.rdStatBusy 0) = 0) ∧
       laneUnkeyed s 0 = false ∧ rStep s.eng[(0 : EngIx)].rdesc = 0) ∧
    (let s := (readingW true).updEng 0 fun e => { e with rdesc := e.rdesc.set 7 1, home := some (0, 0) }
     s.rd (R.rdStatBusy 0) = 1 ∧ s.eng[(0 : EngIx)].slot.on = true ∧ laneUnkeyed s 0 = true ∧
       rBlank s.eng[(0 : EngIx)].rdesc = false) ∧
    leaves (.marginClear 0) (wit [(R.pwrEngrdyRdy, 1), (R.mrgCwCw 0, 5)]) (fun t => t.rd (R.mrgCwCw 0) = 0) := by
  decide +kernel

theorem test_PacketsAndRetries_met :
    leaves (.samplePacket 0 (packetW false)) State.reset (fun t => t.rd (R.iglScrcCount 0) = 1 ∧
      Assoc.get 31 t.pos[(0 : PosIx)].igl.symNext = some 383) ∧
    (let s := State.reset.updPack 0 fun k => { k with reads := [readW 4] }
     let r := readW 4
     readOf s 0 0 = some r ∧ r.final = false ∧ r.digest = false ∧ readDone r (neededCols s 0 0) = true ∧
       colsOk r (neededCols s 0 0) = false ∧ stripeRead s 0 0 = true ∧ retryTurn s 0 r = true ∧
       (∀ c < 16, 2 < (failedRoles r c).length) ∧
       leaves (.retryPass 0 0 true []) s fun t => (readOf t 0 0).map (fun x => (x.step, x.revs, x.posted)) =
         some (5, stepRevs r 0 5, 0)) ∧
    (let s := State.reset.updPack 0 fun k => { k with reads := [readW 5] }
     leaves (.retryPass 0 0 true []) s fun t => (readOf t 0 0).map (fun x => (x.step, x.final)) = some (5, true)) ∧
    (let s := State.reset.updPack 0 fun k => { k with reads := [{ readW 4 with policy := [(0x11 * 16, 4)] }] }
     deepAsked s 0 0 = false ∧
     leaves (.retryPass 0 0 false [.double (winBase + 64)]) s fun t =>
       (readOf t 0 0).map (fun x => (x.step, x.final)) = some (4, true)) ∧
    (let s := State.reset.updPack 0 fun k => { k with reads := [readW 0] }
     0 + 1 ≤ min 5 (policyIn (readW 0).policy 0x11 0) ∧ 0 + stepRevs (readW 0) 0 1 ≤ policyIn (readW 0).policy 0x12 0 ∧
       leaves (.retryPass 0 0 false []) s fun t => (readOf t 0 0).map (·.step) = some 1) := by decide +kernel

/-- Surface 0 of position 0 changed. -/
def surfW (g : SurfState → SurfState) (s : State) : State := s.updSurf 0 0 g

theorem test_ServoRegisterCommands_met :
    (let s := State.reset
     posOffered s 0 = true ∧ s.rd (R.jmpStatBusy 0 7) ≠ 1 ∧ s.rd (R.loopCtrlMode 0 23) ≠ 4 ∧ s.rd (R.loopCtrlMode 0 23) ≠ 3 ∧
       (s.loopAt 0 23).bank ≠ 1 ∧ (s.loopAt 0 23).bank = 0 ∧
       leaves (.srvEnable 0 true) s (fun t => t.rd (R.srvCtrlEn 0) = 1) ∧
       leaves (.loopModeWrite 0 23 3) s (fun t => t.rd (R.loopCtrlMode 0 23) = 3 ∧ (t.loopAt 0 23).mode = 0) ∧
       leaves (.loopGainNow 0 23) s (fun t => (t.loopAt 0 23).gainNow = true) ∧
       leaves (.loopCoefWrite 0 23 1 5 4 (2 ^ 32 + 9)) s (fun t => t.rd (R.loopCoefCoef 0 23 1 5 4) = 9) ∧
       leaves (.loopCoefWrite 0 23 0 0 0 1) s (fun t => t.rd (R.loopFlagsBankerr 0 23) = 1) ∧
       leaves (.setpointWrite 0 7 0x000300020001) s (fun t => t.rd (R.srvSpFocus 0 7) = 1 ∧ t.rd (R.srvSpTrack 0 7) = 2 ∧
         t.rd (R.srvSpTilt 0 7) = 3)) ∧
    leaves (.loopModeWrite 0 0 1) (wit [(R.loopCtrlMode 0 0, 4)]) (fun t => t.rd (R.loopFlagsModeerr 0 0) = 1) ∧
    leaves (.loopModeWrite 0 8 1) (wit [(R.jmpStatBusy 0 0, 1)]) (fun t => t.rd (R.loopFlagsModeerr 0 8) = 1) ∧
    leaves (.loopGainNow 0 0) (wit [(R.loopCtrlMode 0 0, 3)]) (fun t => t.rd (R.loopFlagsModeerr 0 0) = 1) := by
  decide +kernel

/-- A running servo on position 0 under a locked PLL_SRV, and what a command and the tick after it leave. -/
def ranW (l : List (Fld × Nat)) : State := wit ([(R.clkPllLock 5, 1), (R.srvCtrlEn 0, 1)] ++ l)
def ticked (c : Instr) (s : State) (f : State → Prop) [∀ t, Decidable (f t)] : Bool :=
  match exec c s with
  | .next t => leaves (.servoTick [] 0) t f
  | _ => false

theorem test_ServoRegisterCommands_tick :
    (let s := ranW []
     (s.loopAt 0 23).pendMode ≠ some loopFail ∧ (s.loopAt 0 23).mode ≠ loopFail ∧ (s.surfAt 0 7).jump = none ∧
       (s.surfAt 0 7).goNext = false ∧
       ticked (.loopModeWrite 0 23 1) s (fun t => (t.loopAt 0 23).mode = 1 ∧ t.rd (R.loopCtrlMode 0 23) = 1)) ∧
    ticked (.srvEnable 0 true) (wit [(R.clkPllLock 5, 1)]) (fun t => t.pos[(0 : PosIx)].srv.running = true) ∧
    ticked (.srvEnable 0 false) (ranW [(R.loopLastCode 0 3, 9)]) (fun t => t.pos[(0 : PosIx)].srv.running = false ∧
      t.rd (R.loopLastCode 0 3) = 0) ∧
    ticked (.loopGainNow 0 23) (ranW [(R.loopGainGain 0 23, 77)]) (fun t => t.rdI (R.loopGainaApplied 0 23) = 77) := by
  decide +kernel

theorem test_SetpointsLatchAtTick_met :
    (let s := wit [(R.clkPllLock 5, 1), (R.srvCtrlEn 0, 1), (R.srvSpFocus 0 0, 0x8000), (R.srvSpTrack 0 0, 0x7FFF)]
     s.rd (R.clkPllLock 5) = 1 ∧ s.rd (R.srvCtrlEn 0) = 1 ∧ s.rdI (R.srvSpFocus 0 0) = -32768 ∧
       runs (.servoTick [] 0) s = true) ∧
    leaves (.setpointWrite 0 0 0x8000) State.reset (fun t => t.rdI (R.srvSpFocus 0 0) = -32768 ∧
      (t.surfAt 0 0).spFocus = 0) := by decide +kernel

theorem test_JumpSequences_met :
    (let s := wit [(R.jmpCtrlKind 0 0, 2), (R.jmpCtrlCount 0 0, 64)]
     jumpRefused s 0 0 = false ∧ bitAt 255 0 = true ∧
       leaves (.jumpGo 0 0) s (fun t => (t.surfAt 0 0).goNext = true) ∧
       leaves (.srvJmpgo 0 1) s (fun t => (t.surfAt 0 0).goNext = true) ∧
       leaves (.jumpAbort 0 0) s (fun t => (t.surfAt 0 0).abortNext = true)) ∧
    (let s := ranW [(R.jmpCtrlKind 0 0, 2), (R.jmpCtrlCount 0 0, 64)]
     jumpRefused s 0 0 = false ∧ (s.surfAt 0 0).jump = none ∧ (∀ l : Fin 24, (s.loopAt 0 l).pendMode ≠ some loopFail) ∧
       ticked (.jumpGo 0 0) s (fun t => t.rd (R.jmpStatBusy 0 0) = 1 ∧ (t.surfAt 0 0).jump.isSome = true)) ∧
    (let s := surfW (fun x => { x with jump := some { kind := 2, phase := .coast, inward := false, ticks := 0, left := 3, drive := 0, sinceLand := none, tilt := 0, begun := true, peak := 0 } }) (ranW [(R.jmpStatBusy 0 0, 1)])
     ticked (.jumpAbort 0 0) s (fun t => t.rd (R.jmpStatBusy 0 0) = 0 ∧ t.rd (R.jmpStatResult 0 0) = 5)) ∧
    (let s := wit [(R.jmpCtrlKind 0 0, 2), (R.jmpCtrlCount 0 0, 65)]
     jumpRefused s 0 0 = true ∧ leaves (.jumpGo 0 0) s (fun t => t.rd (R.jmpStatResult 0 0) = 4) ∧
       leaves (.srvJmpgo 0 1) s (fun t => t.rd (R.jmpStatResult 0 0) = 4)) ∧
    (let s := wit [(R.jmpStatBusy 0 0, 1), (R.jmpTmoTmo 0 0, 5), (R.jmpStatElapsed 0 0, 5)]
     s.rd (R.jmpStatBusy 0 0) = 1 ∧ s.rd (R.jmpTmoTmo 0 0) ≤ s.rd (R.jmpStatElapsed 0 0) ∧ (s.loopAt 0 (focusOf 0)).mode ≠ loopFail ∧
       (s.loopAt 0 (trackOf 0)).mode ≠ loopFail ∧
       leaves (.jumpTimeout 0 0) s fun t => t.rd (R.jmpStatBusy 0 0) = 0 ∧ t.rd (R.jmpStatResult 0 0) = 6) ∧
    (let s := surfW (fun x => { x with lowSum := 8 }) State.reset
     8 ≤ (s.surfAt 0 0).lowSum ∧ (∀ l ∈ [focusOf 0, trackOf 0, tiltOf 0], (s.loopAt 0 l).pendMode ≠ some loopFail) ∧ leaves (.focusLost 0 0) s fun t => (t.loopAt 0 (focusOf 0)).pendMode = some loopOpen ∧
       bitAt (t.rd (R.srvStatFoclost 0)) 0 = true ∧ bitAt (t.rd (R.srvSnuffLive 0)) 1 = true) := by decide +kernel

theorem test_ServoLanesAndCentre_met :
    (let s := State.reset.updSrv 0 fun v => { v with spare := some 1, votes := 1024 }
     s.pos[(0 : PosIx)].srv.spare = some 1 ∧ 1024 ≤ s.pos[(0 : PosIx)].srv.votes ∧ leaves (.spareLeave 0) s fun t => t.pos[(0 : PosIx)].srv.spare = none ∧
       t.rd (R.srvStatSpare 0) = 0) ∧
    (let s := State.reset.updSrv 0 fun v => { v with failDue := true }
     s.pos[(0 : PosIx)].srv.failDue = true ∧ runs (.servoFail 0) s = true) ∧
    leaves (.centrePublish 0) State.reset (fun t => t.rdI (R.srvCentreCentre 0) = 0) ∧
    (let s := surfW (fun x => { x with centreSum := -65536, centreCount := 2 }) (State.reset.updLoop 0 (trackOf 0) fun x => { x with mode := loopClosed })
     (s.loopAt 0 (trackOf 0)).mode = loopClosed ∧ (s.surfAt 0 0).centreSum = -32768 * 2) := by decide +kernel

/-- The spindle of position 0 in a state, its position enabled. -/
def spnW (st : Nat) (l : List (Fld × Nat)) (g : SpnState → SpnState) : State :=
  (wit ((R.posCfgEn 0, 1) :: (R.spnStatState 0, st) :: l)).updSpn 0 g

theorem test_SpindleCommands_met :
    (let s := spnW 0 [] id
     spnState s 0 = 0 ∧ s.policyOf 0x70 0 = 0 ∧ leaves (.spnStart 0) s fun t => spnState t 0 = 1 ∧ sameMem s t = true) ∧
    leaves (.spnStart 0) (spnW 7 [] id) (fun t => spnState t 0 = 1 ∧ t.rd (R.spnStatRetry 0) = 0) ∧
    leaves (.spnStart 0) (spnW 6 [] id) (fun t => spnState t 0 = 1) ∧
    (let s := { spnW 0 [] id with policy := [(0x70 * 16, 3)] }
     s.policyOf 0x70 0 ≠ 0 ∧ leaves (.spnStart 0) s fun t => spnState t 0 = 0 ∧ t.pos[(0 : PosIx)].spn.waitSlot = true) ∧
    (let s := spnW 5 [] id
     s.rd (R.spnStatChopflt 0) ≠ 1 ∧
       leaves (.spnStopRegen 0) s (fun t => spnState t 0 = 6 ∧ t.pos[(0 : PosIx)].spn.stop = .regen) ∧
       leaves (.spnStopShort 0) s (fun t => spnState t 0 = 6 ∧ t.pos[(0 : PosIx)].spn.stop = .interval) ∧
       leaves (.spnCoast 0) s (fun t => t.pos[(0 : PosIx)].spn.coastNext = true ∧ spnState t 0 = 5)) ∧
    leaves (.spnStopRegen 0) (spnW 5 [(R.spnStatChopflt 0, 1)] id) (fun t => t.pos[(0 : PosIx)].spn.stop = .interval ∧
      t.pos[(0 : PosIx)].spn.bridge = .brake) ∧
    (let s := spnW 9 [] id
     s.pos[(0 : PosIx)].spn.cause ≠ 0x0602 ∧ leaves (.spnClear 0) s fun t => spnState t 0 = 0) ∧
    (let s := spnW 9 [(R.spnMeasVbus 0, 0)] fun n => { n with cause := 0x0602 }
     s.rd (R.spnMeasVbus 0) < spnOv1 s 0 ∧ leaves (.spnClear 0) s fun t => spnState t 0 = 0) ∧
    (let s := State.reset
     s.rd (R.posCfgEn 0) ≠ 1 ∧ ∀ c ∈ [Instr.spnStart 0, .spnStopRegen 0, .spnStopShort 0, .spnCoast 0, .spnClear 0],
       leaves c s fun t => t.rd (R.spnStatCmderr 0) = 1 ∧ t.rd (R.spnReasonCode 0) = 0x0604) := by decide +kernel

theorem test_SpindleStartsAndStops_met :
    (let s := spnW 1 [] id
     leaves (.observeEnd 0 ⟨4, 0, 9600, 0, 1000, 0⟩) s (fun t => spnState t 0 = 5 ∧ t.rd (R.spnMeasSpeed 0) = 9600) ∧
       leaves (.observeEnd 0 ⟨4, 0, 9599, 0, 1000, 0⟩) s (fun t => spnState t 0 = 2) ∧
       leaves (.observeEnd 0 ⟨3, 3, 9600, 0, 1000, 0⟩) s (fun t => spnState t 0 = 2 ∧ t.rd (R.spnStatReverse 0) = 1)) ∧
    leaves (.brakeEnd 0) (spnW 2 [] id) (fun t => spnState t 0 = 3 ∧ t.rd (R.spnIphStep 0) = 5) ∧
    leaves (.brakeEnd 0) (spnW 2 [] fun n => { n with stopAfterBrake := true }) (fun t => spnState t 0 = 0) ∧
    leaves (.alignEnd 0) (spnW 3 [] id) (fun t => spnState t 0 = 4 ∧ t.rd (R.spnIphStep 0) = 0) ∧
    leaves (.lockedRotorTimeout 0) (spnW 4 [(R.spnStatRetry 0, 2)] id) (fun t => spnState t 0 = 8) ∧
    leaves (.lockedRotorTimeout 0) (spnW 5 [(R.spnStatRetry 0, 3)] id) (fun t => spnState t 0 = 9 ∧
      t.rd (R.spnReasonCode 0) = 0x0601) ∧
    leaves (.waitEnd 0) (spnW 8 [(R.spnStatRetry 0, 1)] id) (fun t => spnState t 0 = 1 ∧ t.rd (R.spnStatRetry 0) = 2) ∧
    (let s := { spnW 0 [(R.timeNowNs, 2000000000)] (fun n => { n with waitSlot := true }) with policy := [(0x70 * 16, 3)] }
     s.rd R.timeNowNs / 1000000000 % 16 = s.policyOf 0x70 0 - 1 ∧ leaves (.spinupSlotOpen 0) s fun t => spnState t 0 = 1) ∧
    leaves (.stopNoEventTimeout 0) (spnW 6 [] fun n => { n with stop := .regen }) (fun t => spnState t 0 = 6 ∧
      t.pos[(0 : PosIx)].spn.stop = .final) ∧
    leaves (.brakeIntervalEnd 0) (spnW 6 [] fun n => { n with stop := .interval }) (fun t => spnState t 0 = 6 ∧
      t.pos[(0 : PosIx)].spn.stop = .window) ∧
    leaves (.observationWindowEnd 0 ⟨4, 0, 9600, 0, 1, 0⟩) (spnW 6 [] fun n => { n with stop := .window }) (fun t =>
      t.pos[(0 : PosIx)].spn.stop = .interval) ∧
    leaves (.observationWindowEnd 0 ⟨3, 0, 9600, 0, 1, 0⟩) (spnW 6 [] fun n => { n with stop := .window }) (fun t =>
      t.pos[(0 : PosIx)].spn.stop = .final) ∧
    leaves (.finalBrakeEnd 0) (spnW 6 [] fun n => { n with stop := .final }) (fun t => spnState t 0 = 0) := by decide +kernel

/-- A PWM period's samples with the bus at a code. -/
def pwmW (v : Nat) : PwmSample := ⟨2048, 2048, 0, 0, 0, 0, v, 0, 0⟩

theorem test_SpindleDrive_met :
    (let s := spnW 5 [] fun n => { n with coastNext := true }
     0 < spnOv3 s 0 ∧ spnOv3 s 0 ≤ 4095 ∧ leaves (.spnPwmPeriod 0 (pwmW 0)) s (fun t => spnState t 0 = 7) ∧
       leaves (.spnPwmPeriod 0 (pwmW (spnOv3 s 0))) s (fun t => spnState t 0 = 9 ∧ t.rd (R.spnStatOv3 0) = 1)) ∧
    (let s := spnW 5 [(R.spnIphStep 0, 5)] fun n => { n with due := some (9, 0), bridge := .drive }
     s.pos[(0 : PosIx)].spn.due = some (9, 0) ∧ leaves (.commutation 0) s fun t => t.rd (R.spnIphStep 0) = 0 ∧
       t.pos[(0 : PosIx)].spn.lastComm = commTime s 0 9 0 ∧ t.pos[(0 : PosIx)].spn.due = none) ∧
    (let s := spnW 6 [] fun n => { n with stop := .regen, chop := true }
     s.rd (R.spnStatChopflt 0) ≠ 1 ∧ leaves (.chopperFeedbackTimeout 0) s fun t => t.rd (R.spnReasonCode 0) = 0x0603 ∧
       t.pos[(0 : PosIx)].spn.brakeNext = true) ∧
    leaves (.ipeakFault 0) (spnW 5 [] fun n => { n with peaks := 256 }) (fun t => spnState t 0 = 9 ∧
      t.rd (R.spnReasonCode 0) = 0x0605) ∧
    leaves (.speedLoop 0) (spnW 5 [] id) (fun t => spnState t 0 = 5) ∧
    leaves (.speedTargetWrite 0 65536) (spnW 5 [] fun n => { n with degraded := true }) (fun t =>
      t.rd (R.spnSpdTarget 0) = 0 ∧ t.pos[(0 : PosIx)].spn.degraded = false) := by decide +kernel

/-- The carriage of position 0 in a state, its position enabled. -/
def carW (st : Nat) (l : List (Fld × Nat)) (g : CarState → CarState) : State :=
  (wit ((R.posCfgEn 0, 1) :: (R.carStatState 0, st) :: l)).updCar 0 g

theorem test_CarriageCommands_met :
    leaves (.carEnable 0) (carW 0 [] id) (fun t => carState t 0 = 1 ∧ t.pos[(0 : PosIx)].car.bridgeOn = true) ∧
    leaves (.carHome 0) (carW 1 [] id) (fun t => carState t 0 = 2) ∧
    (let s := carW 1 [(R.carStatPvalid 0, 1), (R.carSeekTgt 0, ofSigned 32 (carVlimOut State.reset 0)), (R.spnStatAvalid 0, 1), (R.carGtctlN 0, 0)] id
     carDone s 0 = true ∧ s.rdI (R.carSeekTgt 0) ≤ carVlimOut s 0 ∧ carVlimIn s 0 ≤ s.rdI (R.carSeekTgt 0) ∧
       gearEntriesOk s 0 = true ∧ leaves (.carSeek 0) s (fun t => carState t 0 = 3) ∧
       leaves (.carDirect 0) s (fun t => carState t 0 = 4) ∧ leaves (.carGear 0) s (fun t => carState t 0 = 5) ∧
       leaves (.carPark 0) s (fun t => carState t 0 = 3 ∧ t.pos[(0 : PosIx)].car.parking = true) ∧
       leaves (.carOff 0) s (fun t => t.pos[(0 : PosIx)].car.offNext = true ∧ carState t 0 = 1)) ∧
    leaves (.carSeek 0) (carW 7 [(R.carStatPvalid 0, 1), (R.carSeekTgt 0, ofSigned 32 (carVlimIn State.reset 0))] id) (fun t =>
      carState t 0 = 3) ∧
    leaves (.carStop 0) (carW 2 [] id) (fun t => carState t 0 = 6) ∧
    leaves (.carStop 0) (carW 5 [] id) (fun t => carState t 0 = 6) ∧
    (let s := carW 8 [] id
     carCauseStands s 0 = false ∧ leaves (.carClear 0) s fun t => carState t 0 = 0) ∧
    (let s := carW 8 [] fun c => { c with cause := 0x070C, ovc := 1 }
     carCauseStands s 0 = true ∧ leaves (.carClear 0) s fun t => carState t 0 = 8 ∧ t.rd (R.carStatCmderr 0) = 1) ∧
    (State.reset.rd (R.posCfgEn 0) ≠ 1 ∧ ∀ c ∈ [Instr.carEnable 0, .carHome 0, .carSeek 0, .carDirect 0, .carGear 0, .carStop 0,
      .carPark 0, .carOff 0, .carClear 0], leaves c State.reset fun t => t.rd (R.carStatCmderr 0) = 1 ∧
        t.rd (R.carReasonCode 0) = 0x0708) := by decide +kernel

theorem test_CarriageEncoderAndFaults_met :
    (let s := State.reset
     s.pos[(0 : PosIx)].encA ≠ true ∧ leaves (.encoderEdge 0 false true) s fun t => t.rdI (R.carPosPos 0) = 1) ∧
    leaves (.encoderError 0) (carW 1 [] id) (fun t => carState t 0 = 8 ∧ t.rd (R.carReasonCode 0) = 0x0707) ∧
    leaves (.encoderError 0) (carW 0 [] id) (fun t => carState t 0 = 0 ∧ t.rd (R.carStatEncerr 0) = 1) ∧
    leaves (.indexEdge 0) (carW 2 [] id) (fun t => carState t 0 = 6 ∧ t.rd (R.carStatPvalid 0) = 1) ∧
    leaves (.homingTimeout 0) (carW 2 [] id) (fun t => carState t 0 = 8 ∧ t.rd (R.carReasonCode 0) = 0x0705) ∧
    leaves (.followingErrorFault 0) (carW 3 [] fun c => { c with ferr := 8 }) (fun t => carState t 0 = 8 ∧
      t.rd (R.carReasonCode 0) = 0x0706) ∧
    leaves (.phaseOvercurrent 0) (carW 3 [] fun c => { c with ovc := 4 }) (fun t => carState t 0 = 8 ∧
      t.rd (R.carReasonCode 0) = 0x070C ∧ t.pos[(0 : PosIx)].car.bridgeOn = false) ∧
    (let s := carW 4 [] id
     let top := carVlimOut s 0
     carVlimIn s 0 ≤ top ∧ toSigned 32 (ofSigned 32 top) = top ∧
       leaves (.carTargetWrite 0 (ofSigned 32 top)) s (fun t => t.pos[(0 : PosIx)].car.target = top ∧ t.rd (R.carStatLimclip 0) = 0) ∧
       leaves (.carTargetWrite 0 (ofSigned 32 (carVlimIn s 0 - 1))) s (fun t => t.pos[(0 : PosIx)].car.target = carVlimIn s 0 ∧
         t.rd (R.carStatLimclip 0) = 1)) ∧
    leaves (.carTargetWrite 0 5) (carW 3 [] id) (fun t => t.rd (R.carReasonCode 0) = 0x0702) := by decide +kernel

theorem test_CarriagePeriods_met :
    leaves (.carPwmPeriod 0 2048 2048) (carW 1 [] fun c => { c with offNext := true, bridgeOn := true }) (fun t =>
      carState t 0 = 0 ∧ t.pos[(0 : PosIx)].car.bridgeOn = false) ∧
    (let s := carW 1 [(R.carIlimImax 0, 1000)] fun c => { c with bridgeOn := true, ovc := 2 }
     s.pos[(0 : PosIx)].car.offNext = false ∧ 5 * carImax s 0 * 256 < ((4095 : Int) - 2048).natAbs * 225 * 4 ∧
       runs (.carPwmPeriod 0 4095 2048) s = true ∧ runs (.carPwmPeriod 0 2048 2048) s = true) ∧
    (let s := carW 1 [] fun c => { c with bridgeOn := true }
     s.pos[(0 : PosIx)].car.stopping = false ∧ s.pos[(0 : PosIx)].car.openLoop = false ∧
       s.pos[(0 : PosIx)].car.bridgeCut = false ∧ s.packs[(0 : PosIx)].goPark = false ∧ measOf s 0 = none ∧ runs (.carriageLoop 0) s = true) := by decide +kernel

/-- What a command leaves, and a period after it. -/
def thenW (c d : Instr) (s : State) (f : State → Prop) [∀ t, Decidable (f t)] : Bool :=
  match exec c s with
  | .next t => leaves d t f
  | _ => false

theorem test_DrivesNextPeriod_met :
    (let s := spnW 5 [] id
     0 < spnOv3 s 0 ∧ thenW (.spnCoast 0) (.spnPwmPeriod 0 (pwmW 0)) s (fun t => spnState t 0 = 7)) ∧
    thenW (.carOff 0) (.carPwmPeriod 0 2048 2048) (carW 3 [] id) (fun t => carState t 0 = 0) ∧
    (let s := carW 1 [(R.carStatPvalid 0, 1), (R.spnStatAvalid 0, 1), (R.carGtctlN 0, 0)] id
     carDone s 0 = true ∧ gearEntriesOk s 0 = true ∧ s.packs[(0 : PosIx)].goPark = false ∧ measOf s 0 = none ∧
       thenW (.carGear 0) (.carriageLoop 0) s (fun t => carState t 0 = 5 ∧ t.pos[(0 : PosIx)].car.gearSum = 0)) := by decide +kernel

/-- Fill bytes and numbers as bytes. -/
def bytesW (l : List Nat) : List Byte := l.map (BitVec.ofNat 8)

/-- A calibration record of kind 2 without data. -/
def calRaw : List Byte := bytesW [2, 2]

theorem test_CalibrationOperations_met :
    (let s := wit [(R.calLkeyKind, 2), (R.calSrcAddr, 0x400000)]
     s.rd R.calStatBusy ≠ 1 ∧ sramBase ≤ s.rd R.calSrcAddr * 64 ∧ s.rd R.calSrcAddr * 64 + 192 ≤ sramBase + sramSize ∧
       leaves (.calLookup 65537) s (fun t => t.rd R.calStatBusy = 1 ∧ (t.cal.lookup.map fun k => (k.kind, k.temp)) = some (2, 1)) ∧
       leaves (.calStore 0) s (fun t => t.rd R.calStatBusy = 1 ∧ t.cal.store = some (s.sramRead 0x10000000 192))) ∧
    (∀ c ∈ [Instr.calLookup 0, .calStore 0], leaves c (wit [(R.calStatBusy, 1)]) fun t => t.rd R.calStatErr = 1) ∧
    (let s : State := { State.reset with cal := { CalState.reset with lookup := some { kind := 1, pos := 0, surf := 0, layer := 0, zg := 0, tag := 0, temp := 0 } } }
     s.cal.store = none ∧ s.cal.lookup ≠ none ∧
       leaves .calOperationDone s fun t => t.rd R.calStatBusy = 0 ∧ t.rd R.calLresResult = 5) ∧
    (let s : State := { wit [(R.calRegionBase, 0x10), (R.calRegionSize, 1)] with cal := { CalState.reset with store := some calRaw } }
     s.cal.store = some calRaw ∧ s.cal.lookup = none ∧ roomFor s (recSize calRaw) = some (emberBase + 0x100000) ∧
       (∀ r ∈ calRecords s, sameKey r.raw calRaw = false) ∧
       leaves .calOperationDone s fun t => t.emberRead (emberBase + 0x100000) 64 = slice calRaw 0 64) ∧
    (State.reset.rd R.calInjEn ≠ 1 ∧ leaves (.injectionStart 0 24 9) State.reset fun t => t.rd R.calInjEn = 1 ∧
      t.rd R.calInjLoop = 24 % 2 ^ R.calInjLoop.w) ∧
    leaves (.injectionStart 0 3 9) (wit [(R.calInjEn, 1)]) (fun t => t.rd R.calInjLoop = 0) ∧
    (let s := wit [(R.calInjEn, 1), (R.calInjsCount, 1), (R.calInjpNper, 1)]
     injNper s ≤ s.rd R.calInjsCount ∧ leaves .injectionDone s fun t => t.rd R.calInjEn = 0 ∧ t.rd R.calInjsDone = 1) ∧
    (let o : OpcRun := { layer := 0, area := 0, surfaces := 0 }
     let x : OpcData := { written := [], slots := [], drift := true, discarded := false }
     let s := (wit [(R.lampCrelC0, 1), (R.srvSnuffLatch 0, 0)]).updPack 0 fun k => { k with opc := [o] }
     let n := s.policyOf 0x20 0
     opcMayRun s 0 = true ∧ s.packs[(0 : PosIx)].opcRuns = [] ∧
       (testRun 0 0 [] (n + 1) n (opcUsed s.packs[(0 : PosIx)] 0 0 [])).length = n ∧
       leaves (.opcRun 0 x) s (fun t => t.packs[(0 : PosIx)].opcRuns.length = 1 ∧ opcUsed t.packs[(0 : PosIx)] 0 0 [] = n) ∧
       (let s := s.updPack 0 fun k => { k with opcIn := [(0, 16383)] }
        (testRun 0 0 [] (n + 1) n 16383).length < n ∧
          leaves (.opcRun 0 x) s fun t => t.packs[(0 : PosIx)].roCauses.contains 0x0802 = true ∧ t.packs[(0 : PosIx)].opc = [])) := by
  decide +kernel

/-- The link of position 0 in a state with all lanes. -/
def lnkW (st : Nat) (l : List (Fld × Nat)) (g : IglState → IglState) : State :=
  (wit ([(R.iglStatState 0, st), (R.iglStatLanes 0, 15), (R.iglCtrlEn 0, 1), (R.clkPllLock 7, 1)] ++ l)).updIgl 0 g

/-- What training found. -/
def trainW (pass ver : Nat) : Training := ⟨pass, 0x1FFFF, 5, [1, 2, 3, 4], [1, 2, 3, 4], 0x50460008, ver⟩

theorem test_LinkTrainsOrGoesDown_met :
    leaves (.linkEnable 0 true) State.reset (fun t => t.rd (R.iglCtrlEn 0) = 1) ∧
    leaves (.linkEnable 0 false) (lnkW 2 [] id) (fun t => t.rd (R.iglCtrlEn 0) = 0 ∧ lnkState t 0 = 0) ∧
    leaves (.linkTrain 0) (lnkW 0 [] id) (fun t => lnkState t 0 = 1 ∧ bitAt (t.rd (R.srvSnuffLive 0)) 5 = true) ∧
    (let s := lnkW 1 [(R.srvSnuffLive 0, 32)] id
     s.rd (R.clkPllLock 7) = 1 ∧
       leaves (.trainingDone 0 (trainW 15 0x0100)) s (fun t => lnkState t 0 = 2 ∧ bitAt (t.rd (R.srvSnuffLive 0)) 5 = false ∧
         t.rd (R.iglDelayRtt 0) = 0x1FFFF % 2 ^ (R.iglDelayRtt 0).w) ∧
       leaves (.trainingDone 0 (trainW 14 0x0100)) s (fun t => t.rd (R.iglStatDegraded 0) = 1 ∧
         t.rd (R.iglReasonCode 0) = 0x0901 ∧ t.pos[(0 : PosIx)].spn.degraded = true) ∧
       leaves (.trainingDone 0 (trainW 3 0x0100)) s (fun t => lnkState t 0 = 3 ∧ t.rd (R.iglReasonCode 0) = 0x0905) ∧
       leaves (.trainingDone 0 (trainW 7 0x0200)) s (fun t => lnkState t 0 = 3 ∧ t.rd (R.iglReasonCode 0) = 0x0906)) ∧
    leaves (.laneFail 0 3) (lnkW 2 [] id) (fun t => t.pos[(0 : PosIx)].igl.degrading = some 3 ∧
      t.rd (R.iglReasonCode 0) = 0x0901 ∧ bitAt (t.rd (R.srvSnuffLive 0)) 5 = true) ∧
    leaves (.laneFail 0 0) (lnkW 2 [(R.iglStatLanes 0, 7), (R.iglStatDegraded 0, 1)] id) (fun t => lnkState t 0 = 3 ∧
      t.rd (R.iglReasonCode 0) = 0x0902) ∧
    leaves (.alignSend 0) (lnkW 2 [] id) (fun t => t.pos[(0 : PosIx)].igl.txScr =
      [0x12345670, 0x12345671, 0x12345672, 0x12345673]) ∧
    leaves (.alignReceived 0 3) (lnkW 2 [] id) (fun t => t.pos[(0 : PosIx)].igl.rxScr = [0, 0, 0, 0x12345673]) ∧
    leaves (.alignReceived 0 2) (lnkW 2 [] fun g => { g with degrading := some 3, alignSent := true, aligned := 3 }) (fun t =>
      t.rd (R.iglStatDegraded 0) = 1 ∧ t.rd (R.iglStatLanes 0) = 7) := by decide +kernel

/-- A status block with a fault mask. -/
def statusW (mask : Nat) : List Byte :=
  let b := bytesW [0x33, 0, 0, 2, mask, 0, 0, 0, 0, 0, 0, 0]
  b ++ leBytes 4 (crc32c b)

theorem test_LinkServoAndStatus_met :
    (let c := List.replicate 69 (0 : Byte) ++ leBytes 4 (crc32c (List.replicate 69 0)) ++ List.replicate 11 0
     let blocks := (List.range 6).map (fun k => Block.bytes (0 :: slice c (14 * k) 14)) ++ [.missing, .missing]
     let s := lnkW 2 [] id
     lnkState s 0 = 2 ∧ (∀ b ∈ blocks, b ≠ .badHeader) ∧ slotBytes s 0 blocks = some (c, false) ∧
       leAt c 69 4 = crc32c (c.take 69) ∧
       leaves (.upstreamServoSlot 0 blocks) s (fun t => t.pos[(0 : PosIx)].srv.slot = some (slotContent c)) ∧
       slotBytes s 0 (List.replicate 8 .missing) = none ∧
       leaves (.upstreamServoSlot 0 (List.replicate 8 .missing)) s (fun t => t.rd (R.iglSvupErr 0) = 1)) ∧
    leaves (.servoLinkFault 0) (lnkW 2 [] fun g => { g with upErrors := 3 }) (fun t => t.rd (R.iglReasonCode 0) = 0x0903 ∧
      bitAt (t.rd (R.srvSnuffLive 0)) 5 = true) ∧
    leaves (.servoLinkFault 0) (lnkW 2 [] fun g => { g with downErrors := 3 }) (fun t => t.rd (R.iglStatServoflt 0) = 1) ∧
    (leAt (statusW 1) 0 1 = 0x33 ∧ leAt (statusW 1) 12 4 = crc32c (slice (statusW 1) 0 12) ∧ leAt (statusW 1) 4 2 ≠ 0 ∧
      leaves (.statusBlock 0 [(3, statusW 1)]) (lnkW 2 [] id) (fun t => t.rd (R.iglStatPf8flt 0) = 1 ∧
        bitAt (t.rd (R.srvSnuffLive 0)) 6 = true) ∧
      leaves (.statusBlock 0 [(0, statusW 0)]) (lnkW 2 [(R.srvSnuffLive 0, 64)] id) (fun t =>
        bitAt (t.rd (R.srvSnuffLive 0)) 6 = false ∧ t.rd (R.iglSvdnErr 0) = 2)) ∧
    leaves (.snuffBlock 0 1 255) State.reset (fun t => bitAt (t.rd (R.srvSnuffLive 0)) 6 = false ∧
      t.pos[(0 : PosIx)].igl.events = [{ code := 0x11, mask := 255, data := 0 }]) ∧
    leaves (.snuffBlock 0 255 0) State.reset (fun t => bitAt (t.rd (R.srvSnuffLive 0)) 6 = true) ∧
    leaves (.downstreamServoSlot 0 none) (State.reset.updPf8 0 fun f => { f with bad := 2 }) (fun t =>
      t.pos[(0 : PosIx)].pf8.parked = true) ∧
    (let s := lnkW 2 [] fun g => g
     let c := xorBytes (downstreamContent s 0) (slice [1] 0 84)
     leAt c 49 4 ≠ crc32c (slice c 0 49) ∧
       leaves (.downstreamServoSlot 0 (some [1])) s fun t => t.pos[(0 : PosIx)].pf8.bad = 1) ∧
    leaves (.downstreamServoSlot 0 (some [])) ((lnkW 2 [] id).updPf8 0 fun f => { f with bad := 2 })
      (fun t => t.pos[(0 : PosIx)].pf8.bad = 0) ∧
    leaves (.cevt 0 3 0 0x8000) State.reset (fun t => t.packs[(0 : PosIx)].temp = -32768 ∧ t.rd (R.calTempValid 0) = 1) ∧
    leaves (.cevt 0 4 1 2) State.reset (fun t => t.pos[(0 : PosIx)].igl.events = [{ code := 4, mask := 1, data := 2 }]) := by
  decide +kernel

/-- A wick packet for pickup 7. -/
def wickW (ok : Bool) : WickPacket := ⟨7, false, ok, false⟩

/-- Engine 0 pours the frame of descriptor d with pickup 7 of position 0. -/
def wickingW (d : List Byte) (sent : Nat) : State :=
  (wit [(R.castStatBusy 0, 1)]).updEng 0 fun e => { e with home := some (0, 7), gate := true, desc := d, sent := sent }

/-- A control request of firmware that is out. -/
def creqW (tries : Nat) : Creq := ⟨0, 1, 0, 0, tries, .firmware⟩

theorem test_ControlChannelAndWick_met :
    leaves (.controlRequest 0 1 7) (lnkW 2 [] id) (fun t => t.rd (R.iglCstatBusy 0) = 1 ∧
      t.pos[(0 : PosIx)].igl.out = [⟨0, 1, 7, 0, 1, .firmware⟩]) ∧
    leaves (.controlRequest 0 1 7) (lnkW 2 [(R.iglCstatBusy 0, 1)] id) (fun t => t.rd (R.iglCstatErr 0) = 1 ∧
      t.rd (R.iglReasonCode 0) = 0x0907) ∧
    (let s := lnkW 2 [(R.iglCstatBusy 0, 1)] fun g => { g with out := [creqW 6] }
     (s.pos[(0 : PosIx)].igl.out.find? fun x => x.seq == 0 && x.op == 1) = some (creqW 6) ∧
       leaves (.crsp 0 0 1 0 99) s (fun t => t.rd (R.iglCstatBusy 0) = 0 ∧ t.rd (R.iglCstatResult 0) = 1 ∧ t.rd (R.iglCdataData 0) = 99) ∧
       leaves (.crsp 0 0 1 3 99) s (fun t => t.rd (R.iglCstatResult 0) = 2) ∧
       leaves (.creqTimeout 0 0) s (fun t => t.pos[(0 : PosIx)].igl.out = [creqW 7] ∧ t.rd (R.iglCretryCount 0) = 1)) ∧
    leaves (.creqTimeout 0 0) (lnkW 2 [(R.iglCstatBusy 0, 1)] fun g => { g with out := [creqW 7] }) (fun t =>
      t.pos[(0 : PosIx)].igl.out = [] ∧ t.rd (R.iglReasonCode 0) = 0x0904 ∧ t.rd (R.iglCstatResult 0) = 3) ∧
    (let s := wickingW descW 0
     s.pos[(0 : PosIx)].pf8.ignoreWick = false ∧ s.pos[(0 : PosIx)].pf8.gate.length = 8 ∧
       (∀ k : EngIx, k ≠ 0 → s.eng[k].home ≠ some (0, 7)) ∧
       (nextWick descW 0).map (fun x => (x.2.1, x.2.2.1, x.2.2.2)) = some (384, true, false) ∧
       leaves (.wickPacket 0 (wickW true)) s (fun t => nth false t.pos[(0 : PosIx)].pf8.gate 7 = true) ∧
       leaves (.wickPacket 0 (wickW false)) s (fun t => nth false t.pos[(0 : PosIx)].pf8.gate 7 = false ∧
         bitAt t.pos[(0 : PosIx)].pf8.underrun 7 = true)) ∧
    (let at_ := 128 + 822 * 384
     nextWick descW at_ = some (at_, 96, false, true) ∧ nextWick descW (at_ + 96) = none ∧
       leaves (.wickPacket 0 (wickW true)) (wickingW descW at_) fun t => t.eng[(0 : EngIx)].gate = false ∧
         t.eng[(0 : EngIx)].poured.length = 1 ∧ t.rd (R.castStatBusy 0) = 0) := by decide +kernel

/-- An entry of 64 bytes with some of them given. -/
def sqeW (l : List (Nat × Nat)) : List Byte := l.foldl (fun a x => setNth a x.1 (BitVec.ofNat 8 x.2)) (List.replicate 64 0)

/-- An admitted command of F0's admin queue under tag 5. -/
def tagW (l : List (Nat × Nat)) : Tag :=
  { num := 5, fn := 0, sqid := 0, cqid := 0, cid := 9, sqe := sqeW l, ptrOk := true, pieces := [], stamp := 10, aseq := 1, started := false, done := false, taken := false, aborted := false, orphan := false, abortOf := none, job := none, policy := [], work := .none }

/-- F0's admin completion and submission queue. -/
def cqW : CQ :=
  { fn := 0, qid := 0, log2 := 4, base := 0x1000, iv := 3, ithr := 0, itime := 1, hshare := 16, ien := true, posted := 0, head := 0, bell := 0, held := [], paused := false, unsig := 0 }
def sqW : SQ :=
  { fn := 0, qid := 0, log2 := 4, base := 0x2000, cqid := 0, poll := 1, burst := 4, head := 15, tail := 0, consumed := 3, wake := true, frozenAt := none, broken := false }

/-- A host interface that runs, with queues and tags; tag contexts lie in SRAM. -/
def hostW (l : List (Fld × Nat)) (sqs : List SQ) (cqs : List CQ) (tags : List Tag) : State :=
  let s := wit ([(R.hqiCtrlEn, 1), (R.lampCrelC0, 1), (R.fnCtlEn 0, 1), (R.fnStsRdy 0, 1), (R.hqiTctxAddr, 0x100), (R.hqiCringLog2, 8),
    (R.lampOptPosEn, 255)] ++ l)
  { s with hqi := { s.hqi with sqs := sqs, cqs := cqs, tags := tags, linkUp := true, aseq := 2 } }

/-- The completion of tag 5 stands in its context with a class and a reason. -/
def endedW (u : State) (cls reason : Nat) : Bool :=
  (tagOf u 5).map (·.done) == some true && leAt (ctxBody u 5) 24 1 == cls && leAt (ctxBody u 5) 22 2 == reason

theorem test_FunctionLife_met :
    (let s := wit [(R.fnAqaAsqlog 15, 4), (R.fnAqaAcqlog 15, 0), (R.fnAsqAddr 15, 1), (R.fnAcqAddr 15, 2)]
     s.rd (R.fnCtlEn 15) = 0 ∧ s.fns[(15 : FnIx)].resetting = false ∧ 4 ≤ ringLog (s.rd (R.fnAqaAsqlog 15)) ∧
       leaves (.functionEnable 15) s fun t => t.rd (R.fnCtlEn 15) = 1 ∧
         (sqOf t 15 0).map (fun q => (q.log2, q.base)) = some (4, 4096) ∧
         (cqOf t 15 0).map (fun q => (q.log2, q.base, q.hshare)) = some (16, 8192, 16)) ∧
    (let s := wit [(R.fnAqaAsqlog 15, 3), (R.fnAqaAcqlog 15, 4), (R.fnAsqAddr 15, 1), (R.fnAcqAddr 15, 2)]
     leaves (.functionEnable 15) s fun t => t.rd (R.fnStsCfgerr 15) = 1 ∧ t.rd (R.fnCtlEn 15) = 0 ∧ t.hqi = s.hqi) ∧
    leaves (.functionReady 1) (wit [(R.fnCtlEn 1, 1), (R.hqiCtrlEn, 1)]) (fun t => t.rd (R.fnStsRdy 1) = 1) ∧
    leaves (.functionReady 0) (wit [(R.fnCtlEn 0, 1), (R.hqiCtrlEn, 1), (R.lampStatRecovery, 1)]) (fun t => t.rd (R.fnStsRdy 0) = 1) ∧
    leaves (.functionReady 1) (wit [(R.fnCtlEn 1, 1)]) (fun t => t.rd (R.fnStsRdy 1) = 0) ∧
    (∀ c ∈ [Instr.flr 1, .busMasterDisable 1, .functionDisable 1, .vfEnableClear, .hotReset, .pcieLinkDown, .flr 0],
      leaves c (wit [(R.fnCtlEn 1, 1), (R.fnStsRdy 1, 1)]) fun t => t.rd (R.fnCtlEn 1) = 0 ∧ t.rd (R.fnStsRdy 1) = 0 ∧
        t.fns[(1 : FnIx)].resetting = true) ∧
    (let s := State.reset.updFn 1 fun x => { x with resetting := true }
     leaves (.functionResetDone 1) s fun t => t.fns[(1 : FnIx)].resetting = false) ∧
    (let s := (wit [(R.fnAqaAsqlog 15, 4), (R.fnAqaAcqlog 15, 4), (R.fnAsqAddr 15, 1), (R.fnAcqAddr 15, 2)]).updFn 15 fun x =>
       { x with resetting := true }
     leaves (.functionEnable 15) s (fun t => t.fns[(15 : FnIx)].enNext = true ∧ t.rd (R.fnCtlEn 15) = 0) ∧
       leaves (.functionResetDone 15) (s.updFn 15 fun x => { x with enNext := true }) fun t => t.rd (R.fnCtlEn 15) = 1 ∧
         (cqOf t 15 0).isSome = true) ∧
    leaves (.pcieLaneFail 7) State.reset (fun t => t.hqi.lanesBad = 128 ∧ t.hqi.width = 4) := by decide +kernel

theorem test_DoorbellsAndFetches_met :
    (let s := hostW [] [sqW] [cqW] []
     leaves (.sqDoorbell 0 0 1 2) s (fun t => t.rd (R.fnStsSzerr 0) = 1) ∧
       leaves (.cqDoorbell 0 0 1 8) s (fun t => t.rd (R.fnStsSzerr 0) = 1) ∧
       leaves (.sqDoorbell 0 1023 1 4) s (fun t => t.rd (R.fnStsDberr 0) = 1) ∧
       leaves (.cqDoorbell 0 1023 1 4) s (fun t => t.rd (R.fnStsDberr 0) = 1) ∧
       leaves (.sqDoorbell 0 0 (2 ^ 32 - 1) 4) s (fun t => sqOf t 0 0 = some { sqW with tail := 2 ^ 32 - 1 }) ∧
       leaves (.sqPollExpiry 0 0) (hostW [(R.fnApollPoll 0, 1)] [{ sqW with wake := false }] [cqW] []) (fun t => sqOf t 0 0 = some sqW) ∧
       fetchTurn s = some (0, 0) ∧ mayTake s sqW = true ∧ 0 < min sqW.burst (2 ^ sqW.log2 - sqW.head) ∧
       ownedByDevice (sqeW []) = false ∧ ownedByDevice (sqeW [(63, 128)]) = true ∧
       leaves (.sqFetch 0 0 [⟨sqeW [], []⟩]) s (fun t => sqOf t 0 0 = some { sqW with wake := false } ∧ t.hqi.tags = []) ∧
       leaves (.sqFetchFailed 0 0) s (fun t => t.rd (R.fnStsQerr 0) = 1 ∧ (sqOf t 0 0).map (·.broken) = some true)) ∧
    (let s := hostW [(R.lampCrelC0, 0)] [sqW] [cqW] []
     fetchTurn s = some (0, 0) ∧ leaves (.sqFetch 0 0 [⟨sqeW [(63, 128), (2, 9)], []⟩]) s fun t =>
       (sqOf t 0 0).map (fun y => (y.head, y.consumed)) = some (0, 4) ∧ t.hqi.tags.map (·.cid) = [9] ∧
         t.hostOut = [.write 0 (0x2000 + 64 * 15 + 63) [0]]) ∧
    (let s := hostW [] [] [{ cqW with posted := 16 }] []
     leaves (.cqDoorbell 0 0 0 4) s (fun t => (cqOf t 0 0).map (·.head) = some 0) ∧
       leaves (.cqDoorbell 0 0 (2 ^ 32 - 1) 4) s (fun t => t.rd (R.fnStsDberr 0) = 1)) := by decide +kernel

theorem test_AdmissionOfCommands_met :
    (let s := hostW [(R.lampCrelC0, 0)] [] [] [{ tagW [(0, 9)] with aseq := 0 }]
     leaves (.commandRecordConsumed (2 ^ 32)) s fun t => t.rd R.hqiCciCount = 0 ∧ t.hqi = s.hqi) ∧
    (let v := { tagW [(0, 0x0C)] with aseq := 0 }
     let s := hostW [] [sqW] [cqW] [v]
     s.hqi.tags.filter unadmitted = [v] ∧ s.rd R.fltStatFatal = 0 ∧ admitChecks s v v.dlen = some 0x0202 ∧
       leaves (.commandRecordConsumed 1) s fun t => t.hqi.aseq = 2) ∧
    (let v := { tagW [(0, 9)] with aseq := 0 }
     let s := hostW [] [sqW] [cqW] [v]
     admitChecks s v v.dlen = none ∧ v.posNamed = none ∧ pointerOk v = true ∧
       leaves (.commandRecordConsumed 1) s fun t => t.hqi.aseq = 3 ∧ (tagOf t 5).map (·.aseq) = some 2) := by decide +kernel

theorem test_QueueManagement_met :
    (let v := tagW [(0, 1), (32, 1), (34, 4), (17, 16), (42, 1), (40, 8)]
     let s := hostW [] [sqW] [cqW] [v]
     qmAt s 5 1 = some v ∧ createCqCheck s v = none ∧ AllTaken s ∧ leaves (.createCq 5) s fun t => endedW t 0 0 = true ∧
       (cqOf t 0 1).map (fun c => (c.log2, c.base, c.hshare, c.ien)) = some (4, 0x1000, 8, true)) ∧
    (let v := tagW [(0, 1), (32, 0), (34, 4), (17, 16)]
     let s := hostW [] [sqW] [cqW] [v]
     createCqCheck s v = some 0x0102 ∧ leaves (.createCq 5) s fun t => endedW t 1 0x0102 = true) ∧
    (let v := tagW [(0, 2), (32, 1), (34, 16), (17, 16)]
     let s := hostW [] [sqW] [cqW] [v]
     qmAt s 5 2 = some v ∧ createSqCheck s v = none ∧ leaves (.createSq 5) s fun t => endedW t 0 0 = true ∧
       (sqOf t 0 1).map (fun c => (c.log2, c.base, c.cqid)) = some (16, 0x1000, 0)) ∧
    (let v := tagW [(0, 2), (32, 1), (34, 17), (17, 16)]
     let s := hostW [] [sqW] [cqW] [v]
     createSqCheck s v = some 0x0104 ∧ leaves (.createSq 5) s fun t => endedW t 1 0x0104 = true) ∧
    (let v := tagW [(0, 3), (32, 1)]
     let s := hostW [] [sqW, { sqW with qid := 1 }] [cqW] [v]
     qmAt s 5 3 = some v ∧ (sqOf s 0 1).isSome = true ∧
       leaves (.destroySq 5 false) s (fun t => endedW t 0 0 = true ∧ sqOf t 0 1 = none) ∧
       leaves (.destroySq 5 true) s (fun t => endedW t 1 0x0101 = true)) ∧
    (let v := tagW [(0, 4), (32, 1)]
     let s := fun (sqs : List SQ) (held : List Held) => hostW [] sqs [cqW, { cqW with qid := 1, held := held }] [v]
     qmAt (s [] []) 5 4 = some v ∧ leaves (.destroyCq 5) (s [] []) (fun t => endedW t 0 0 = true ∧ cqOf t 0 1 = none) ∧
       leaves (.destroyCq 5) (s [{ sqW with cqid := 1 }] []) (fun t => endedW t 1 0x0107 = true) ∧
       leaves (.destroyCq 5) (s [] [{ tag := none, body := [] }]) (fun t => endedW t 1 0x0101 = true)) := by
  unfold AllTaken
  decide +kernel

theorem test_ThawAbortAndQuota_met :
    (let v := tagW [(0, 5), (32, 1), (34, 1)]
     let s := fun (l : List (Nat × Nat)) => (hostW [] [{ sqW with qid := 1, frozenAt := some 4, wake := false }] [cqW] [v]).updFn 0
       fun x => { x with logReads := l }
     qmAt (s []) 5 5 = some v ∧ logRead (s [(5, 9)]) v 4 = true ∧ logRead (s [(4, 9)]) v 4 = false ∧
       leaves (.thawQueue 5 [sqeW []]) (s [(5, 9)]) (fun t => endedW t 0 0 = true ∧
         (sqOf t 0 1).map (fun q => (q.frozenAt, q.wake)) = some (none, true)) ∧
       leaves (.thawQueue 5 []) (s [(4, 9)]) (fun t => endedW t 1 0x010D = true)) ∧
    (let v := tagW [(0, 6), (32, 1), (34, 9)]
     let w : Nat → Tag := fun op => { tagW [(0, op)] with num := 6, sqid := 1 }
     qmAt (hostW [] [] [cqW] [v]) 5 6 = some v ∧
       leaves (.abort 5) (hostW [] [] [cqW] [v]) (fun t => endedW t 1 0x010F = true) ∧
       opAbortable 0x10 = false ∧ leaves (.abort 5) (hostW [] [] [cqW] [v, w 0x10]) (fun t => endedW t 1 0x0110 = true) ∧
       opAbortable 0x85 = true ∧ leaves (.abort 5) (hostW [] [] [cqW] [v, w 0x85]) (fun t =>
         (tagOf t 6).map (fun y => (y.aborted, y.done)) = some (true, true) ∧
           (tagOf t 5).map (·.abortOf) = some (some (6, false))) ∧
       leaves (.abort 5) (hostW [] [] [cqW] [v, { w 0x85 with taken := true }]) (fun t =>
         (tagOf t 5).map (·.abortOf) = some (some (6, true)))) ∧
    (let v := tagW [(0, 7), (32, 15), (34, 1), (36, 1), (38, 16), (40, 16)]
     let s := hostW [] [sqW] [cqW] [v]
     qmAt s 5 7 = some v ∧ quotaLeaves s R.fnQuotaSqmax 1024 (sqCount s 0) 1 15 1 = true ∧
       quotaLeaves s R.fnQuotaTags 32768 (tagsOf s 0) 16 15 16 = true ∧
       leaves (.quota 5) s fun t => endedW t 0 0 = true ∧ t.rd (R.fnQuotaTags 15) = 16 ∧ t.rd (R.fnQuotaHold 15) = 16) ∧
    (let v := tagW [(0, 7), (32, 15), (34, 0), (36, 1), (38, 16), (40, 16)]
     leaves (.quota 5) (hostW [] [sqW] [cqW] [v]) fun t => endedW t 1 0x010C = true) := by decide +kernel

theorem test_CompletionsAndHostData_met :
    (let s := hostW [] [sqW] [cqW] [{ tagW [(0, 9)] with taken := true }]
     leaves (.completionPost 6) s (fun t => t.rd R.hqiPstatResult = 3) ∧
       leaves (.completionPost 5) s (fun t => t.rd R.hqiPstatResult = 3 ∧ t.hqi = s.hqi) ∧
       leaves (.hqiAbort 6) s (fun t => t.rd R.hqiAstatResult = 3) ∧ leaves (.hqiAbort 5) s (fun t => t.rd R.hqiAstatResult = 2)) ∧
    (let s := hostW [] [sqW] [cqW] [tagW [(0, 9)]]
     leaves (.completionPost 5) s (fun t => t.rd R.hqiPstatResult = 1) ∧ leaves (.hqiAbort 5) s (fun t =>
       t.rd R.hqiAstatResult = 1 ∧ (tagOf t 5).map (·.aborted) = some true)) ∧
    (let v := tagW [(0, 0x80)]
     let s := hostW [] [sqW] [cqW] [v]
     let u : State := { s with journal := { s.journal with pend := [{ seq := 0, tag := 1, time := 0, body := .assign 0 0 4096 1 }] } }
     assignPending u v = true ∧ leaves (.completionPost 5) u fun t => t.hqi = u.hqi) ∧
    leaves (.completionPost 5) (hostW [] [sqW] [cqW] [{ tagW [(0, 9)] with aborted := true }]) (fun t => t.rd R.hqiPstatResult = 2) ∧
    (let s := hostW [] [] [{ cqW with unsig := 1 }] []
     vecMasked s 0 3 = true ∧ leaves (.interruptTimer 0 0) s (fun t => cqOf t 0 0 = some cqW ∧ t.fns[(0 : FnIx)].pendVec = [3]) ∧
       (let u : State := { s with hqi := { s.hqi with msix := [(60, 0)] } }
        vecMasked u 0 3 = false ∧ leaves (.interruptTimer 0 0) u fun t => t.hostOut = [.msix 0 3])) ∧
    leaves (.interruptTimer 0 0) (hostW [] [] [cqW] []) (fun t => t.hostOut = []) ∧
    (let v := { tagW [(0, 0x80)] with work := .write 0 0 4096 0 false }
     let s := hostW [] [] [cqW] [v]
     mayTransfer s v = true ∧ leaves (.hostDataArrival 5 0 [] []) s fun t => (tagOf t 5).map (fun w => (w.started, w.work)) =
       some (true, .write 0 0 4096 0 false)) ∧
    (let v := tagW [(0, 0x80)]
     let s := hostW [] [] [{ cqW with paused := true }] [v]
     mayTransfer s v = false ∧ leaves (.hostDataArrival 5 0 [] []) s fun t => t.hqi = s.hqi) ∧
    (let s := hostW [] [sqW] [cqW] [tagW [(0, 0x0A)]]
     leaves (.hostDmaReadError 5) s fun t => endedW t 5 0x0113 = true) := by decide +kernel

theorem test_LogsEventsPolicyAndGrants_met :
    (let v := { tagW [(0, 8), (32, 8), (24, 16)] with pieces := [(0x9000, 16)] }
     let s := hostW [] [sqW] [cqW] [v]
     cmdAt s 5 8 = some v ∧ v.pieces = [(0x9000, v.dlen)] ∧ 0 < v.dlen ∧ leaves (.getLog 5) s fun t => endedW t 0 0 = true ∧
       t.hostOut = [.write 0 0x9000 (slice (pagePolicy s) 0 16)]) ∧
    (let v := tagW [(0, 9)]
     let s := (hostW [] [sqW] [cqW] [v]).updFn 0 fun x => { x with changes := [(2, 7), (4, 0)] }
     cmdAt s 5 9 = some v ∧ leaves (.eventWait 5) s (fun t => endedW t 0 0 = true ∧ t.fns[(0 : FnIx)].changes = [(4, 0)]) ∧
       (let s := hostW [] [sqW] [cqW] [v]
        s.fns[v.fn].changes = [] ∧ leaves (.eventWait 5) s fun t => t.hqi = s.hqi)) ∧
    (let v := tagW [(0, 0x0A), (24, 16)]
     let s := hostW [] [sqW] [cqW] [v]
     let data := bytesW [0x12, 0, 129, 0, 0, 0, 0, 0, 64, 0, 0, 0, 0, 0, 0, 0]
     let beyond := bytesW [0x12, 0, 129, 0, 0, 0, 0, 0, 65, 0, 0, 0, 0, 0, 0, 0]
     cmdAt s 5 0x0A = some v ∧ policyCheck s (policyEntries data) = none ∧ policyCheck s (policyEntries beyond) = some 0x020B ∧
       leaves (.setPolicy 5 data) s (fun t => endedW t 0 0 = true ∧ t.policyOf 0x12 7 = 64 ∧ t.policyOf 0x12 6 = s.policyOf 0x12 6) ∧
       leaves (.setPolicy 5 beyond) s (fun t => endedW t 1 0x020B = true ∧ t.policy = [])) ∧
    (let v := tagW [(0, 0x0B), (32, 15), (33, 255)]
     let s := hostW [] [sqW] [cqW] [v]
     cmdAt s 5 0x0B = some v ∧ leaves (.grant 5) s fun t => endedW t 0 0 = true ∧ t.fns[(15 : FnIx)].grant = 255) := by decide +kernel

/-- An image of a blank pack. -/
def imgW : PackImage := { card := [], segs := [], written := [] }

theorem test_PackCommands_met :
    (let v := { tagW [(0, 0x10), (33, 1)] with work := .pack 0 }
     let s := fun (l : List (Fld × Nat)) (k : PackState → PackState) => (hostW l [sqW] [cqW] [v]).updPack 0 k
     cmdAt (s [] id) 5 0x10 = some v ∧ v.posNamed = some 0 ∧
       leaves (.mount 5 imgW) (s [] fun k => { k with status := .mounted }) (fun t => endedW t 1 0x0410 = true) ∧
       leaves (.mount 5 imgW) (s [] id) (fun t => endedW t 1 0x0401 = true) ∧
       leaves (.mount 5 imgW) (s [(R.posCfgPack 0, 1)] id) (fun t => endedW t 1 0x0404 = true) ∧
       leaves (.mount 5 imgW) (s [(R.posCfgPack 0, 1), (R.posCfgEn 0, 1)] id) (fun t =>
         t.packs[(0 : PosIx)].status = .mounting ∧ t.packs[(0 : PosIx)].owner = some 5 ∧ t.packs[(0 : PosIx)].roMount = true) ∧
       reconciled PackState.reset = true ∧
       leaves (.mount 5 imgW) (s [] fun k => { k with status := .mounting, owner := some 5, recon := true }) (fun t =>
         endedW t 0 0 = true ∧ t.packs[(0 : PosIx)].status = .mounted ∧ t.packs[(0 : PosIx)].power = 2)) ∧
    (let v := { tagW [(0, 0x11)] with work := .pack 0 }
     let s := ((hostW [] [sqW] [cqW] [v]).updPack 0 fun k => { k with status := .unmounting, owner := some 5 }).updMtl fun m =>
       { m with keys := [(0, [])] }
     packCmd s 0 0x11 = some v ∧ s.packs[(0 : PosIx)].goOff = false ∧ otherTags s 0 5 = [] ∧
       castsLeft s.packs[(0 : PosIx)] = false ∧ flushed s.packs[(0 : PosIx)] = true ∧
       leaves (.unmount 0) s fun t => t.packs[(0 : PosIx)].casts = [] ∧ Assoc.get 0 t.mtl.keys = none) ∧
    (let v := { tagW [(0, 0x12), (33, 2), (34, 2)] with work := .pack 0 }
     let s := (hostW [] [sqW] [cqW] [v]).updPack 0 fun k => { k with status := .mounted }
     packCmd s 0 0x12 = some v ∧ v.csp 33 1 = 2 ∧
       leaves (.packPower 0) s fun t => endedW t 0 0 = true ∧ t.packs[(0 : PosIx)].floor = 2) ∧
    (let v := fun (target : Nat) => { tagW [(0, 0x12), (33, 1), (34, target)] with work := .pack 0 }
     let s := fun (target power : Nat) => (hostW [] [sqW] [cqW] [v target]).updPack 0 fun k => { k with status := .mounted, power := power }
     packCmd (s 2 3) 0 0x12 = some (v 2) ∧ otherTags (s 2 3) 0 5 = [] ∧ streaming (s 2 3) 0 = false ∧
       flushed (s 2 3).packs[(0 : PosIx)] = true ∧
       leaves (.packPower 0) (s 2 3) (fun t => endedW t 0 0 = true ∧ t.packs[(0 : PosIx)].power = 2) ∧
       leaves (.packPower 0) (s 1 1) (fun t => endedW t 0 0 = true ∧ t.packs[(0 : PosIx)].power = 1) ∧
       leaves (.packPower 0) (s 1 2) (fun t => t.packs[(0 : PosIx)].goPark = true ∨ t.packs[(0 : PosIx)].power ≤ 1)) ∧
    (let v := { tagW [(0, 0x15), (40, 64)] with work := .pack 0 }
     let e : Uncast := { addr := 0, len := 64, cause := 2, reason := 0, time := 0 }
     let s := fun (l : List Uncast) => (hostW [] [sqW] [cqW] [v]).updPack 0 fun k => { k with status := .mounted, uncast := l }
     packCmd (s [e]) 0 0x15 = some v ∧
       leaves (.discardRange 0) (s [e]) (fun t => endedW t 0 0 = true ∧ t.packs[(0 : PosIx)].uncast = []) ∧
       leaves (.discardRange 0) (s []) (fun t => endedW t 1 0x0212 = true)) ∧
    (let v := { tagW [(0, 0x13), (36, 1)] with work := .pack 0 }
     let s := (hostW [] [sqW] [cqW] [v]).updPack 0 fun k => { k with status := .mounted, blank := true }
     packCmd s 0 0x13 = some v ∧ s.packs[(0 : PosIx)].fmt = none ∧ v.csp 36 8 ≠ 0 ∧ (escrowKey s 1).isSome = false ∧
       leaves (.format 0) s fun t => endedW t 1 0x0C04 = true) ∧
    (let v := { tagW [(0, 0x13)] with work := .pack 0 }
     let s := (hostW [] [sqW] [cqW] [v]).updPack 0 fun k => { k with status := .mounted, blank := true }
     v.csp 36 8 = 0 ∧ s.mtl.trngBad = false ∧ runs (.format 0) s = true ∧
       leaves (.format 0) (s.updMtl fun m => { m with trngBad := true }) fun t => endedW t 6 0x0C08 = true) ∧
    (let v := { tagW [(0, 0x14), (33, 2)] with work := .pack 0 }
     let s := ((hostW [] [sqW] [cqW] [v]).updPack 0 fun k => { k with status := .mounted }).updMtl fun m =>
       { m with keys := [(0, [])] }
     packCmd s 0 0x14 = some v ∧ s.packs[(0 : PosIx)].keyGone = false ∧ s.packs[(0 : PosIx)].owner ≠ some 5 ∧ withinRank s 0 = false ∧
       leaves (.sanitise 0 0) s fun t => t.packs[(0 : PosIx)].keyGone = true ∧ t.packs[(0 : PosIx)].sanMode = 2 ∧
         Assoc.get 0 t.mtl.keys = none) := by decide +kernel

/-- Position 0 in Tracking-idle with a mounted pack. -/
def trackW (l : List (Fld × Nat)) (k : PackState → PackState) : State :=
  let s := (hostW ([(R.iglStatState 0, 2), (R.spnStatLock 0, 1), (R.carStatPvalid 0, 1), (R.carStatState 0, 1), (R.pwrEngrdyRdy, 255)] ++ l)
    [] [] []).updPack 0 fun x => k { x with status := .mounted }
  (List.finRange 8).foldl (fun s f => s.updLoop 0 (focusOf f) fun x => { x with mode := loopClosed }) s

theorem test_PackPresenceAndPower_met :
    leaves (.packSeated 7) State.reset (fun t => t.rd (R.posCfgPack 7) = 1 ∧ t.pins.sense = 128) ∧
    (let s := (wit [(R.posCfgPack 0, 1), (R.srvSnuffLatch 0, 0)]).updPack 0 fun k => { k with status := .mounted }
     leaves (.packRemoved 0) s fun t => t.rd (R.posCfgPack 0) = 0 ∧ t.rd (R.srvSnuffLatch 0) = 1 ∧
       t.packs[(0 : PosIx)].status = .none) ∧
    (let s := wit [(R.lampOptPosEn, 1)]
     posCheck s 0 = 0 ∧ leaves (.positionEnable 0 true) s (fun t => t.rd (R.posCfgEn 0) = 1) ∧
       posCheck s 1 = 0x030A ∧ leaves (.positionEnable 1 true) s (fun t => t.rd (R.posCfgEn 1) = 0 ∧ t.rd (R.posChkReason 1) = 0x030A)) ∧
    (posFree (wit [(R.posCfgEn 0, 1)]) 0 = true ∧ leaves (.positionEnable 0 false) (wit [(R.posCfgEn 0, 1)]) fun t =>
      t.rd (R.posCfgEn 0) = 0) ∧
    (posFree (spnW 5 [] id) 0 = false ∧ leaves (.positionEnable 0 false) (spnW 5 [] id) fun t => t.rd (R.posCfgEn 0) = 1 ∧
      t.rd (R.posChkReason 0) = 0x030B) ∧
    (let s := State.reset.updPack 0 fun k => { k with power := 3 }
     streaming s 0 = false ∧ flushed s.packs[(0 : PosIx)] = true ∧
       leaves (.streamingIdleExpiry 0) s (fun t => t.packs[(0 : PosIx)].power = 2) ∧
       leaves (.streamingIdleExpiry 0) (s.updPack 0 fun k => { k with lq := [recW] }) (fun t =>
         t.packs[(0 : PosIx)].power = 3 ∧ t.packs[(0 : PosIx)].flushDue = true)) ∧
    (let s := State.reset.updPack 0 fun k => { k with power := 2, floor := 1 }
     s.policyOf 0x40 0 ≠ 0 ∧ s.packs[(0 : PosIx)].goPark = false ∧ carState s 0 = carOff ∧
       leaves (.idleParkExpiry 0) s fun t => t.packs[(0 : PosIx)].power = 1) ∧
    leaves (.idleParkExpiry 0) ((wit [(R.carStatState 0, 1)]).updPack 0 fun k => { k with power := 2 }) (fun t =>
      t.packs[(0 : PosIx)].goPark = true) ∧
    (let s := State.reset.updPack 0 fun k => { k with power := 1 }
     s.policyOf 0x41 0 ≠ 0 ∧ s.packs[(0 : PosIx)].floor = 0 ∧ s.packs[(0 : PosIx)].goOff = false ∧
       leaves (.idleSpindownExpiry 0) s fun t => t.packs[(0 : PosIx)].goOff = true ∨ t.packs[(0 : PosIx)].power = 0) ∧
    (let s := State.reset.updPack 0 fun k => { k with status := .mounted }
     bitAt s.packs[(0 : PosIx)].seen 15 = false ∧ leaves (.layerFirstAccess 0 15 [[]]) s fun t =>
       bitAt t.packs[(0 : PosIx)].seen 15 = true ∧ t.packs[(0 : PosIx)].roCauses.contains 0x0804 = true) ∧
    (let s := { trackW [] (fun k => { k with recorded := [3] }) with policy := [(0x30 * 16, 1)] }
     s.policyOf 0x30 0 ≠ 0 ∧ readWaits s = false ∧ tracking s 0 = true ∧ s.packs[(0 : PosIx)].patrolling = none ∧
       leaves (.patrolRead 0 511) s fun t => t.packs[(0 : PosIx)].patrolling = some 511) ∧
    (let s := trackW [] fun k => { k with opcDone := 2 ^ 15 }
     let es : List EngIx := [0, 1, 2, 3, 4, 5, 6, 7]
     streaming s 0 = false ∧ enginesFree s 0 es = true ∧ tracking s 0 = true ∧ s.rd (R.iglStatSuspend 0) = 0 ∧
       othersRun s 0 (fun _ => true) < stripeLimit s ∧ bitAt s.packs[(0 : PosIx)].opcDone 15 = true ∧
       leaves (.stripeStart 0 true 15 es) s (fun t => t.packs[(0 : PosIx)].power = 3 ∧
         t.stripes = [{ p := 0, pour := true, engines := es }]) ∧
       leaves (.stripeStart 0 false 0 es) s (fun t => t.eng[(7 : EngIx)].home.map (·.1) = some 0)) := by decide +kernel

theorem test_DataAndCompressionCommands_met :
    (∀ op ∈ [0x80, 0x81],
      let v := { tagW [(0, op)] with sqid := 1, work := .write 0 0 4096 4096 false }
      let s := hostW [] [sqW, { sqW with qid := 1 }] [cqW] [v]
      writeDone s v = true ∧ v.job = none ∧ (∀ x ∈ s.hqi.tags, writeFailed s x = false) ∧ leaves (if op = 0x80 then .append 5 [] else .place 5 []) s fun t => endedW t 0 0 = true) ∧
    (∀ op ∈ [0x82, 0x83],
      let v := { tagW [(0, op)] with sqid := 1, work := .read 0 4096 4096 0 (op == 0x83) 0 0 0 }
      let s := (hostW [] [sqW, { sqW with qid := 1 }] [cqW] [v]).updPack 0 fun k =>
        { k with status := .mounted, uncast := [{ addr := 0, len := 8192, cause := 2, reason := 0, time := 0 }] }
      mayTransfer s v = true ∧ firstLost s 0 (4096 + 0) (min (4096 + 4096) (((4096 + 0) / rankBytes + 1) * rankBytes)) = some 4096 ∧
        leaves (if op = 0x82 then .read 5 else .verify 5) s fun t => endedW t 2 0x040B = true ∧ t.hostOut = []) ∧
    (∀ op ∈ [0x82, 0x83],
      let v := { tagW [(0, op)] with sqid := 1, pieces := [(0x9000, 16)], work := .read 0 4096 16 0 (op == 0x83) 0 0 0 }
      let s := packW [rankW 0 .filling] (hostW [] [sqW, { sqW with qid := 1 }] [cqW] [v])
      firstLost s 0 4096 4112 = none ∧ ((rankCws 0 0 1 2 s).1.all fun c => match c with | .ok .. => true | _ => false) = true ∧
        leaves (if op = 0x82 then .read 5 else .verify 5) s fun t => endedW t 0 0 = true ∧
          t.hostOut = if op = 0x82 then [.write 0 0x9000 (List.replicate 16 0)] else []) ∧
    (∀ op ∈ [0x84, 0x85],
      let v := { tagW [(0, op)] with sqid := 1, work := .job, job := some 0x10200000 }
      let s := hostW [] [sqW, { sqW with qid := 1 }] [cqW] [v]
      let u := s.sramWrite 0x1020003A (bytesW [3, 0, 8, 0x0B])
      leAt (s.sramRead 0x10200000 64) 52 4 = 0 ∧ leAt (u.sramRead 0x10200000 64) 58 1 = 3 ∧
        leaves (if op = 0x84 then .compress 5 else .decompress 5) s (fun t => endedW t 0 0 = true) ∧
        leaves (if op = 0x84 then .compress 5 else .decompress 5) u (fun t => endedW t 6 0x0B08 = true) ∧
        (let x := s.sramWrite 0x10200034 [16]
         let y := x.sramWrite 0x10200018 (leBytes 8 0x10300000)
         (match (readListed (.hqi 0) (jOutList (y.sramRead 0x10200000 64)) 16 y).1 with | .error r => r | .ok _ => 0) = 0x0A0D ∧
           leaves (if op = 0x84 then .compress 5 else .decompress 5) y (fun t => endedW t 3 0x0A0D = true))) := by decide +kernel

theorem test_TileStatesAndUses_met :
    (let s := wit [(R.bufSealtAddr, 0x100)]
     let sealed := fun (n st : Nat) => s.sramWrite (sealAddr s n + 12) (bytesW [st])
     s.rd R.bufTstatBusy ≠ 1 ∧ tileOk s 0 = true ∧ sealAddr s 0 + 16 ≤ sramBase + sramSize ∧ sramBase ≤ sealAddr s 0 ∧
       (sealGet s 0).state = tileFree ∧ leaves (.tileOpen 0) s (fun t => t.rd R.bufTstatResult = 1 ∧ (sealGet t 0).state = tileOpen) ∧
       (sealGet (sealed 0 tileOpen) 0).state = tileOpen ∧
       leaves (.tileFree 0) (sealed 0 tileOpen) (fun t => t.rd R.bufTstatResult = 1 ∧ (sealGet t 0).state = tileFree) ∧
       leaves (.tileVerify 0 []) (sealed 0 tileOpen) (fun t => t.rd R.bufTstatResult = 1) ∧
       leaves (.tileOpen 0) (sealed 0 tileOpen) (fun t => t.rd R.bufTstatResult = 2) ∧
       tileOk s (2 ^ 17) = false ∧ leaves (.tileFree (2 ^ 17)) s (fun t => t.rd R.bufTstatResult = 5) ∧
       leaves (.tileUse .debug 0 0 0 []) (sealed 0 tileOpen) (fun t => t.resp = .data []) ∧
       (sealGet (sealed 0 tileOpen) 0).fill < 0 + 1 ∧
       leaves (.tileUse .debug 0 0 1 []) (sealed 0 tileOpen) (fun t => t.resp = .requestFailed 0x0A0D)) ∧
    (let l := bytesW [1, 2, 3, 4, 5, 6, 7, 8]
     let v : State := { wit [(R.bufSealtAddr, 0x100)] with gddr := l.zipIdx.map fun x => (x.2, x.1) }
     let s := v.sramWrite (sealAddr v 0) (leBytes 8 (sealFold 0 l) ++ leBytes 4 8 ++ bytesW [tileOpen])
     (sealGet s 0).state ≠ tileBad ∧ 2 + 3 ≤ (sealGet s 0).fill ∧
       (match (tileCheck (.hqi 0) 0 s).1 with | .ok x => x == l | _ => false) = true ∧
       leaves (.tileUse (.hqi 0) 0 2 3 []) s fun t => t.resp = .data (bytesW [3, 4, 5])) ∧
    runs (.tileClose 0) ((wit [(R.bufSealtAddr, 0x100)]).sramWrite 0x1000000C (bytesW [1])) = true := by decide +kernel

theorem test_BufferBringUp_met :
    (let s := wit [(R.bufCtrlEn, 0)]
     s.rd R.bufCtrlM0Off ≠ 1 ∧ s.rd R.bufCtrlM1Off ≠ 1 ∧ s.rd R.bufCtrlEn ≠ 1 ∧
       leaves (.bufEnable false true) s fun t => t.rd R.bufCtrlEn = 1 ∧ t.rd R.bufStatM0Failed = 1 ∧ t.rd R.bufStatM1Failed = 0 ∧
         t.rd (R.clkPllLock 4) = 1) ∧
    (let s : State := { wit [(R.bufCtrlEn, 1)] with gddr := [(7, 9)] }
     leaves .bufInit s fun t => t.rd R.bufStatInitBusy = 1 ∧ t.gddr = []) ∧
    leaves .bufInitDone (wit [(R.bufStatInitBusy, 1)]) (fun t => t.rd R.bufStatReady = 1) ∧
    (let s : State := { State.reset with buf := { State.reset.buf with retrain1 := true } }
     retraining s 1 = true ∧ leaves (.deviceFailed 1) s (fun t => t.rd R.bufStatM1Failed = 1) ∧
       leaves (.retrainComplete 1) s (fun t => retraining t 1 = false)) := by decide +kernel

theorem test_OfflineAndRepair_met :
    leaves (.deviceOffline 1) State.reset (fun t => t.rd R.bufCtrlM1Off = 1) ∧
    leaves (.offlineReached 1) (wit [(R.bufCtrlM1Off, 1)]) (fun t => t.rd R.bufStatM1Offline = 1) ∧
    (let s := wit [(R.bufStatM0Offline, 1)]
     s.rd (failedFld 0) ≠ 1 ∧ s.rd R.bufStatPprBusy ≠ 1 ∧ s.rd (offFld 0) ≠ 1 ∧
       leaves (.pprStart 0 true 0) s (fun t => t.rd R.bufStatPprBusy = 1) ∧
       leaves (.pprStart 1 true 0) s (fun t => t.rd R.bufPprstatResult = 2 ∧ t.rd R.bufStatPprBusy = 0) ∧
       leaves (.onlineReached 0) s (fun t => t.rd R.bufStatM0Offline = 0) ∧
       leaves (.deviceOnline 0) { s with gddr := [(5, 1)] } (fun t => t.rd R.bufCtrlM0Off = 0 ∧ t.gddr = [])) ∧
    leaves (.pprDone false) (wit [(R.bufStatPprBusy, 1)]) (fun t => t.rd R.bufPprstatResult = 3 ∧ t.rd R.bufStatPprBusy = 0) := by
  decide +kernel

theorem test_BufferRangeOperations_met :
    let v := fun (l : List (Fld × Nat)) => ({ wit ([(R.bufRlenLines, 1), (R.bufRbaseAddr, winBase / 64)] ++ l) with gddr := [(0, 1), (63, 2), (64, 3)] } : State)
    let s := v []
    let sv := v [(R.bufVrgnSize 0, 1)]
    s.rd R.bufStatRangeBusy ≠ 1 ∧ s.rd R.bufRlenLines = 1 ∧ s.rd R.bufRbaseAddr * 64 = winBase + 0 ∧ s.inData 0 = true ∧
      mirrored s 0 = false ∧ classV s 0 = false ∧ classV sv 0 = true ∧ mirrored sv 0 = false ∧
      leaves .vclr sv (fun t => t.gddr = [(64, 3)]) ∧ leaves .vclr s (fun t => t.gddr = s.gddr) ∧
      leaves .poison s (fun t => t.gddr = [(64, 3)]) ∧ leaves .poison sv (fun t => t.gddr = sv.gddr) ∧
      leaves .scrub s (fun t => t.gddr = s.gddr ∧ t.rd R.bufStatRangeBusy = 1) ∧
      leaves .bufRangeDone (wit [(R.bufStatRangeBusy, 1)]) (fun t => t.rd R.bufStatRangeBusy = 0) := by decide +kernel

theorem test_CacheRangeOperations_met :
    (let s := State.reset
     s.rd R.cchRangeStatBusy ≠ 1 ∧ s.rd R.cchRlenLines = 0 ∧
       leaves (.cchInvalidate true) s (fun t => t.rd R.cchRangeStatBusy = 1 ∧ t.cch.evb = []) ∧
       leaves (.cchClean false) s (fun t => t.rd R.cchRangeStatBusy = 1) ∧
       leaves (.cchCleanInv false) s (fun t => t.rd R.cchRangeStatBusy = 1) ∧
       leaves (.cchLoad 7) s (fun t => t.rd R.cchRangeStatBusy = 1 ∧ t.rd R.cchRcmdClass = 7)) ∧
    (let s : State := { wit [(R.cchRlenLines, 1), (R.cchRbaseAddr, winBase / 64 + 1), (R.cchLockLock, 1), (R.cchWaymaskMask 0, 3)] with
       gddr := (List.range 64).map fun i => (64 + i, 9) }
     let a := s.rd R.cchRbaseAddr * 64
     s.rd R.cchRlenLines = 1 ∧ a = winBase + 64 ∧ s.inData 64 = true ∧ findLine s a = none ∧ s.cch.evb = [] ∧
       (∃ w < 16, bitAt (s.rd (R.cchWaymaskMask 0)) w = true ∧ bitAt (s.rd R.cchLockLock) w = true ∧
         Assoc.get (lineSet a * 16 + w) s.cch.lines = none) ∧
       devGone s (s.devOf 64) = false ∧ scanWords s 64 64 = ([], none) ∧
       leaves (.cchLoad 0) s fun t => (findLine t a).map (·.2.data) = some (List.replicate 64 9)) ∧
    (let s := wit [(R.cchRangeStatBusy, 1), (R.cchEvbHits, 4)]
     leaves (.cchInvalidate false) s (fun t => t.rd R.cchRangeStatErr = 1) ∧
       leaves .cchRangeDone s (fun t => t.rd R.cchRangeStatBusy = 0 ∧ t.rd R.cchRangeStatDone = 1) ∧
       leaves .evictionWriteback s (fun t => t.cch.evb = []) ∧
       (let e : EvEntry := { line := winBase + 64, data := List.replicate 64 7 }
        let u : State := { s with cch := { s.cch with evb := [e] } }
        e.data.length = 64 ∧ devGone u (u.devOf 64) = false ∧
          leaves .evictionWriteback u fun t => t.cch.evb = [] ∧ Mem.get t.gddr 127 = some 7) ∧ leaves .cchCounterClear s (fun t => t.rd R.cchEvbHits = 0)) := by
  decide +kernel

/-- A context of F0's compression stream. -/
def ctxW : CmpCtx :=
  { num := 63, handle := 1, fn := 0, kind := 2, left := 0, total := 0, seen := [], sent := 0, depth := 0, lazy := 0, expires := some 5 }

/-- A job that engine 3 runs, with no output. -/
def jobW : CmpJob :=
  { eng := 3, addr := 0x10200000, ctx := none, consumed := 77, produced := 0, rhandle := 0, status := 1, reason := 0, out := [] }

theorem test_CompressionJobs_met :
    leaves (.jobSubmit (2 ^ 32 + 1)) State.reset (fun t => t.rd R.cmpJpiCount = 1) ∧
    (let s := wit [(R.cmpCtrlEn, 1), (R.clkZenEn, 8), (R.clkPllLock 2, 1), (R.cmpJpiCount, 1), (R.cmpJringAddr, 0x400000), (R.cmpJringLog2, 8)]
     let u := s.sramWrite 0x10000000 (bytesW [2])
     zIdle s 3 = true ∧ zInService s 3 = true ∧ (s.rd R.cmpJpiCount + 2 ^ 32 - s.cmp.taken % 2 ^ 32) % 2 ^ 32 ≠ 0 ∧
       jobCheck u (u.sramRead (jobAddr u 0) 64) = none ∧ jOp (u.sramRead (jobAddr u 0) 64) = 2 ∧
       (∀ i < 8, wordStatAt u (jobAddr u 0 + 8 * i) ≠ .ue) ∧ runs (.jobStart 3) u = true ∧
       (let c := s.sramWrite 0x10000000 (bytesW [1, 0])
        jobCheck c (c.sramRead (jobAddr c 0) 64) = none ∧ jOp (c.sramRead (jobAddr c 0) 64) = 1 ∧
          jInline (c.sramRead (jobAddr c 0) 64) = false ∧ runs (.jobStart 3) c = true) ∧
       (let c := s.sramWrite 0x10000000 (bytesW [1, 2])
        jInline (c.sramRead (jobAddr c 0) 64) = true ∧ outReady c (c.sramRead (jobAddr c 0) 64) = true ∧
          runs (.jobStart 3) c = true) ∧
       (let r := { u with cmp := { u.cmp with ctxs := List.replicate 64 ctxW } }
        jobCheck r (r.sramRead (jobAddr r 0) 64) = some 0x0B01 ∧
          leaves (.jobStart 3) r fun t => t.cmp.taken = 1 ∧ t.rd R.cmpJdoneCount = 1 ∧ t.rd R.cmpReasonCode = 0x0B01)) ∧
    leaves (.jobStart 3) State.reset (fun t => t.cmp = CmpState.reset) ∧
    (let s : State := { State.reset with cmp := { CmpState.reset with jobs := [jobW] } }
     zJob s 3 = some jobW ∧ jobHeld s jobW = false ∧
       (match (writeListed (.comp 3) (jOutList (s.sramRead jobW.addr 64)) jobW.out s).1 with | none => true | _ => false) = true ∧ sramBase ≤ jobW.addr ∧ jobW.addr + 64 ≤ sramBase + sramSize ∧
       leaves (.jobComplete 3) s (fun t => t.cmp.jobs = [] ∧ t.rd R.cmpJdoneCount = 1 ∧
         leAt (t.sramRead 0x10200000 64) 48 4 = 77 ∧ leAt (t.sramRead 0x10200000 64) 58 1 = 1) ∧
       leaves (.lockstepMismatch 3 0) s (fun t => t.cmp.jobs = [] ∧ t.rd R.cmpStatFailed = 8 ∧ t.rd R.cmpReasonCode = 0x0B08)) ∧
    (let s := fun (now : Nat) => ({ State.reset with cmp := { CmpState.reset with ctxs := [ctxW] }, tim := { State.reset.tim with local_ := now } } : State)
     resumeHeld (s 5) ctxW = false ∧ leaves (.contextExpiry 63) (s 5) (fun t => t.cmp.ctxs = []) ∧
       (let c := { ctxW with expires := some 10000001 }
        let s : State := { State.reset with cmp := { CmpState.reset with ctxs := [c] } }
        s.tim.local_ + 10000000 < 10000001 ∧ leaves (.contextExpiry 63) s fun t => t.cmp.ctxs = [c])) := by decide +kernel

theorem test_ClockSourceStops_met :
    leaves .xtalLoss State.reset (fun t => t.rd R.clkSrcXtal = 0 ∧ t.rd R.pwrSafePos = 0xFF ∧ t.rd R.clkReasonCode = 0x0D01 ∧
      t.rd R.fltStatFatal = 1) ∧
    leaves .refclkLoss (wit [(R.clkSrcRef, 1)]) (fun t => t.rd R.clkSrcRef = 0 ∧ t.rd R.clkReasonCode = 0x0D07) ∧
    leaves .x32Loss State.reset (fun t => t.rd R.clkSrcX32 = 0 ∧ t.rd R.pwrStatRc = 1 ∧ t.rd R.clkReasonCode = 0x0D06) := by
  decide +kernel

theorem test_PllLockAndLoss_met :
    leaves (.pllLockLoss 14) (settleAll (wit [(R.clkPllLock 14, 1), (R.srvSnuffLatch 7, 0)])) (fun t => t.rd (R.clkPllLock 14) = 0 ∧
      t.rd R.clkReasonCode = 0x0D02 ∧ t.rd (R.srvSnuffLatch 7) = 1) ∧
    (let s := wit [(R.clkSrcXtal, 1)]
     pllWanted s 0 = true ∧ refPresent s 0 = true ∧ leaves (.pllLock 0) s fun t => t.rd (R.clkPllLock 0) = 1) := by decide +kernel

theorem test_EngineAndCompressionPower_met :
    (let s := wit [(R.pwrEngOn, 0xF), (R.pwrEngrdyRdy, 0xF), (R.castStatBusy 2, 1), (R.clkPllLock 1, 1)]
     engHeld s 0 = false ∧ engHeld s 2 = true ∧
       leaves (.enginePower 0x800001) s (fun t => t.rd R.pwrEngOn = 0x800005 ∧ bitAt (t.rd R.pwrEngrdyRdy) 1 = false) ∧
       leaves (.engineReady 3) s (fun t => bitAt (t.rd R.pwrEngrdyRdy) 3 = true)) ∧
    (let s : State := { wit [(R.pwrEngOn, 0x100)] with part := .oa408 }
     engOffered s 8 = false ∧ leaves (.enginePower 0) s fun t => t.rd R.pwrEngOn = 0x100) ∧
    (let s := wit [(R.clkZenEn, 6), (R.cmpStatBusy, 2)]
     leaves (.compressionClockEnable 8) s fun t => t.rd R.clkZenEn = 10) ∧
    (let s := wit [(R.bufCtrlEn, 1), (R.clkPllLock 3, 1), (R.clkPllLock 4, 1)]
     s.buf.retrain0 = false ∧ s.buf.retrain1 = false ∧ s.waitq = [] ∧ s.rd (R.clkPllForce 3) = 0 ∧
       leaves .selfRefreshEntry s fun t => t.buf.selfRefresh = true ∧ t.rd (R.clkPllLock 3) = 0) := by decide +kernel

theorem test_SafeStateCoresAndTestMode_met :
    (let s := wit [(R.posCfgEn 7, 1)]
     s.rd R.lampStatRecovery = 0 ∧ leaves (.safeReleasePosition 7) s (fun t => t.rd R.pwrSafePos = 0x7F) ∧
       s.rd (R.posCfgEn 6) ≠ 1 ∧ leaves (.safeReleasePosition 6) s (fun t => t.rd R.pwrSafePos = 0xFF) ∧
       leaves .safeReleaseLaser s (fun t => t.rd R.pwrSafeLaser = 1)) ∧
    leaves .safeReleaseLaser (wit [(R.pwrSafePos, 0)]) (fun t => t.rd R.pwrSafeLaser = 0) ∧
    leaves (.coreRelease 0x28) (wit [(R.lampCrelC0, 1), (R.lampCrelRel, 1)]) (fun t => t.rd R.lampCrelRel = 9) ∧
    (let s := State.reset.updLamp fun l => { l with started := true, dbgSys := true }
     leaves (.jtagTestMode false false) s (fun t => t.rd R.clkXstatMode = 1) ∧
       leaves (.jtagTestMode true false) s (fun t => t.rd R.clkXstatMode = 0 ∧ t.pins.testMode = true) ∧
       leaves .trstAssert s (fun t => t.lamp.dbgSys = false)) ∧
    (let lim := State.reset.policyOf 0x61 0
     leaves (.thermTjCrossing lim) State.reset (fun t => t.lamp.tjHot = true) ∧
       leaves (.thermTjCrossing ((lim : Int) - 50)) (State.reset.updLamp fun l => { l with tjHot := true }) (fun t => t.lamp.tjHot = false) ∧
       leaves (.thermTjCrossing ((lim : Int) - 49)) (State.reset.updLamp fun l => { l with tjHot := true }) (fun t => t.lamp.tjHot = true)) := by
  decide +kernel

theorem test_PerfSnapshotAndClear_met :
    leaves (.perfSnapshot [[], [], [], [], [], [2 ^ 65]]) (settleAll (wit [(R.perfSnapSeq, 2 ^ 31 - 1)])) (fun t =>
      t.rd R.perfSnapSeq = 0 ∧ t.rd (R.perfDualDual 5) = 2 ^ 64 - 1 ∧ t.rd (R.perfCycCyc 4) = 0) ∧
    leaves .perfClear State.reset (fun t => t.perf.live = Vector.replicate 6 (Vector.replicate 12 0)) := by decide +kernel

/-- A sample record. -/
def sampleW : SampleRec := ⟨0, 0, .machine, true, false, false, 0, 0, 0, 0, 0, 0⟩

/-- Sampling of core 5 with a countdown and a mark. -/
def perfW (l : List (Fld × Nat)) (n : Nat) (m : Option Nat) : State :=
  (wit ((R.perfSmpctlEn 5, 1) :: (R.perfSbufAddr 5, 0x10200) :: l)).updPerf fun x => { x with sample := x.sample.set 5 { countdown := n, marked := m, drawn := 0 } }

theorem test_InstructionSampling_met :
    leaves (.sampleTrigger 5 3) (perfW [] 4 none) (fun t => t.perf.sample[(5 : CoreIx)].countdown = 1) ∧
    leaves (.sampleTrigger 5 4) (perfW [(R.perfSmpctlTrig 5, 2)] 4 none) (fun t => t.perf.sample[(5 : CoreIx)].marked = some 2) ∧
    leaves (.sampleRecord 5 sampleW) (perfW [(R.perfSwpCount 5, 128)] 1 (some 0)) (fun t => t.rd (R.perfSstatDrop 5) = 1 ∧
      t.rd (R.perfSwpCount 5) = 128) ∧
    leaves (.sampleRecord 5 sampleW) (perfW [(R.perfSwpCount 5, 127)] 1 (some 0)) (fun t => t.rd (R.perfSwpCount 5) = 128 ∧
      t.perf.sample[(5 : CoreIx)].marked = none) := by decide +kernel

/-- A state that runs: no level applied. -/
def upW (l : List (Fld × Nat)) (g : LampState → LampState) : State :=
  (wit ((R.lampCrelC0, 1) :: l)).updLamp fun x => g { x with level := none, porHeld := false, started := true }

theorem test_ResetSources_met :
    (let s := (upW [] id).sramWrite sramBase (bytesW [1])
     s.lamp.level = none ∧ s.lamp.commit = false ∧
       leaves .resetPin s (fun t => t.rd R.lampCausePin = 1 ∧ t.lamp.level = some .system ∧ t.lamp.commit = true ∧ t.sram = [] ∧
         t.rd R.lampCrelC0 = 0) ∧
       leaves (.softwareSystemReset 0xA5) s (fun t => t.rd R.lampCauseSwsys = 1 ∧ t.lamp.level = some .system) ∧
       leaves .mantleFault s (fun t => t.rd R.lampCauseMtl = 1) ∧
       leaves .powerOnReset s (fun t => t.lamp.level = some .power ∧ t.hqi.aseq = s.hqi.aseqEnd ∧ t.sram = []) ∧
       leaves (.softwareCoreReset 0xA5) s (fun t => t.rd R.lampCauseSwcore = 1 ∧ t.lamp.level = some .core ∧ t.sram = s.sram) ∧
       leaves (.softwareSystemReset 0xA4) s (fun t => t.lamp = s.lamp) ∧
       leaves (.softwareCoreReset 0) s (fun t => t.lamp = s.lamp) ∧
       s.rd R.lampOptPerstLvl = 0 ∧ leaves .perstAssert s (fun t => t.pins.perst = true ∧ t.lamp.level = none) ∧
       leaves .perstRelease s (fun t => t.pins.perst = false) ∧
       leaves .powerFail s (fun t => t.rd R.pwrStatPf = 1 ∧ t.lamp.commit = true ∧ t.rd (R.srvSnuffLatch 7) = 1)) ∧
    leaves .mainSupplyFault (upW [(R.fltVmonOut, 1)] id) (fun t => t.rd R.lampCauseMainsup = 1 ∧ t.lamp.mainHeld = true) ∧
    leaves .perstAssert (upW [(R.lampOptPerstLvl, 1)] id) (fun t => t.rd R.lampCausePerst = 1 ∧ t.lamp.perstHeld = true) ∧
    leaves .perstRelease (upW [(R.lampOptPerstLvl, 1)] fun l => { l with perstHeld := true }) (fun t => t.lamp.perstHeld = false) ∧
    (let s := upW [(R.mtlStatDbgunlk, 1)] id
     debugOpen s = true ∧ leaves (.debugResetRequest true) s (fun t => t.rd R.lampCauseDbg = 1 ∧ t.lamp.dbgSys = true) ∧
       leaves (.debugResetRequest false) s (fun t => t.lamp.level = some .core)) ∧
    (let s := upW [] id
     let s : State := { s with pins := { s.pins with pwrFail := true } }
     s.rd R.fltVmonOut = 0 ∧ leaves .powerReturn s fun t => t.rd R.lampCausePfret = 1 ∧ t.pins.pwrFail = false) ∧
    leaves .powerFail (upW [] fun l => { l with started := false, level := some .system }) (fun t => t.lamp.pfHeld = true ∧
      t.lamp.waiting = false) ∧
    leaves .resetPin (upW [] fun l => { l with commit := true }) (fun t => t.lamp.arrived = some .system ∧ t.lamp.level = none) := by
  decide +kernel

theorem test_StartUpAndWatchdog_met :
    (let s := upW [] fun l => { l with level := some .system, failcnt := 3 }
     heldAt (dropHeld .system s) .system = false ∧ optionOk (s.emberRead emberBase 256) = false ∧ runs (.resetRelease .system 0) s = true ∧
       leaves (.resetRelease .system 0) (s.updLamp fun l => { l with commit := true }) fun t => t.lamp.relDue = true ∧
         t.lamp.level = some .system) ∧
    (let s := upW [] fun l => { l with level := some .system, pinHeld := true }
     heldAt (dropHeld .core s) .system = true ∧ leaves (.resetRelease .core 0) s fun t => t.lamp.level = some .system) ∧
    (let s := upW [(R.lampStatRecovery, 1)] fun l => { l with level := some .core }
     heldAt (dropHeld .core s) .core = false ∧ leaves (.resetRelease .core 0) s fun t => t.lamp.level = none ∧ t.lamp.waiting = true) ∧
    (let s := upW [] fun l => { l with commit := true }
     leaves .emberCommitDone s (fun t => t.lamp.commit = false) ∧
       runs .emberCommitDone (s.updLamp fun l => { l with relDue := true, level := some .system }) = true ∧
       leaves .emberCommitDone ((s.sramWrite sramBase (bytesW [1])).updLamp fun l => { l with arrived := some .system }) fun t =>
         t.lamp.level = some .system ∧ t.sram = []) ∧
    (let s := upW [(R.lampCrelC0, 0)] fun l => { l with waiting := true }
     leaves .c0Release s (fun t => t.rd R.lampCrelC0 = 1 ∧ t.lamp.deadline = true)) ∧
    leaves .c0Release (upW [(R.lampCrelC0, 0)] id) (fun t => t.rd R.lampCrelC0 = 0) ∧
    leaves (.bootOk 64) (upW [] fun l => { l with failcnt := 2, trial := true, deadline := true }) (fun t =>
      t.rd R.lampStatBootok = 1 ∧ t.lamp.failcnt = 0 ∧ t.lamp.trial = false) ∧
    leaves .bootDeadlineExpiry (upW [] fun l => { l with failcnt := 15, trial := true, deadline := true }) (fun t =>
      t.lamp.failcnt = 15 ∧ t.lamp.pref = 1 ∧ t.lamp.level = some .system) ∧
    leaves .bootDeadlineExpiry (upW [] id) (fun t => t.lamp.level = none) ∧
    leaves (.watchdogEnable (2 ^ 20 + 5)) (upW [] id) (fun t => t.rd R.lampWdtEn = 1 ∧ t.rd R.lampWdtPeriod = 5) ∧
    (let s := upW [(R.lampWdtEn, 1), (R.lampWdtPeriod, 1)] fun l => { l with wdRun := true }
     let at_ := fun (n : Nat) => ({ s with tim := { s.tim with local_ := n } } : State)
     leaves (.watchdogEnable 9) s (fun t => t.rd R.lampWdtPeriod = 1) ∧
       leaves .watchdogKick (at_ 7) (fun t => t.lamp.wdStart = 7) ∧
       leaves .watchdogExpiry (at_ (watchdogPeriod s)) (fun t => t.rd R.lampCauseWdt = 1 ∧ t.lamp.level = some .core) ∧
       leaves .watchdogExpiry (at_ (watchdogPeriod s - 1)) (fun t => t.lamp.level = none)) := by decide +kernel

/-- An option page that is right. -/
def optW : List Byte :=
  let b := bytesW [0x47, 0x54, 0x50, 0x4F, 0, 1] ++ List.replicate 246 (0 : Byte)
  b ++ leBytes 4 (crc32c b)

theorem test_FirmwareUpdateAndBlockReset_met :
    (let v := tagW [(0, 0x20), (32, 1), (25, 1)]
     let s := hostW [] [sqW] [cqW] [v]
     cmdAt s 5 0x20 = some v ∧ v.dlen = 256 ∧ optionOk optW = true ∧ optionOk (List.replicate 256 0) = false ∧
       leaves (.fwDownload 5 optW true) s (fun t => endedW t 0 0 = true ∧ t.emberRead emberBase 256 = optW) ∧
       leaves (.fwDownload 5 (List.replicate 256 0) true) s (fun t => endedW t 1 0x0E08 = true)) ∧
    (let v := tagW [(0, 0x20), (37, 0x10), (25, 0x10)]
     let s := (hostW [] [sqW] [cqW] [v]).updLamp fun l => { l with dlNext := some 4096 }
     v.csp 36 4 = 4096 ∧ v.dlen = 4096 ∧ s.lamp.dlNext = some (v.csp 36 4)) ∧
    leaves (.fwDownload 5 [] true) (hostW [] [sqW] [cqW] [tagW [(0, 0x20), (36, 1)]]) (fun t => endedW t 1 0x0E07 = true) ∧
    leaves (.fwDownload 5 [] true) (hostW [] [sqW] [cqW] [tagW [(0, 0x20), (32, 2)]]) (fun t => endedW t 1 0x0211 = true) ∧
    (let v := tagW [(0, 0x21), (32, 2)]
     let s := hostW [] [sqW] [cqW] [v]
     cmdAt s 5 0x21 = some v ∧ slotImage s (unusedSlot s) = none ∧ leaves (.fwActivate 5) s fun t => endedW t 1 0x0E0C = true) ∧
    (let s := upW [] fun l => { l with fwact := some 5 }
     tagOf s 5 = none ∧ leaves .fwActivateReset s (fun t => t.rd R.lampCauseFwact = 1 ∧ t.lamp.level = some .system) ∧
       leaves .fwActivateReset (upW [] id) (fun t => t.lamp.level = none)) ∧
    (let s := upW [] id
     blockNamed s true 7 = some (.position 7) ∧ blockNamed s false 24 = none ∧
       leaves (.blockReset true 7) s (fun t => t.rd R.lampBrstatBusy = 1 ∧ t.lamp.blk = some (.position 7)) ∧
       leaves (.blockReset false 24) s (fun t => t.rd R.lampBrstatResult = 3)) ∧
    (let s := upW [(R.castDescAddr 23, 5)] fun l => { l with blk := some (.engine 23) }
     blockIdle s (.engine 23) = true ∧ leaves (.blockResetIdle []) s (fun t => t.rd R.lampBrstatResult = 1 ∧
       t.rd (R.castDescAddr 23) = 0 ∧ t.lamp.restarting = some (.engine 23)) ∧
       leaves (.blockResetTimeout []) s (fun t => t.rd R.lampBrstatResult = 2 ∧ t.rd (R.castStatVerdict 23) = 4)) ∧
    (let s := upW [(R.posCfgEn 0, 1)] fun l => { l with blk := some (.position 0) }
     blockIdle s (.position 0) = true ∧ leaves (.blockResetIdle []) s (fun t => t.rd R.lampBrstatResult = 1 ∧ t.rd (R.posCfgEn 0) = 0 ∧
       t.rd (R.srvSnuffLatch 0) = 1) ∧ leaves (.blockResetTimeout []) s (fun t => t.rd R.lampBrstatResult = 2)) ∧
    leaves (.blockResetIdle []) (upW [] id) (fun t => t.lamp.blk = none) ∧
    leaves .blockRestartDone (upW [(R.lampBrstatBusy, 1)] fun l => { l with restarting := some (.engine 0) }) (fun t =>
      t.rd R.lampBrstatBusy = 0 ∧ t.lamp.restarting = none) := by decide +kernel

/-- Mantle with words in its data registers. -/
def mtlW (l : List (Fld × Nat)) (g : MtlState → MtlState) : State := (wit l).updMtl g

theorem test_MailboxOperations_met :
    (let s := mtlW [(R.mtlDataData 0, 7)] fun m => { m with keys := [(7, [1])] }
     s.rd R.mtlStatBusy = 0 ∧ mailPos (mtlData s) = 7 ∧ leAt (mtlData s) 8 8 = 0 ∧ runs .keyNew s = true ∧
       runs .keyUnwrap s = true ∧ leaves .keyDrop s (fun t => t.mtl.keys = [] ∧ t.rd R.mtlCmdOp = 3 ∧ t.rd R.mtlStatBusy = 1) ∧
       leaves .keyDestroy s (fun t => t.mtl.keys = [(7, [1])] ∧ (t.mtl.op.bind (·.destroy)) = some 7) ∧
       leaves .escrowEnroll s (fun t => t.mtl.op.map (·.reason) = some 0x0C05) ∧
       leaves .dbgUnlock s (fun t => t.mtl.op.map (·.reason) = some 0x0C05) ∧ runs .dbgChal s = true ∧ runs .trng s = true) ∧
    (let s := mtlW [(R.mtlDataData 0, 64)] fun m => { m with trngBad := true }
     leAt (mtlData s) 0 1 = 64 ∧ leaves .trng s (fun t => t.mtl.op.map (·.reason) = some 0x0C08) ∧
       leaves .dbgChal s (fun t => t.mtl.op.map (·.reason) = some 0x0C08)) ∧
    (let s := mtlW [(R.lampOptDbglock, 1)] fun m => { m with trngBad := true }
     debugOpen s = false ∧ leaves .keyNew s fun t => t.mtl.op.map (·.reason) = some 0x0C08) ∧
    (let s := mtlW [(R.mtlStatDbgunlk, 1)] fun m => { m with byCustomer := true }
     debugOpen s = true ∧ s.mtl.escrow.length < 4 ∧ leaves .keyNew s (fun t => t.mtl.op.map (·.reason) = some 0x0C06) ∧
       leaves .keyUnwrap s (fun t => t.mtl.op.map (·.reason) = some 0x0C06) ∧
       leaves .escrowEnroll s (fun t => t.mtl.escrow = [List.replicate 32 0])) ∧
    (∀ c ∈ [Instr.keyNew, .keyUnwrap, .keyDrop, .keyDestroy, .escrowEnroll, .dbgChal, .dbgUnlock, .trng],
      leaves c (mtlW [(R.mtlStatBusy, 1)] id) fun t => t.rd R.mtlStatErr = 1) ∧
    (let r : MailRes := { result := 1, reason := 0, data := bytesW [9], isKey := false, destroy := none }
     leaves .mailboxDone (mtlW [(R.mtlStatBusy, 1)] fun m => { m with op := some r }) (fun t => t.rd R.mtlStatResult = 1 ∧
       t.rd R.mtlStatBusy = 0 ∧ t.rd (R.mtlDataData 0) = 9) ∧
     (let s := mtlW [(R.mtlStatBusy, 1)] fun m => { m with op := some { r with destroy := some 0 }, keys := [(0, [])] }
      withinRank s 0 = false ∧ leaves .mailboxDone s (fun t => t.mtl.keys = [] ∧ t.rd R.mtlStatBusy = 0) ∧
        (let s := (engHome s).updEng 0 fun e => { e with gate := true }
         withinRank s 0 = true ∧ leaves .mailboxDone s fun t => t.rd R.mtlStatBusy = 1))) ∧
    (let s := mtlW [(R.mtlDataData 15, 1)] fun m => { m with nonce := some ([], 0) }
     leAt (mtlData s) 120 1 = 1 ∧ s.tim.local_ < 60000000000 ∧ s.mtl.keys = [] ∧ runs .dbgUnlock s = true) ∧
    leaves .nonceExpiry ({ mtlW [] (fun m => { m with nonce := some ([], 0) }) with tim := { State.reset.tim with local_ := 60000000000 } } : State)
      (fun t => t.mtl.nonce = none) ∧
    leaves .nonceExpiry (mtlW [] fun m => { m with nonce := some ([], 0) }) (fun t => t.mtl.nonce = some ([], 0)) ∧
    leaves .trngHealthFail State.reset (fun t => t.rd R.mtlStatTrngerr = 1) ∧
    leaves .trngHealthRecovery (mtlW [(R.mtlStatTrngerr, 1)] fun m => { m with trngBad := true }) (fun t => t.mtl.trngBad = false ∧
      t.rd R.mtlStatTrngerr = 1) ∧ runs (.spdmRequest []) State.reset = true := by decide +kernel

/-- Environments of an access in which nothing is upset. -/
def calmW : AccessEnv := { upsets := [], crcFails := 0, cacheErr := none, userAllowed := true, prefetch := false }

/-- The register at an address, and whether its fields have places of their own. -/
def regAtW (s : State) (a size : Nat) : Option Reg :=
  (homeOf a).bind fun h => if homeOffered s h && homePowered s h then regExact (homeRegs h a) a size else none
def ownPlaces (r : Reg) : Bool := decide (r.flds.map Fld.key).Nodup

theorem test_ReadClearsRcFields_met :
    (let a := (R.iglScrcCount 7).addr
     let s := wit [(R.iglScrcCount 7, 9)]
     homeOf a = some (.igl 7) ∧ stopped s (.core 0) = false ∧ reaches s (.core 0) .regs a (.read 4) = true ∧ (regAtW s a 4).map ownPlaces = some true ∧ s.pos[(7 : PosIx)].igl.events.length ≤ 1 ∧
       leaves (.rcFieldRead (.core 0) a 4) s fun t => t.rd (R.iglScrcCount 7) = 0 ∧ t.resp = .value 9) ∧
    (let a := R.hqiEvtValid.addr
     homeOf a = some (.sys 5) ∧ (regAtW State.reset a 8).map ownPlaces = some true ∧
       reaches (wit [(R.mtlStatDbgunlk, 1)]) .debug .regs a (.read 8) = true ∧
       leaves (.rcFieldRead .debug a 8) (wit [(R.mtlStatDbgunlk, 1)]) fun t => t.rd R.hqiEvtValid = 0) ∧
    (let o := (R.fnStsRdy 15).addr - bar0 15
     o < 0x1000 ∧ (regExact (R.fnRegs 15) (bar0 15 + o) 4).map ownPlaces = some true ∧
       runs (.rcFieldRead (.host 15) o 4) State.reset = true) := by decide +kernel

theorem test_RegisterAndMemoryAccess_met :
    (let a := (R.srvLimOfftrk 0).addr
     let s := wit [(R.srvLimFoclim 0, 3)]
     homeOf a = some (.srv 0) ∧ plainRegister (.srv 0) a = true ∧ stopped s (.core 1) = false ∧
       reaches s (.core 1) .regs a (.write (leBytes 4 0xFFFFFFFF)) = true ∧ (regAtW s a 4).map ownPlaces = some true ∧ regLocked s (.srv 0) a 0x00050007 = false ∧
       leaves (.registerWrite (.core 1) a 4 0xFFFFFFFF) s (fun t => t.rd (R.srvLimOfftrk 0) = 2 ^ (R.srvLimOfftrk 0).w - 1 ∧
         t.rd (R.srvLimFoclim 0) = 2 ^ (R.srvLimFoclim 0).w - 1 ∧ t.resp = .written) ∧
       regExact (homeRegs (.srv 0) a) a 2 = none ∧ regsTouched (homeRegs (.srv 0) a) a 2 ≠ [] ∧
       leaves (.registerWrite (.core 1) a 2 7) s (fun t => t.resp = .busError 0 ∧ t.rd (R.srvLimFoclim 0) = 3)) ∧
    (posOffered State.reset 7 = true ∧
      leaves (.registerWrite (.core 2) (R.spnCmdOp 7).addr 4 6) State.reset (fun t => t.rd (R.spnStatCmderr 7) = 1) ∧
      leaves (.registerWrite (.core 2) (R.carCmdOp 7).addr 4 10) State.reset (fun t => t.rd (R.carStatCmderr 7) = 1 ∧
        t.rd (R.carReasonCode 7) = 0x0708)) ∧
    (let a := (R.srvLimOfftrk 0).addr
     let s := wit [(R.lampOptDbglock, 1)]
     reaches s (.beam 3) .regs a (.write (leBytes 4 9)) = false ∧ reaches s (.beam 3) .regs a (.read 4) = false ∧
       runs (.registerWrite (.beam 3) a 4 9) s = true ∧
       runs (.rcFieldRead (.beam 3) a 4) s = true ∧
       targetOf s emberBase 8 = some .ember ∧ reaches s (.beam 3) .ember emberBase (.read 8) = false ∧
       runs (.fabricAccess (.beam 3) .machine emberBase (.read 8) calmW) s = true) ∧
    (let a := (R.srvLimOfftrk 4).addr
     let s : State := { State.reset with part := .oa408 }
     homeOf a = some (.srv 4) ∧ homeOffered s (.srv 4) = false ∧ homeOffered s (.srv 3) = true ∧
       leaves (.registerWrite (.core 0) a 4 7) s (fun t => t.resp = .ignored) ∧
       leaves (.rcFieldRead (.core 0) a 4) s (fun t => t.resp = .value 0)) ∧
    (let a := (R.castDescAddr 23).addr
     homeOf a = some (.eng 23) ∧ engOffered State.reset 23 = true ∧ bitAt (State.reset.rd R.pwrEngrdyRdy) 23 = false ∧
       leaves (.registerWrite (.core 0) a 8 1) State.reset fun t => t.resp = .busError 0x0D04) ∧
    (let a := sramBase + sramSize - 8
     let s := State.reset
     wholeWords a (bytesW [1, 2, 3, 4, 5, 6, 7, 8]) = true ∧ (wordsOf a 8).any (inSealTable s) = false ∧
       leaves (.fabricAccess (.core 0) .machine a (.write (bytesW [1, 2, 3, 4, 5, 6, 7, 8])) calmW) s (fun t =>
         t.sramRead a 8 = bytesW [1, 2, 3, 4, 5, 6, 7, 8] ∧ t.resp = .written) ∧
       wholeWords (a + 4) (bytesW [1, 2, 3, 4]) = false ∧
       leaves (.fabricAccess (.core 0) .machine (a + 4) (.write (bytesW [1, 2, 3, 4])) calmW) s (fun t =>
         t.rd R.fltLastReason = 0x0A06 ∧ sameMem s t = true) ∧
       (∀ w ∈ wordsOf a 8, wordStatAt s w = .good) ∧
       leaves (.fabricAccess (.core 4) .machine a (.read 8) calmW) s fun t => t.resp = .data (List.replicate 8 0)) ∧
    targetOf State.reset 0x40000 1 = none ∧ targetOf State.reset winBase 64 = none ∧
    runs (.fabricAccess (.core 0) .machine 0x40000 (.read 1) calmW) State.reset = true ∧
    (let s := State.reset
     targetOf s emberBase 8 = some .ember ∧ reaches s (.core 0) .ember emberBase (.read 8) = true ∧
       allowed .user .ember (.read 8) true = false ∧ allowed .supervisor .ember (.read 8) true = true ∧
       leaves (.fabricAccess (.core 0) .user emberBase (.read 8) calmW) s fun t => t.resp = .illegalAccess) := by decide +kernel

/-- An unlisted state has canonical memories, and reset is settled: what the statements over all steps start from. -/
theorem test_WholeMachine_met :
    Settled State.reset ∧ MemWf State.reset ∧
    (let s : State := { State.reset with pending := [.srvEnable 7 true, .perfClear] }
     s.pending ≠ [] ∧ step s = exec (.srvEnable 7 true) { s with pending := [.perfClear] } ∧ step State.reset = .next State.reset) ∧
    leavesMemory (.srvEnable 7 true) = true ∧ leavesMemory .journalCommit = false ∧
    positionOf (.srvEnable 7 true) = some 7 ∧ (0 : PosIx) ≠ 7 ∧
    leaves (.srvEnable 7 true) State.reset (fun t => t.rd (R.srvCtrlEn 7) = 1 ∧ t.rd (R.srvCtrlEn 0) = 0) := by
  refine ⟨?_, ?_, ⟨by decide, rfl, rfl⟩, by decide, by decide, by decide, by decide, by decide +kernel⟩
  · unfold Settled SettledAt; decide +kernel
  · unfold MemWf; decide +kernel

/-- Flash in which slot B holds an image of one byte. -/
def flashW : List (Nat × Byte) :=
  let put := fun (o n v : Nat) => (List.range n).map fun i => (0x80 * 65536 + o + i, BitVec.ofNat 8 (v / 256 ^ i))
  put 0 4 0x4D494D47 ++ put 4 2 0x0100 ++ put 16 4 0 ++ put 20 4 1 ++ put 24 8 sramBase ++ put 192 114 0

/-- A slot is valid where its signature verifies and no customer key is enrolled: what clauses of FW_ACTIVATE need. -/
theorem slot_valid (s : State) (slot : Nat) (v : ∀ d g, Config.ed448 0 d g = true) (k : Config.enrolled 2 = false)
    (a : headerOk (flashRead s.lamp.flash (slotBase s slot) 4096) = true)
    (b : (slice (flashRead s.lamp.flash (slotBase s slot) 4096) 192 114 == List.replicate 114 0) = true)
    (c : s.rd R.mtlArcCount ≤ leAt (flashRead s.lamp.flash (slotBase s slot) 4096) 16 4)
    (d : leAt (flashRead s.lamp.flash (slotBase s slot) 4096) 16 4 ≤ 64) : slotImage s slot ≠ none := by
  have e : ∀ x, imageAuthentic s (flashRead s.lamp.flash (slotBase s slot) 4096) x = true := fun x => by
    simp only [imageAuthentic, v, k, b, Bool.true_and, Bool.and_eq_true, decide_eq_true_eq]
    exact ⟨⟨by simp, c⟩, d⟩
  simp [slotImage, a, e]

theorem test_FirmwareSlotValid (v : ∀ d g, Config.ed448 0 d g = true) (k : Config.enrolled 2 = false) :
    slotImage ((upW [] id).updLamp fun l => { l with flash := flashW }) 1 ≠ none :=
  slot_valid _ 1 v k (by decide +kernel) (by decide +kernel) (by decide +kernel) (by decide +kernel)

/-- Operands in range, from which each ill-formed one differs in one place. -/
def slotOk : SlotStart := { wobble := List.replicate 790 15, symcnt := 0 }
def packetOk : SamplePacket :=
  { pickup := 0, stream := 0, lock := true, symcnt := 2 ^ 32 - 1, crcOk := true, raw := List.replicate 384 63, wob := List.replicate 8 15,
    wobofs := 49, slip := false }
def pwmOk : PwmSample := { s1 := 4095, s2 := 0, bu := 0, bv := 0, bw := 0, bn := 0, vbus := 0, peak := 4095, peakAt := 2499 }
def trainOk : Training := { pass := 15, rtt := 0, ddown := 0, tx := [0, 0, 0, 0], rx := [0, 0, 0, 0], id := 0, ver := 0 }

/-- Well-formed commands at the edge of their ranges. -/
theorem test_WellFormed : ∀ c ∈ [Instr.registerWrite (.core 0) (2 ^ 40 - 8) 8 (2 ^ 64 - 1), .rcFieldRead (.host 15) (2 ^ 25 - 1) 1,
    .fabricAccess .buf .machine 0 (.read 65536) calmW, .tileRelease 7 (362400 * 128 - 1) 5, .pourSlotStart 23 slotOk,
    .frameVerdict 0 true, .samplePacket 0 packetOk, .readResultPost 0 [15] [] (some .tag), .spnPwmPeriod 0 pwmOk,
    .trainingDone 0 trainOk, .wickPacket 0 (wickW true), .sqDoorbell 0 1023 65535 4, .sqFetch 0 1023 [⟨List.replicate 64 0, []⟩],
    .createCq 32767, .tileOpen (2 ^ 17 - 1), .riserVisit 0 362399, .blockReset false 31, .bootOk 64], c.wf = true := by
  decide +kernel

/-- One ill-formed command for each check; the check refuses it. -/
theorem test_IllFormedRefused : ∀ c ∈ [Instr.registerWrite (.core 0) (2 ^ 40) 8 0, .registerWrite (.core 0) 0 3 0,
    .registerWrite (.core 0) 0 1 256, .rcFieldRead (.host 0) (2 ^ 25) 4, .rcFieldRead (.core 0) 0 16,
    .fabricAccess .buf .machine 0 (.read 0) calmW, .fabricAccess .buf .machine 0 (.fetch 65537) calmW,
    .fabricAccess .buf .machine 0 (.write []) calmW, .tileRelease 0 (362400 * 128) 0, .rankIdleExpiry 0 (362400 * 128),
    .rankAssembly 0 (362400 * 128) [], .retryPass 0 (362400 * 128) false [], .patrolRead 0 (362400 * 128), .riserVisit 0 362400,
    .pourSlotStart 0 { slotOk with wobble := List.replicate 790 16 }, .pourSlotStart 0 { slotOk with wobble := [] },
    .readSlotStart 0 [] 0, .samplePacket 0 { packetOk with raw := [] },
    .samplePacket 0 { packetOk with raw := List.replicate 384 64 }, .samplePacket 0 { packetOk with wob := [16] },
    .samplePacket 0 { packetOk with wob := List.replicate 9 0 }, .samplePacket 0 { packetOk with wobofs := 50 },
    .samplePacket 0 { packetOk with symcnt := 2 ^ 32 },
    .layerFirstAccess 0 0 [], .loopCoefWrite 0 0 0 0 0 (2 ^ 32), .setpointWrite 0 0 (2 ^ 64), .speedTargetWrite 0 65536,
    .carTargetWrite 0 (2 ^ 32), .srvJmpgo 0 256, .spnPwmPeriod 0 { pwmOk with vbus := 4096 }, .spnPwmPeriod 0 { pwmOk with peakAt := 2500 }, .carPwmPeriod 0 4096 0,
    .carPwmPeriod 0 0 4096, .trainingDone 0 { trainOk with pass := 16 }, .trainingDone 0 { trainOk with tx := [] },
    .trainingDone 0 { trainOk with rx := [] }, .upstreamServoSlot 0 [], .statusBlock 0 [(0, [])], .controlRequest 0 8 0,
    .controlRequest 0 0 65536, .crsp 0 256 0 0 0, .crsp 0 0 0 256 0, .crsp 0 0 0 0 (2 ^ 32),
    .downstreamServoSlot 0 (some [])].map
      Instr.wf, c = false := by decide +kernel

theorem test_IllFormedHostRefused : ∀ c ∈ [Instr.sqDoorbell 0 1024 0 4, .sqDoorbell 0 0 65536 2, .cqDoorbell 0 1024 0 4,
    .cqDoorbell 0 0 0 5, .sqPollExpiry 0 1024, .sqFetch 0 1024 [], .sqFetch 0 0 [⟨[], []⟩],
    .sqFetch 0 0 [⟨List.replicate 64 0, [[]]⟩], .sqFetchFailed 0 1024, .interruptTimer 0 1024, .thawQueue 0 [[]],
    .thawQueue 32768 [], .createCq 32768, .createSq 32768, .destroySq 32768 false, .destroyCq 32768, .abort 32768, .quota 32768,
    .completionPost 32768, .hqiAbort 32768, .hostDmaReadError 32768, .hostDataArrival 32768 0 [] [],
    .hostDataArrival 0 0 [] [2 ^ 17], .getLog 32768, .eventWait 32768, .setPolicy 32768 [], .grant 32768, .fwDownload 32768 [] true,
    .fwActivate 32768, .append 32768 [], .append 0 [2 ^ 17], .place 32768 [], .place 0 [2 ^ 17], .read 32768, .verify 32768,
    .compress 32768, .decompress 32768, .stripeStart 0 true 0 [0, 1], .stripeStart 0 true 0 (List.replicate 8 0),
    .tileVerify (2 ^ 17) [], .tileUse .buf (2 ^ 17) 0 0 [], .mount 32768 ⟨[], [], []⟩, .tileOpen (2 ^ 17), .tileClose (2 ^ 17), .tileFree (2 ^ 17), .pprStart 0 true (2 ^ 24), .perfSnapshot [],
    .perfSnapshot (List.replicate 6 []), .coreRelease 32, .enginePower (2 ^ 24), .compressionClockEnable 16,
    .softwareSystemReset 256, .softwareCoreReset 256, .bootOk 65, .blockReset false 32, .blockReset true 32].map Instr.wf,
    c = false := by decide +kernel

end Sys2Proof.Tests
end

section
/-! PROOFS. What a command of one position leaves alone: the memories, and the view of all other positions. -/

namespace Sys2Proof.Machine

/-- The three memories. -/
def State.mem (s : State) : Mem × Mem × Mem := (s.sram, s.ember, s.gddr)

/-- What stands at the positions other than p, given the state's drives, packs and registers. -/
def othersOf (p : PosIx) (pos : Vector PosState 8) (packs : Vector PackState 8) (regs : RegFile) (q : {q : PosIx // q ≠ p}) :
    PosState × PackState × ({f : Fld // f.atPosition q} → Nat) :=
  (pos[q.1], packs[q.1], fun f => regs.rd f.1)

/-- What stands at the positions other than p: drives and link, pack, and the register fields of their blocks. -/
def State.others (p : PosIx) (s : State) := othersOf p s.pos s.packs s.regs

/-- A field that lies in the block of no position but p. -/
def Fld.clearOf (p : PosIx) (g : Fld) : Prop := ∀ q : PosIx, q ≠ p → ¬ g.atPosition q

/-- What a command of position p leaves alone: the memories, and all that stands at other positions. -/
abbrev Local (p : PosIx) (s t : State) : Prop := t.mem = s.mem ∧ t.others p = s.others p

theorem Fld.atPosition_congr {f g : Fld} (h : f.key = g.key) (q : PosIx) : f.atPosition q ↔ g.atPosition q := by
  simp [Fld.atPosition, h]

section
variable (s : State) (p : PosIx)

@[simp] theorem State.mem_ite (c : Prop) [Decidable c] (a b : State) :
    (if c then a else b).mem = if c then a.mem else b.mem := apply_ite ..
@[simp] theorem State.others_ite (c : Prop) [Decidable c] (a b : State) :
    (if c then a else b).others p = if c then a.others p else b.others p := apply_ite ..

@[simp] theorem State.mem_mk
    (part regs sram ember gddr marks resp halted waitq hostOut freeCtr buf cch perf flt tim pins pos spares policy eng packs
      lists stripes journal hqi fns cal cmp mtl lamp pending) :
    (State.mk part regs sram ember gddr marks resp halted waitq hostOut freeCtr buf cch perf flt tim pins pos spares policy eng packs
      lists stripes journal hqi fns cal cmp mtl lamp pending).mem = (sram, ember, gddr) := (rfl)
@[simp] theorem State.mem_eta : (s.sram, s.ember, s.gddr) = s.mem := (rfl)
@[simp] theorem State.others_mk
    (part regs sram ember gddr marks resp halted waitq hostOut freeCtr buf cch perf flt tim pins pos spares policy eng packs
      lists stripes journal hqi fns cal cmp mtl lamp pending) :
    (State.mk part regs sram ember gddr marks resp halted waitq hostOut freeCtr buf cch perf flt tim pins pos spares policy eng packs
      lists stripes journal hqi fns cal cmp mtl lamp pending).others p =
      othersOf p pos packs regs := (rfl)
@[simp] theorem State.others_eta : othersOf p s.pos s.packs s.regs = s.others p := (rfl)

@[simp] theorem State.mem_wr (f : Fld) (v : Nat) : (s.wr f v).mem = s.mem := (rfl)
@[simp] theorem State.others_wr (f : Fld) (v : Nat) (h : f.clearOf p) : (s.wr f v).others p = s.others p := by
  funext ⟨q, hq⟩
  have h : (fun g : {g : Fld // g.atPosition q} => RegFile.rd (s.wr f v).regs g.1) = fun g => RegFile.rd s.regs g.1 := by
    funext ⟨g, hg⟩
    exact RegFile.rd_wr_ne _ _ fun e => h q hq ((Fld.atPosition_congr e q).1 hg)
  simp only [State.others, othersOf, h]
  rfl

@[simp] theorem State.mem_wrI (f : Fld) (v : Int) : (s.wrI f v).mem = s.mem := (rfl)
@[simp] theorem State.others_wrI (f : Fld) (v : Int) (h : f.clearOf p) : (s.wrI f v).others p = s.others p :=
  s.others_wr p f _ h
@[simp] theorem State.mem_bump (f : Fld) (n : Nat) : (s.bump f n).mem = s.mem := (rfl)
@[simp] theorem State.others_bump (f : Fld) (n : Nat) (h : f.clearOf p) : (s.bump f n).others p = s.others p :=
  s.others_wr p f _ h
@[simp] theorem State.mem_setBitOf (f : Fld) (n : Nat) : (s.setBitOf f n).mem = s.mem := (rfl)
@[simp] theorem State.mem_clrBitOf (f : Fld) (n : Nat) : (s.clrBitOf f n).mem = s.mem := (rfl)
@[simp] theorem State.others_clrBitOf (f : Fld) (n : Nat) (h : f.clearOf p) : (s.clrBitOf f n).others p = s.others p :=
  s.others_wr p f _ h

@[simp] theorem State.updPos_local (g : PosState → PosState) : Local p s (s.updPos p g) := by
  refine ⟨rfl, ?_⟩
  funext ⟨q, hq⟩
  have : (s.updPos p g).pos[q] = s.pos[q] := State.updPos_ne s g hq
  simp only [State.others, othersOf, this]
  rfl
@[simp] theorem State.updSpn_local (g : SpnState → SpnState) : Local p s (s.updSpn p g) := s.updPos_local p _
@[simp] theorem State.updCar_local (g : CarState → CarState) : Local p s (s.updCar p g) := s.updPos_local p _
@[simp] theorem State.updSrv_local (g : SrvState → SrvState) : Local p s (s.updSrv p g) := s.updPos_local p _
@[simp] theorem State.updIgl_local (g : IglState → IglState) : Local p s (s.updIgl p g) := s.updPos_local p _
@[simp] theorem State.updTx_local (g : TxState → TxState) : Local p s (s.updTx p g) := s.updPos_local p _
@[simp] theorem State.updPf8_local (g : Pf8State → Pf8State) : Local p s (s.updPf8 p g) := s.updPos_local p _
@[simp] theorem State.updLoop_local (l : Fin 24) (g : LoopState → LoopState) : Local p s (s.updLoop p l g) :=
  s.updPos_local p _
@[simp] theorem State.updSurf_local (f : Fin 8) (g : SurfState → SurfState) : Local p s (s.updSurf p f g) :=
  s.updPos_local p _
@[simp] theorem State.updPack_local (g : PackState → PackState) : Local p s (s.updPack p g) := by
  refine ⟨rfl, ?_⟩
  funext ⟨q, hq⟩
  have : (p : Nat) ≠ q := fun e => hq (Fin.ext e.symm)
  have : (s.updPack p g).packs[q] = s.packs[q] := by simp [State.updPack, this]
  simp only [State.others, othersOf, this]
  rfl
@[simp] theorem State.mem_updFn (f : FnIx) (g : FnState → FnState) : (s.updFn f g).mem = s.mem := (rfl)
@[simp] theorem State.others_updFn (f : FnIx) (g : FnState → FnState) : (s.updFn f g).others p = s.others p := (rfl)
@[simp] theorem State.mem_updEng (e : EngIx) (g : EngState → EngState) : (s.updEng e g).mem = s.mem := (rfl)
@[simp] theorem State.others_updEng (e : EngIx) (g : EngState → EngState) : (s.updEng e g).others p = s.others p := (rfl)
@[simp] theorem State.mem_draw (site : Nat) : (s.draw site).2.mem = s.mem := (rfl)
@[simp] theorem State.others_draw (site : Nat) : (s.draw site).2.others p = s.others p := (rfl)
@[simp] theorem State.others_emberWrite (a : Nat) (l : List Byte) : (s.emberWrite a l).others p = s.others p := (rfl)

@[simp] theorem State.forEach_mem {α : Type} (l : List α) (g : α → State → State) (h : ∀ a t, (g a t).mem = t.mem) :
    (s.forEach l g).mem = s.mem := State.forEach_keep State.mem l g (fun a _ t => h a t) s
@[simp] theorem State.forEach_others {α : Type} (l : List α) (g : α → State → State)
    (h : ∀ a t, (g a t).others p = t.others p) : (s.forEach l g).others p = s.others p :=
  State.forEach_keep (State.others p) l g (fun a _ t => h a t) s
@[simp] theorem State.foldl_mem {α : Type} (l : List α) (g : State → α → State) (h : ∀ a t, (g t a).mem = t.mem) :
    (l.foldl g s).mem = s.mem := State.forEach_mem s l (fun a t => g t a) h
@[simp] theorem State.foldl_others {α : Type} (l : List α) (g : State → α → State)
    (h : ∀ a t, (g t a).others p = t.others p) : (l.foldl g s).others p = s.others p :=
  State.forEach_others s p l (fun a t => g t a) h

theorem State.foldl_others_mem {α : Type} (l : List α) (g : State → α → State)
    (h : ∀ a ∈ l, ∀ t, (g t a).others p = t.others p) : (l.foldl g s).others p = s.others p :=
  State.forEach_keep (State.others p) l (fun a t => g t a) h s
end

theorem Local.trans {p : PosIx} {s t u : State} (h : Local p s t) (k : Local p t u) : Local p s u :=
  ⟨k.1.trans h.1, k.2.trans h.2⟩

theorem Local.ite {p : PosIx} {s t u : State} {c : Prop} [Decidable c] (h : Local p s t) (k : Local p s u) :
    Local p s (if c then t else u) := by
  split
  · exact h
  · exact k

/-- A field of position p's block. -/
def Fld.near (p : PosIx) (g : Fld) : Prop := g.lo < 64 ∧ posBase p ≤ g.addr ∧ g.addr < posBase p + 0x100000

/-- A field of no position's block. -/
def Fld.far (g : Fld) : Prop := g.lo < 64 ∧ (g.addr < posBase 0 ∨ posBase 8 ≤ g.addr)

@[simp] theorem Fld.clearOf_of_near {p : PosIx} {g : Fld} (h : g.near p) : g.clearOf p := by
  intro q hq
  have : (q : Nat) ≠ p := fun e => hq (Fin.ext e)
  unfold Fld.near Fld.atPosition Fld.key posBase at *
  omega

@[simp] theorem Fld.clearOf_of_far {p : PosIx} {g : Fld} (h : g.far) : g.clearOf p := by
  intro q hq
  unfold Fld.far Fld.atPosition Fld.key posBase at *
  omega

/-- Servo fields lie in their position's block. -/
@[simp] theorem srvFlds_near (p : PosIx) :
    (R.srvCentreCentre p).near p ∧ (R.srvCtrlEn p).near p ∧ (R.srvLaneSpare p).near p ∧ (R.srvLaneStrikeA p).near p ∧
    (R.srvLaneStrikeB p).near p ∧ (R.srvLaneStrikeS p).near p ∧ (R.srvSnuffLatch p).near p ∧ (R.srvSnuffLive p).near p ∧
    (R.srvSnuffSeen p).near p ∧ (R.srvStatSpare p).near p ∧ (R.posCfgEn p).near p ∧ (R.posChkReason p).near p := by
  simp only [Fld.near, R.srvCentreCentre, R.srvCtrlEn, R.srvLaneSpare, R.srvLaneStrikeA, R.srvLaneStrikeB, R.srvLaneStrikeS,
    R.srvSnuffLatch, R.srvSnuffLive, R.srvSnuffSeen, R.srvStatSpare, R.posCfgEn, R.posChkReason, posBase]
  omega

/-- Fields of a surface lie in their position's block. -/
@[simp] theorem surfFlds_near (p : PosIx) (f : Fin 8) :
    (R.jmpStatBusy p f).near p ∧ (R.jmpStatResult p f).near p ∧ (R.srvSpFocus p f).near p ∧ (R.srvSpTrack p f).near p ∧
    (R.srvSpTilt p f).near p := by
  simp only [Fld.near, R.jmpStatBusy, R.jmpStatResult, R.srvSpFocus, R.srvSpTrack, R.srvSpTilt, posBase]
  omega

/-- Fields of a loop lie in their position's block. -/
@[simp] theorem loopFlds_near (p : PosIx) (l : Fin 24) :
    (R.loopCtrlMode p l).near p ∧ (R.loopFlagsBankerr p l).near p ∧ (R.loopFlagsModeerr p l).near p ∧
    (R.loopIntInteg p l).near p ∧ (R.loopOpenDrive p l).near p := by
  simp only [Fld.near, R.loopCtrlMode, R.loopFlagsBankerr, R.loopFlagsModeerr, R.loopIntInteg, R.loopOpenDrive, posBase]
  omega

/-- A loop coefficient lies in its position's block. -/
@[simp] theorem loopCoef_near (p : PosIx) (l : Fin 24) (bank : Fin 2) (n : Fin 6) (j : Fin 5) :
    (R.loopCoefCoef p l bank n j).near p := by
  simp only [Fld.near, R.loopCoefCoef, posBase]
  omega

/-- Spindle fields lie in their position's block. -/
@[simp] theorem spnFlds_near (p : PosIx) :
    (R.spnIphCurrent p).near p ∧ (R.spnIphStep p).near p ∧ (R.spnMeasSpeed p).near p ∧ (R.spnMeasVbus p).near p ∧
    (R.spnReasonCode p).near p ∧ (R.spnSpdTarget p).near p ∧ (R.spnStatAvalid p).near p ∧ (R.spnStatChopflt p).near p ∧
    (R.spnStatCmderr p).near p ∧ (R.spnStatIpeak p).near p ∧ (R.spnStatIskip p).near p ∧ (R.spnStatLock p).near p ∧
    (R.spnStatOv1 p).near p ∧ (R.spnStatOv2 p).near p ∧ (R.spnStatOv3 p).near p ∧ (R.spnStatRetry p).near p ∧
    (R.spnStatReverse p).near p ∧ (R.spnStatState p).near p := by
  simp only [Fld.near, R.spnIphCurrent, R.spnIphStep, R.spnMeasSpeed, R.spnMeasVbus, R.spnReasonCode, R.spnSpdTarget,
    R.spnStatAvalid, R.spnStatChopflt, R.spnStatCmderr, R.spnStatIpeak, R.spnStatIskip, R.spnStatLock, R.spnStatOv1,
    R.spnStatOv2, R.spnStatOv3, R.spnStatRetry, R.spnStatReverse, R.spnStatState, posBase]
  omega

/-- Carriage fields lie in their position's block. -/
@[simp] theorem carFlds_near (p : PosIx) :
    (R.carAccAmax p).near p ∧ (R.carAccJmax p).near p ∧ (R.carAlignOfs p).near p ∧ (R.carGratioRatio p).near p ∧
    (R.carGtctlNext p).near p ∧ (R.carIdxPos p).near p ∧ (R.carPosPos p).near p ∧ (R.carReasonCode p).near p ∧
    (R.carRefFrac p).near p ∧ (R.carRefInt p).near p ∧ (R.carStatBusy p).near p ∧ (R.carStatCmderr p).near p ∧
    (R.carStatEncerr p).near p ∧ (R.carStatFerr p).near p ∧ (R.carStatGearfire p).near p ∧ (R.carStatLimclip p).near p ∧
    (R.carStatLimstop p).near p ∧ (R.carStatMlost p).near p ∧ (R.carStatOvc p).near p ∧ (R.carStatPvalid p).near p ∧
    (R.carStatSettled p).near p ∧ (R.carStatState p).near p ∧ (R.carTgtTgt p).near p ∧ (R.carVmaxVmax p).near p := by
  simp only [Fld.near, R.carAccAmax, R.carAccJmax, R.carAlignOfs, R.carGratioRatio, R.carGtctlNext, R.carIdxPos, R.carPosPos,
    R.carReasonCode, R.carRefFrac, R.carRefInt, R.carStatBusy, R.carStatCmderr, R.carStatEncerr, R.carStatFerr,
    R.carStatGearfire, R.carStatLimclip, R.carStatLimstop, R.carStatMlost, R.carStatOvc, R.carStatPvalid, R.carStatSettled,
    R.carStatState, R.carTgtTgt, R.carVmaxVmax, posBase]
  omega

/-- Link fields lie in their position's block. -/
@[simp] theorem iglFlds_near (p : PosIx) :
    (R.iglCcmdAddr p).near p ∧ (R.iglCcmdOp p).near p ∧ (R.iglCdataData p).near p ∧ (R.iglCretryCount p).near p ∧
    (R.iglCstatBusy p).near p ∧ (R.iglCstatErr p).near p ∧ (R.iglCstatPstat p).near p ∧ (R.iglCstatResult p).near p ∧
    (R.iglCstatTries p).near p ∧ (R.iglCtrlEn p).near p ∧ (R.iglEvtCode p).near p ∧ (R.iglEvtData p).near p ∧
    (R.iglEvtMask p).near p ∧ (R.iglEvtOvf p).near p ∧ (R.iglEvtValid p).near p ∧ (R.iglReasonCode p).near p ∧
    (R.iglStatCtrlflt p).near p ∧ (R.iglStatDegraded p).near p ∧ (R.iglStatLanes p).near p ∧ (R.iglStatState p).near p ∧
    (R.iglStatSuspend p).near p ∧ (R.iglSvupErr p).near p ∧ (R.iglSvupRecon p).near p := by
  simp only [Fld.near, R.iglCcmdAddr, R.iglCcmdOp, R.iglCdataData, R.iglCretryCount, R.iglCstatBusy, R.iglCstatErr, R.iglCstatPstat,
    R.iglCstatResult, R.iglCstatTries, R.iglCtrlEn, R.iglEvtCode, R.iglEvtData, R.iglEvtMask, R.iglEvtOvf, R.iglEvtValid,
    R.iglReasonCode, R.iglStatCtrlflt, R.iglStatDegraded, R.iglStatLanes, R.iglStatState, R.iglStatSuspend, R.iglSvupErr,
    R.iglSvupRecon, posBase]
  omega

theorem iglLane_near (p : PosIx) {l : Nat} (h : l < 4) : (R.iglLaneBadhdr p l).near p := by
  simp only [Fld.near, R.iglLaneBadhdr, posBase]
  omega

/-- Fields of the shared blocks lie in no position's block. -/
@[simp] theorem sysFlds_far  :
    R.calStatFull.far ∧ R.calStatRecords.far ∧ R.fltLastPos.far ∧ R.fltLastReason.far ∧ R.fltLastSource.far ∧
    R.fltSeqSeq.far ∧ R.fltStatNew.far ∧ R.pwrSafePos.far := by
  simp only [Fld.far, R.calStatFull, R.calStatRecords, R.fltLastPos, R.fltLastReason, R.fltLastSource, R.fltSeqSeq, R.fltStatNew,
    R.pwrSafePos, posBase]
  omega

/-- So do those that the shared blocks keep for each position. -/
@[simp] theorem posIndexedFlds_far (p : PosIx) :
    (R.calTempTemp p).far ∧ (R.calTempValid p).far ∧ (R.clkPllLock (7 + p.val)).far := by
  simp only [Fld.far, R.calTempTemp, R.calTempValid, R.clkPllLock, posBase]
  omega

/-- The fields of an engine lie in no position's block. -/
@[simp] theorem engFlds_far (e : EngIx) : (R.rdStatLock e).far ∧ (R.trStatLocked e).far := by
  simp only [Fld.far, R.rdStatLock, R.trStatLocked, posBase, engBase]
  omega

@[simp] theorem State.mem_logF (s : State) (reason source pos flags addr detail : Nat) :
    (s.logF reason source pos flags addr detail).mem = s.mem := (rfl)
@[simp] theorem State.others_logF (p : PosIx) (s : State) (reason source pos flags addr detail : Nat) :
    (s.logF reason source pos flags addr detail).others p = s.others p := by
  simp [State.logF]

@[simp] theorem pageChange_mem (f : FnIx) (page p : Nat) (s : State) : (pageChange f page p s).mem = s.mem := (rfl)
@[simp] theorem pageChange_others (q : PosIx) (f : FnIx) (page p : Nat) (s : State) :
    (pageChange f page p s).others q = s.others q := (rfl)
@[simp] theorem pllTrim_mem (n : Nat) (s : State) : (pllTrim n s).mem = s.mem := by
  simp [pllTrim]
@[simp] theorem pllTrim_others (n : Nat) (p : PosIx) (s : State) (h : (R.clkPllLock n).clearOf p) :
    (pllTrim n s).others p = s.others p := by
  simp [pllTrim, h]

end Sys2Proof.Machine
end

section
/-! PROOFS. The operations of servo, spindle, link, carriage and pack are local to their position. -/

namespace Sys2Proof.Machine

@[simp] theorem packPageChange_local (page : Nat) (p : PosIx) (s : State) : Local p s (packPageChange page p s) := by
  simp [Local, packPageChange]

@[simp] theorem updRanks_local (p : PosIx) (n : Nat) (g : Rank → Rank) (s : State) : Local p s (updRanks p n g s) := by
  simp [Local, updRanks]

@[simp] theorem updCast_local (p : PosIx) (m : Nat) (g : Cast → Cast) (s : State) : Local p s (updCast p m g s) := by
  simp [Local, updCast]

@[simp] theorem queueRec_local (p : PosIx) (b : LBody) (s : State) : Local p s (queueRec p b s) := by
  simp [Local, queueRec]

@[simp] theorem readOnly_local (p : PosIx) (reason : Nat) (s : State) : Local p s (readOnly p reason s) := by
  simp [Local, readOnly]

@[simp] theorem liftReadOnly_local (p : PosIx) (reason : Nat) (s : State) : Local p s (liftReadOnly p reason s) := by
  simp [Local, liftReadOnly]

@[simp] theorem queueRecal_local (p : PosIx) (layer mask kinds : Nat) (s : State) :
    Local p s (queueRecal p layer mask kinds s) := by
  simp [Local, queueRecal]

@[simp] theorem releaseSnuff_local (p : PosIx) (b : Nat) (s : State) : Local p s (releaseSnuff p b s) := by
  simp [Local, releaseSnuff]

@[simp] theorem linkStop_local (p : PosIx) (s : State) : Local p s (linkStop p s) := by
  simp [Local, linkStop]

@[simp] theorem enterMode_local (p : PosIx) (l : Fin 24) (m : Nat) (s : State) : Local p s (enterMode p l m s) := by
  simp [Local, enterMode]

@[simp] theorem focusPark_local (p : PosIx) (f : Fin 8) (s : State) : Local p s (focusPark p f s) := by
  simp [Local, focusPark]

@[simp] theorem jumpEnd_local (p : PosIx) (f : Fin 8) (result : Nat) (s : State) :
    Local p s (jumpEnd p f result s) := by
  simp [Local, jumpEnd]

@[simp] theorem jumpGo_local (p : PosIx) (f : Fin 8) (s : State) : Local p s (jumpGo p f s) := by
  simp [Local, jumpGo]

@[simp] theorem spareOut_local (p : PosIx) (s : State) : Local p s (spareOut p s) := by
  simp [Local, spareOut]

@[simp] theorem showStrikes_local (p : PosIx) (s : State) : Local p s (showStrikes p s) := by
  simp [Local, showStrikes]

@[simp] theorem srvEnable_local (p : PosIx) (on : Bool) (s : State) : Local p s (srvEnable p on s) := by
  simp [Local, srvEnable]

@[simp] theorem spareLeave_local (p : PosIx) (s : State) : Local p s (spareLeave p s) := by
  unfold spareLeave
  split <;> simp [Local]

@[simp] theorem pendMode_local (p : PosIx) (l : Fin 24) (m : Nat) (s : State) : Local p s (pendMode p l m s) := by
  simp [Local, pendMode]

@[simp] theorem loopModeWrite_local (p : PosIx) (l : Fin 24) (m : Nat) (s : State) :
    Local p s (loopModeWrite p l m s) := by
  simp [Local, loopModeWrite]

@[simp] theorem loopGainNow_local (p : PosIx) (l : Fin 24) (s : State) : Local p s (loopGainNow p l s) := by
  simp [Local, loopGainNow]

@[simp] theorem loopCoefWrite_local (p : PosIx) (l : Fin 24) (bank : Fin 2) (n : Fin 6) (j : Fin 5) (v : Nat) (s : State) :
    Local p s (loopCoefWrite p l bank n j v s) := by
  simp [Local, loopCoefWrite]

@[simp] theorem setpointWrite_local (p : PosIx) (f : Fin 8) (v : Nat) (s : State) :
    Local p s (setpointWrite p f v s) := by
  simp [Local, setpointWrite]

@[simp] theorem srvJmpgo_local (p : PosIx) (mask : Nat) (s : State) : Local p s (srvJmpgo p mask s) := by
  simp [Local, srvJmpgo]

@[simp] theorem jumpAbort_local (p : PosIx) (f : Fin 8) (s : State) : Local p s (jumpAbort p f s) := by
  simp [Local, jumpAbort]

@[simp] theorem jumpTimeout_local (p : PosIx) (f : Fin 8) (s : State) : Local p s (jumpTimeout p f s) := by
  simp [Local, jumpTimeout]

@[simp] theorem centrePublish_local (p : PosIx) (s : State) : Local p s (centrePublish p s) := by
  simp [Local, centrePublish]

@[simp] theorem spnEnter_local (p : PosIx) (st : Nat) (s : State) : Local p s (spnEnter p st s) := by
  simp [Local, spnEnter]

@[simp] theorem spnReason_local (p : PosIx) (code : Nat) (s : State) : Local p s (spnReason p code s) := by
  simp [Local, spnReason]

@[simp] theorem spnGates_local (p : PosIx) (b : Bridge) (s : State) : Local p s (spnGates p b s) := by
  simp [Local, spnGates]

@[simp] theorem spnStepTo_local (p : PosIx) (k t : Nat) (s : State) : Local p s (spnStepTo p k t s) := by
  simp [Local, spnStepTo]

@[simp] theorem spnRefuse_local (p : PosIx) (s : State) : Local p s (spnRefuse p s) := by
  simp [Local, spnRefuse]

@[simp] theorem spnToObserve_local (p : PosIx) (s : State) : Local p s (spnToObserve p s) := by
  simp [Local, spnToObserve]

@[simp] theorem spnToBrake_local (p : PosIx) (stopping : Bool) (s : State) : Local p s (spnToBrake p stopping s) := by
  simp [Local, spnToBrake]

@[simp] theorem spnToFault_local (p : PosIx) (code : Nat) (s : State) : Local p s (spnToFault p code s) := by
  simp [Local, spnToFault]

@[simp] theorem spnToRun_local (p : PosIx) (s : State) : Local p s (spnToRun p s) := by
  simp [Local, spnToRun]

@[simp] theorem spnFinalBrake_local (p : PosIx) (s : State) : Local p s (spnFinalBrake p s) := by
  simp [Local, spnFinalBrake]

@[simp] theorem spnInterval_local (p : PosIx) (s : State) : Local p s (spnInterval p s) := by
  simp [Local, spnInterval]

@[simp] theorem spnStart_local (p : PosIx) (s : State) : Local p s (spnStart p s) := by
  simp [Local, spnStart]

@[simp] theorem spnStop_local (p : PosIx) (short : Bool) (s : State) : Local p s (spnStop p short s) := by
  simp [Local, spnStop]

@[simp] theorem spnCoastCmd_local (p : PosIx) (s : State) : Local p s (spnCoastCmd p s) := by
  simp [Local, spnCoastCmd]

@[simp] theorem chopperFault_local (p : PosIx) (s : State) : Local p s (chopperFault p s) := by
  simp [Local, chopperFault]

@[simp] theorem busSample_local (p : PosIx) (v : Nat) (s : State) : Local p s (busSample p v s) := by
  simp [Local, busSample]

@[simp] theorem currentLoop_local (p : PosIx) (x : PwmSample) (s : State) : Local p s (currentLoop p x s) := by
  simp only [currentLoop]
  split <;> simp [Local]

@[simp] theorem pllEvent_local (p : PosIx) (t : Nat) (s : State) : Local p s (pllEvent p t s) := by
  unfold pllEvent
  split <;> simp [Local]

@[simp] theorem spnEvent_local (p : PosIx) (t : Nat) (s : State) : Local p s (spnEvent p t s) := by
  simp only [spnEvent]
  split <;> simp [Local]

@[simp] theorem backEmf_local (p : PosIx) (x : PwmSample) (s : State) : Local p s (backEmf p x s) := by
  unfold backEmf
  dsimp only
  split
  · simp [Local]
  · split
    · simp [Local]
    · split
      · simp [Local]
      · exact .ite (.trans (s.updSpn_local p _) (spnEvent_local p _ _)) (s.updSpn_local p _)

@[simp] theorem rampStep_local (p : PosIx) (s : State) : Local p s (rampStep p s) := by
  simp [Local, rampStep]

@[simp] theorem pwmPending_local (p : PosIx) (s : State) : Local p s (pwmPending p s) := by
  simp [Local, pwmPending]

@[simp] theorem spnPwmPeriod_local (p : PosIx) (x : PwmSample) (s : State) : Local p s (spnPwmPeriod p x s) := by
  simp [Local, spnPwmPeriod]

@[simp] theorem commutate_local (p : PosIx) (s : State) : Local p s (commutate p s) := by
  unfold commutate
  split <;> simp [Local]

@[simp] theorem speedLock_local (p : PosIx) (s : State) : Local p s (speedLock p s) := by
  simp [Local, speedLock]

@[simp] theorem spnLatch_local (p : PosIx) (s : State) : Local p s (spnLatch p s) := by
  simp [Local, spnLatch]

@[simp] theorem speedLoop_local (p : PosIx) (s : State) : Local p s (speedLoop p s) := by
  simp [Local, speedLoop]

@[simp] theorem observeEnd_local (p : PosIx) (x : CatchSpin) (s : State) : Local p s (observeEnd p x s) := by
  simp [Local, observeEnd]

@[simp] theorem alignEnd_local (p : PosIx) (s : State) : Local p s (alignEnd p s) := by
  simp [Local, alignEnd]

@[simp] theorem waitEnd_local (p : PosIx) (s : State) : Local p s (waitEnd p s) := by
  simp [Local, waitEnd]

@[simp] theorem stopNoEvent_local (p : PosIx) (s : State) : Local p s (stopNoEvent p s) := by
  simp [Local, stopNoEvent]

@[simp] theorem brakeIntervalEnd_local (p : PosIx) (s : State) : Local p s (brakeIntervalEnd p s) := by
  simp [Local, brakeIntervalEnd]

@[simp] theorem windowEnd_local (p : PosIx) (x : CatchSpin) (s : State) : Local p s (windowEnd p x s) := by
  simp [Local, windowEnd]

@[simp] theorem speedTargetWrite_local (p : PosIx) (rpm : Nat) (s : State) : Local p s (speedTargetWrite p rpm s) := by
  simp [Local, speedTargetWrite]

@[simp] theorem spinupSlotOpen_local (p : PosIx) (s : State) : Local p s (spinupSlotOpen p s) := by
  simp [Local, spinupSlotOpen]

@[simp] theorem lnkReason_local (p : PosIx) (code : Nat) (s : State) : Local p s (lnkReason p code s) := by
  simp [Local, lnkReason]

@[simp] theorem showIglEvt_local (p : PosIx) (s : State) : Local p s (showIglEvt p s) := by
  simp only [showIglEvt]
  split <;> simp [Local]

@[simp] theorem iglEvent_local (p : PosIx) (code mask data : Nat) (s : State) :
    Local p s (iglEvent p code mask data s) := by
  simp [Local, iglEvent]

@[simp] theorem linkEnable_local (p : PosIx) (on : Bool) (s : State) : Local p s (linkEnable p on s) := by
  simp [Local, linkEnable]

@[simp] theorem upstreamSlot_local (p : PosIx) (blocks : List Block) (s : State) : Local p s (upstreamSlot p blocks s) := by
  have hfold : Local p s ((List.range 8).foldl (fun s i =>
      if nth .missing blocks i == .badHeader then s.bump (R.iglLaneBadhdr p (i / 2)) 1 else s) s) := by
    refine ⟨by simp, s.foldl_others_mem p _ _ fun i hi t => ?_⟩
    have := iglLane_near p (l := i / 2) (by have := List.mem_range.1 hi; omega)
    simp [this]
  unfold upstreamSlot
  split
  · simp [Local]
  · dsimp only
    generalize (List.range 8).foldl _ s = u at hfold ⊢
    split <;> simp [Local, hfold]

@[simp] theorem creqSend_local (p : PosIx) (n : Nat) (s : State) : Local p s (creqSend p n s) := by
  induction n generalizing s with
  | zero => simp [Local, creqSend]
  | succ n ih =>
    rw [creqSend]
    split
    · simp [Local]
    · simp [Local, ih]

@[simp] theorem creq_local (p : PosIx) (op addr data : Nat) (owner : CreqOwner) (s : State) :
    Local p s (creq p op addr data owner s) := by
  simp [Local, creq]

@[simp] theorem controlRequest_local (p : PosIx) (op addr : Nat) (s : State) :
    Local p s (controlRequest p op addr s) := by
  simp [Local, controlRequest]

@[simp] theorem creqEnd_local (p : PosIx) (c : Creq) (result status data : Nat) (s : State) :
    Local p s (creqEnd p c result status data s) := by
  unfold creqEnd
  split <;> simp [Local]

@[simp] theorem sendAlign_local (p : PosIx) (s : State) : Local p s (sendAlign p s) := by
  simp [Local, sendAlign]

@[simp] theorem crsp_local (p : PosIx) (seq op status data : Nat) (s : State) :
    Local p s (crsp p seq op status data s) := by
  unfold crsp
  split
  · simp [Local]
  · next c _ =>
    refine .trans ?_ (creqSend_local p 8 _)
    generalize hu : creqEnd p c _ status data _ = u
    have hu : Local p s u := by simp [← hu, Local]
    refine hu.trans ?_
    simp [Local]

@[simp] theorem creqTimeout_local (p : PosIx) (seq : Nat) (s : State) : Local p s (creqTimeout p seq s) := by
  unfold creqTimeout
  split <;> simp [Local]

@[simp] theorem lockSeen_local (p : PosIx) (mask : Nat) (on : Nat) (s : State) : Local p s (lockSeen p mask on s) := by
  have hpass : ∀ (e : EngIx) (t : State), Local p t (match t.eng[e].home with
      | some (q, f) =>
        if !(q == p && bitAt mask f) then t else
        let t := t.wr (R.trStatLocked e) on
        if on = 0 && t.bit (R.rdStatBusy e) then t.set1 (R.rdStatLock e) else t
      | none => t) := by
    intro e t
    split <;> simp [Local]
  exact ⟨s.forEach_mem _ _ fun e t => (hpass e t).1, s.forEach_others p _ _ fun e t => (hpass e t).2⟩

@[simp] theorem recalCheck_local (p : PosIx) (s : State) : Local p s (recalCheck p s) := by
  simp [Local, recalCheck]

@[simp] theorem tempSeen_local (p : PosIx) (data : Nat) (s : State) : Local p s (tempSeen p data s) := by
  simp [Local, tempSeen]

@[simp] theorem cevt_local (p : PosIx) (code mask data : Nat) (s : State) : Local p s (cevt p code mask data s) := by
  simp [Local, cevt]

@[simp] theorem alignSend_local (p : PosIx) (s : State) : Local p s (alignSend p s) := by
  simp [Local, alignSend]

@[simp] theorem laneChange_local (p : PosIx) (l : Nat) (s : State) : Local p s (laneChange p l s) := by
  simp only [laneChange]
  split <;> simp [Local]

@[simp] theorem alignReceived_local (p : PosIx) (l : Fin 4) (s : State) : Local p s (alignReceived p l s) := by
  simp only [alignReceived]
  split
  · simp [Local]
  · split <;> simp [Local]

@[simp] theorem downstreamSlot_local (p : PosIx) (flips : Option (List Byte)) (s : State) :
    Local p s (downstreamSlot p flips s) := by
  simp [Local, downstreamSlot]

@[simp] theorem readyRank_local (p : PosIx) (n : Nat) (s : State) : Local p s (readyRank p n s) := by
  unfold readyRank
  split <;> simp [Local]

@[simp] theorem rankIdle_local (p : PosIx) (n : Nat) (s : State) : Local p s (rankIdle p n s) := by
  unfold rankIdle
  split <;> simp [Local]

@[simp] theorem setCarRef_local (p : PosIx) (v : Int) (s : State) : Local p s (setCarRef p v s) := by
  simp [Local, setCarRef]

@[simp] theorem carEnter_local (p : PosIx) (st : Nat) (s : State) : Local p s (carEnter p st s) := by
  simp [Local, carEnter]

@[simp] theorem carLoad_local (p : PosIx) (code : Nat) (s : State) : Local p s (carLoad p code s) := by
  simp [Local, carLoad]

@[simp] theorem carReason_local (p : PosIx) (code : Nat) (s : State) : Local p s (carReason p code s) := by
  simp [Local, carReason]

@[simp] theorem carRefuse_local (p : PosIx) (code : Nat) (s : State) : Local p s (carRefuse p code s) := by
  simp [Local, carRefuse]

@[simp] theorem carBegin_local (p : PosIx) (s : State) : Local p s (carBegin p s) := by
  simp [Local, carBegin]

@[simp] theorem carStop_local (p : PosIx) (s : State) : Local p s (carStop p s) := by
  simp [Local, carStop]

@[simp] theorem carFaultRamp_local (p : PosIx) (code : Nat) (s : State) : Local p s (carFaultRamp p code s) := by
  simp [Local, carFaultRamp]

@[simp] theorem carEnable_local (p : PosIx) (s : State) : Local p s (carEnable p s) := by
  simp [Local, carEnable]

@[simp] theorem carHome_local (p : PosIx) (s : State) : Local p s (carHome p s) := by
  simp [Local, carHome]

@[simp] theorem seekTo_local (p : PosIx) (target : Int) (park : Bool) (s : State) :
    Local p s (seekTo p target park s) := by
  simp [Local, seekTo]

@[simp] theorem carSeekCmd_local (p : PosIx) (s : State) : Local p s (carSeekCmd p s) := by
  simp [Local, carSeekCmd]

@[simp] theorem carDirectCmd_local (p : PosIx) (s : State) : Local p s (carDirectCmd p s) := by
  simp [Local, carDirectCmd]

@[simp] theorem carGearCmd_local (p : PosIx) (s : State) : Local p s (carGearCmd p s) := by
  simp [Local, carGearCmd]

@[simp] theorem carStopCmd_local (p : PosIx) (s : State) : Local p s (carStopCmd p s) := by
  simp [Local, carStopCmd]

@[simp] theorem carParkCmd_local (p : PosIx) (s : State) : Local p s (carParkCmd p s) := by
  simp [Local, carParkCmd]

@[simp] theorem carOffCmd_local (p : PosIx) (s : State) : Local p s (carOffCmd p s) := by
  simp [Local, carOffCmd]

@[simp] theorem carToOff_local (p : PosIx) (s : State) : Local p s (carToOff p s) := by
  simp [Local, carToOff]

@[simp] theorem carClearCmd_local (p : PosIx) (s : State) : Local p s (carClearCmd p s) := by
  simp [Local, carClearCmd]

@[simp] theorem carTargetWrite_local (p : PosIx) (v : Nat) (s : State) : Local p s (carTargetWrite p v s) := by
  simp [Local, carTargetWrite]

@[simp] theorem encoderEdge_local (p : PosIx) (chB level : Bool) (s : State) :
    Local p s (encoderEdge p chB level s) := by
  simp [Local, encoderEdge]

@[simp] theorem encoderError_local (p : PosIx) (s : State) : Local p s (encoderError p s) := by
  simp only [encoderError]
  split <;> simp [Local]

@[simp] theorem indexEdge_local (p : PosIx) (s : State) : Local p s (indexEdge p s) := by
  simp [Local, indexEdge]

@[simp] theorem followingError_local (p : PosIx) (s : State) : Local p s (followingError p s) := by
  simp [Local, followingError]

@[simp] theorem phaseOvercurrent_local (p : PosIx) (s : State) : Local p s (phaseOvercurrent p s) := by
  simp [Local, phaseOvercurrent]

@[simp] theorem followPlan_local (p : PosIx) (s : State) : Local p s (followPlan p s) := by
  simp only [followPlan]
  split <;> simp [Local]

@[simp] theorem planAnew_local (p : PosIx) (t : Option Int) (s : State) : Local p s (planAnew p t s) := by
  simp [Local, planAnew]

@[simp] theorem keepLimits_local (p : PosIx) (s : State) : Local p s (keepLimits p s) := by
  simp only [keepLimits]
  split <;> simp [Local]

@[simp] theorem generator_local (p : PosIx) (s : State) : Local p s (generator p s) := by
  simp [Local, generator]

@[simp] theorem tableStep_local (p : PosIx) (s : State) : Local p s (tableStep p s) := by
  simp only [tableStep]
  split <;> simp [Local]

@[simp] theorem decelerate_local (p : PosIx) (s : State) : Local p s (decelerate p s) := by
  simp [Local, decelerate]

@[simp] theorem gearEngage_local (p : PosIx) (s : State) : Local p s (gearEngage p s) := by
  simp [Local, gearEngage]

@[simp] theorem gearStep_local (p : PosIx) (s : State) : Local p s (gearStep p s) := by
  simp [Local, gearStep]

@[simp] theorem settleStep_local (p : PosIx) (s : State) : Local p s (settleStep p s) := by
  simp [Local, settleStep]

@[simp] theorem homeStep_local (p : PosIx) (s : State) : Local p s (homeStep p s) := by
  simp [Local, homeStep]

@[simp] theorem carReference_local (p : PosIx) (s : State) : Local p s (carReference p s) := by
  simp [Local, carReference]

@[simp] theorem positionLoop_local (p : PosIx) (s : State) : Local p s (positionLoop p s) := by
  simp [Local, positionLoop]

@[simp] theorem carriageLoop_local (p : PosIx) (s : State) : Local p s (carriageLoop p s) := by
  simp [Local, carriageLoop]

@[simp] theorem carPwmPeriod_local (p : PosIx) (ia ib : Nat) (s : State) : Local p s (carPwmPeriod p ia ib s) := by
  simp [Local, carPwmPeriod]

@[simp] theorem loopsOff_local (p : PosIx) (s : State) : Local p s (loopsOff p s) := by
  simp [Local, loopsOff]

@[simp] theorem parkStep_local (p : PosIx) (s : State) : Local p s (parkStep p s) := by
  simp [Local, parkStep]

@[simp] theorem packPark_local (p : PosIx) (s : State) : Local p s (packPark p s) := by
  simp [Local, packPark]

@[simp] theorem idlePark_local (p : PosIx) (s : State) : Local p s (idlePark p s) := by
  simp [Local, idlePark]

@[simp] theorem snuffClear_local (p : PosIx) (s : State) : Local p s (snuffClear p s) := by
  simp [Local, snuffClear]

@[simp] theorem shockRelease_local (p : PosIx) (s : State) : Local p s (shockRelease p s) := by
  simp [Local, shockRelease]

@[simp] theorem positionEnable_local (p : PosIx) (on : Bool) (s : State) : Local p s (positionEnable p on s) := by
  simp [Local, positionEnable]

@[simp] theorem safeReleasePos_local (p : PosIx) (s : State) : Local p s (safeReleasePos p s) := by
  simp [Local, safeReleasePos]

@[simp] theorem itemGood_local (p : PosIx) (kind surf layer : Nat) (s : State) :
    Local p s (itemGood p kind surf layer s) := by
  simp [Local, itemGood]

@[simp] theorem updMeas_local (p : PosIx) (g : Meas → Meas) (s : State) : Local p s (updMeas p g s) := by
  simp [Local, updMeas]

@[simp] theorem dropMeas_local (p : PosIx) (s : State) : Local p s (dropMeas p s) := by
  simp [Local, dropMeas]

@[simp] theorem sendSa_local (p : PosIx) (f : Fin 8) (v : Int) (s : State) : Local p s (sendSa p f v s) := by
  simp [Local, sendSa]

@[simp] theorem beginMove_local (p : PosIx) (surf : Option (Fin 8)) (goal : List Int) (s : State) :
    Local p s (beginMove p surf goal s) := by
  simp [Local, beginMove]

@[simp] theorem putOfs_local (p : PosIx) (v : Nat) (s : State) : Local p s (putOfs p v s) := by
  simp [Local, putOfs]

@[simp] theorem applyDrives_local (p : PosIx) (s : State) : Local p s (applyDrives p s) := by
  simp [Local, applyDrives]

@[simp] theorem alignSeek_local (p : PosIx) (x : Int) (s : State) : Local p s (alignSeek p x s) := by
  simp [Local, alignSeek]

@[simp] theorem alignDirect_local (p : PosIx) (d : Int) (s : State) : Local p s (alignDirect p d s) := by
  simp [Local, alignDirect]

end Sys2Proof.Machine
end

section
/-! PROOFS. The measurement of the drives writes the Ember store, and is otherwise local to its position. -/

namespace Sys2Proof.Machine

@[simp] theorem showRecords_others (p : PosIx) (s : State) : (showRecords s).others p = s.others p := by
  simp [showRecords]

@[simp] theorem freeRec_others (p : PosIx) (s : State) (r : CalRec) : (freeRec s r).others p = s.others p := by
  simp [freeRec]

@[simp] theorem storeRec_others (p : PosIx) (raw : List Byte) (fuel : Nat) (s : State) :
    (storeRec raw fuel s).others p = s.others p := by
  induction fuel generalizing s with
  | zero => simp [storeRec]
  | succ fuel ih =>
    rw [storeRec]
    split
    · simp
    · split <;> simp [ih]

@[simp] theorem storeItem_others (q p : PosIx) (kind surf layer zg runs flags : Nat) (value : List Byte) (s : State) :
    (storeItem p kind surf layer zg runs flags value s).others q = s.others q := by
  simp [storeItem]

@[simp] theorem itemFailed_others (p : PosIx) (kind surf layer runs : Nat) (s : State) :
    (itemFailed p kind surf layer runs s).others p = s.others p := by
  simp [itemFailed]

section
variable {p : PosIx} {m : Meas} (hm : m.task.p = p)
include hm

theorem settleBack_others (s : State) : (settleBack m s).others p = s.others p := by
  subst hm
  simp [settleBack]

theorem limitsBack_others (s : State) : (limitsBack m s).others p = s.others p := by
  subst hm
  simp [limitsBack]

theorem measGood_others (v : List Int) (s : State) : (measGood m v s).others p = s.others p := by
  have := settleBack_others hm
  subst hm
  simp [measGood, this]

theorem measFail_others (s : State) : (measFail m s).others p = s.others p := by
  have := settleBack_others hm
  subst hm
  simp [measFail, this]
end

theorem measOf_task {s : State} {p : PosIx} {m : Meas} (h : measOf s p = some m) : m.task.p = p := by
  simpa using List.find?_some h

@[simp] theorem runDone_others (p : PosIx) (v : Option (List Int)) (s : State) :
    (runDone p v s).others p = s.others p := by
  unfold runDone
  split
  · rfl
  · next m hm =>
    have hm := measOf_task hm
    dsimp only
    split
    · simp [measGood_others, limitsBack_others, hm]
    · simp [measFail_others, limitsBack_others, hm]

@[simp] theorem alignPeriod_others (p : PosIx) (s : State) : (alignPeriod p s).others p = s.others p := by
  unfold alignPeriod
  split
  · rfl
  · dsimp only
    split
    · rfl
    · split
      · simp
      · split
        · split
          · rfl
          · split <;> simp
        · simp

end Sys2Proof.Machine
end

section
/-! PROOFS. A command of one position leaves every other position alone. -/

namespace Sys2Proof.Machine

/-- The fields that `SettledAt` at q reads lie in q's block. -/
theorem settledAt_flds_atPosition (q : PosIx) : ∀ f ∈ [R.srvSnuffLive q, R.srvSnuffLatch q, R.srvSnuffSeen q,
    R.iglStatSuspend q, R.iglStatDegraded q, R.spnStatLock q, R.spnSpdDegraded q], f.atPosition q := by
  simp only [List.forall_mem_cons, Fld.atPosition, Fld.key, R.srvSnuffLive, R.srvSnuffLatch, R.srvSnuffSeen,
    R.iglStatSuspend, R.iglStatDegraded, R.spnStatLock, R.spnSpdDegraded, posBase, List.not_mem_nil, false_implies,
    implies_true, and_true]
  omega

section
variable {p q : PosIx} {s t : State} (h : t.others p = s.others p) (hq : q ≠ p)
include h hq

theorem pos_of_others : t.pos[q] = s.pos[q] := congrArg Prod.fst (congrFun h ⟨q, hq⟩)

theorem packs_of_others : t.packs[q] = s.packs[q] := congrArg (·.2.1) (congrFun h ⟨q, hq⟩)

theorem rd_of_others {f : Fld} (hf : f.atPosition q) : t.rd f = s.rd f :=
  congrFun (congrArg (·.2.2) (congrFun h ⟨q, hq⟩)) ⟨f, hf⟩

theorem settledAt_of_others (hs : SettledAt s q) : SettledAt t q :=
  hs.congr (fun f hf => rd_of_others h hq (settledAt_flds_atPosition q f hf)) (pos_of_others h hq)
end

/-- Position q stands as before, with its pack and the register fields of its block. -/
def SameAt (q : PosIx) (s t : State) : Prop :=
  t.pos[q] = s.pos[q] ∧ t.packs[q] = s.packs[q] ∧ ∀ f : Fld, f.Proper → f.atPosition q → t.rd f = s.rd f

theorem SameAt.trans {q : PosIx} {s t u : State} (h : SameAt q s t) (k : SameAt q t u) : SameAt q s u := by
  obtain ⟨h1, h2, h3⟩ := h
  obtain ⟨k1, k2, k3⟩ := k
  exact ⟨k1.trans h1, k2.trans h2, fun f hf hq => (k3 f hf hq).trans (h3 f hf hq)⟩

theorem sameAt_of_others {p q : PosIx} {s t : State} (h : t.others p = s.others p) (hq : q ≠ p) : SameAt q s t :=
  ⟨pos_of_others h hq, packs_of_others h hq, fun _ _ hf => rd_of_others h hq hf⟩

@[simp] theorem latchLive_local (p : PosIx) (s : State) : Local p s (latchLive p s) := by
  simp [Local, latchLive]

@[simp] theorem shutGates_local (p : PosIx) (s : State) : Local p s (shutGates p s) := by
  simp [Local, shutGates]

@[simp] theorem askSnuff_local (p : PosIx) (s : State) : Local p s (askSnuff p s) := by
  simp [Local, askSnuff]

theorem settle_local (p : PosIx) (s : State) : Local p s (settle p s) := by
  simp [Local, settle, showSuspend]

theorem PosState.gates_zero {x : PosState} (h : x.gates = 0) : { x with gates := 0 } = x := by
  cases x
  cases h
  rfl

theorem settle_packs (p : PosIx) (s : State) : (settle p s).packs = s.packs := by
  simp

theorem latchLive_pos (p : PosIx) (s : State) : (latchLive p s).pos = s.pos := by
  simp

/-- At a settled position the end of a command finds the gates shut and the transmitter told. -/
theorem settle_pos_settled {p : PosIx} {s : State} (hs : SettledAt s p) : (settle p s).pos[p] = s.pos[p] := by
  have n4 : (R.srvSnuffLatch p).key ≠ (R.iglStatSuspend p).key :=
    (by decide : ∀ p : PosIx, (R.srvSnuffLatch p).key ≠ (R.iglStatSuspend p).key) p
  have hlatch := settle_rd_latch hs (R.srvSnuffLatch p) (by simp [latchFlds])
  rw [settle, showSuspend, State.rd_wr_ne _ _ n4, askSnuff_rd, shutGates_rd] at hlatch
  obtain ⟨-, hgate, htx, -⟩ := hs
  have hshut : (shutGates p (latchLive p s)).pos[p] = s.pos[p] := by
    unfold shutGates State.bit
    rw [hlatch]
    split
    · next hb => 
      refine (State.updPos_same _ p _).trans ?_
      rw [latchLive_pos]
      exact PosState.gates_zero (hgate (by simpa using hb))
    · exact congrArg (·[p]) (latchLive_pos p s)
  have hask : askSnuff p (shutGates p (latchLive p s)) = shutGates p (latchLive p s) := by
    unfold askSnuff
    refine if_pos ?_
    rw [hshut, htx]
    simp only [State.bit, shutGates_rd, hlatch]
  rw [settle, showSuspend, hask]
  exact hshut

/-- Where position q is settled, the end of a command at any position leaves q as it stands. -/
theorem settle_sameAt (a : PosIx) {q : PosIx} {s : State} (hs : SettledAt s q) : SameAt q s (settle a s) := by
  by_cases e : q = a
  · subst e
    refine ⟨settle_pos_settled hs, congrArg (·[q]) (settle_packs q s), fun f hf _ => ?_⟩
    by_cases hl : ∃ g ∈ latchFlds q, f.key = g.key
    · obtain ⟨g, hg, e⟩ := hl
      exact settle_rd_latch hs f (hf q g hg e ▸ hg)
    · exact settle_rd q s fun g hg e => hl ⟨g, hg, e⟩
  · exact sameAt_of_others (settle_local a s).2 e

theorem settleAll_sameAt {q : PosIx} {s : State} (hs : SettledAt s q) : SameAt q s (settleAll s) := by
  have k : ∀ (l : List PosIx) (t : State), SettledAt t q → SameAt q t (l.foldl (fun s a => settle a s) t) := by
    intro l
    induction l with
    | nil => exact fun t _ => ⟨rfl, rfl, fun _ _ _ => rfl⟩
    | cons a l ih =>
      intro t ht
      refine (settle_sameAt a ht).trans (ih _ ?_)
      by_cases e : q = a
      · subst e
        exact settle_settledAt q t
      · exact settle_settledAt_ne e t ht
  exact k allPos s hs

/-- A command that changes nothing of the other positions, run where they are settled. -/
theorem atPos_sameAt {p q : PosIx} {f : State → State} {s t : State} (hf : (f s).others p = s.others p) (hq : q ≠ p)
    (hs : Settled s) (h : atPos p f s = .next t) : SameAt q s t := by
  obtain rfl : settleAll (if posOffered s p then f s else s) = t := Host.Outcome.next.inj h
  split
  · exact (sameAt_of_others hf hq).trans (settleAll_sameAt (settledAt_of_others hf hq (hs q)))
  · exact settleAll_sameAt (hs q)


/-- What a command of one position does, where the part offers the position. -/
theorem exec_of_positionOf {c : Instr} {p : PosIx} (h : positionOf c = some p) :
    ∃ f : State → State, (∀ s, exec c s = atPos p f s) ∧ ∀ s, (f s).others p = s.others p := by
  cases c <;> simp only [positionOf, Option.some.injEq, reduceCtorEq] at h <;> subst h <;>
    exact ⟨_, fun _ => rfl, fun _ => by simp⟩

/-- Settles O59: what the command does is local to its position, and where a position is settled the end of the command
leaves it as it stands. -/
theorem positionIsolation : Obligations.PositionIsolation := by
  intro c p q s t hc hq hs h
  obtain ⟨f, he, hf⟩ := exec_of_positionOf hc
  exact atPos_sameAt (hf s) hq hs (he s ▸ h)

end Sys2Proof.Machine
end

section
/-! PROOFS. The operations that touch no memory, and the commands made of them. -/

namespace Sys2Proof.Machine

@[simp] theorem State.mem_tickUp (s : State) (f : Fld) (n : Nat) : (s.tickUp f n).mem = s.mem := (rfl)
@[simp] theorem State.mem_updHqi (s : State) (g : HqiState → HqiState) : (s.updHqi g).mem = s.mem := (rfl)
@[simp] theorem State.mem_updLamp (s : State) (g : LampState → LampState) : (s.updLamp g).mem = s.mem := (rfl)
@[simp] theorem State.mem_updMtl (s : State) (g : MtlState → MtlState) : (s.updMtl g).mem = s.mem := (rfl)
@[simp] theorem State.mem_updCmp (s : State) (g : CmpState → CmpState) : (s.updCmp g).mem = s.mem := (rfl)
@[simp] theorem State.mem_updPerf (s : State) (g : PerfState → PerfState) : (s.updPerf g).mem = s.mem := (rfl)

@[simp] theorem noteCe_mem (who a : Nat) (s : State) : (noteCe who a s).mem = s.mem := by
  simp [noteCe]

@[simp] theorem noteUe_mem (who a : Nat) (unwr : Bool) (reason : Nat) (s : State) :
    (noteUe who a unwr reason s).mem = s.mem := by
  simp [noteUe]

@[simp] theorem wordsMet_mem (who a n : Nat) (s : State) : (wordsMet who a n s).2.mem = s.mem := by
  unfold wordsMet
  split <;> simp

@[simp] theorem haltNote_mem (who : Requester) (s : State) : (haltNote who s).mem = s.mem := by
  unfold haltNote
  split <;> simp

@[simp] theorem outside_mem (who : Requester) (a reason : Nat) (s : State) : (outside who a reason s).mem = s.mem := by
  simp [outside]

@[simp] theorem updCq_mem (f : FnIx) (q : Nat) (g : CQ → CQ) (s : State) : (updCq f q g s).mem = s.mem := by
  simp [updCq]

@[simp] theorem showFn_mem (f : FnIx) (s : State) : (showFn f s).mem = s.mem := by
  simp [showFn]

@[simp] theorem showCq_mem (s : State) : (showCq s).mem = s.mem := by
  unfold showCq
  split <;> simp

@[simp] theorem showHost_mem (s : State) : (showHost s).mem = s.mem := by
  simp [showHost]

@[simp] theorem showHqiEvt_mem (s : State) : (showHqiEvt s).mem = s.mem := by
  simp only [showHqiEvt]
  split <;> simp

@[simp] theorem signal_mem (f : FnIx) (v : Nat) (s : State) : (signal f v s).mem = s.mem := by
  simp [signal]

@[simp] theorem jappend_mem (p : PosIx) (b : JBody) (s : State) : (jappend p b s).mem = s.mem := by
  simp [jappend]

@[simp] theorem deadSlot_mem (p : PosIx) (layer f : Nat) (s : State) : (deadSlot p layer f s).mem = s.mem := by
  simp [deadSlot]

@[simp] theorem uncastAdd_mem (p : PosIx) (vaddr len cause reason : Nat) (s : State) :
    (uncastAdd p vaddr len cause reason s).mem = s.mem := by
  simp [uncastAdd]

@[simp] theorem castAppend_mem (p : PosIx) (m : Nat) (b : JBody) (s : State) : (castAppend p m b s).mem = s.mem := by
  simp [castAppend]

@[simp] theorem castFail_mem (p : PosIx) (m reason : Nat) (s : State) : (castFail p m reason s).mem = s.mem := by
  unfold castFail
  split <;> simp

@[simp] theorem repour_mem (p : PosIx) (n : Nat) (s : State) : (repour p n s).mem = s.mem := by
  simp [repour]

@[simp] theorem rankFail_mem (p : PosIx) (n reason slot : Nat) (s : State) : (rankFail p n reason slot s).mem = s.mem := by
  unfold rankFail
  split <;> simp

@[simp] theorem abandonRank_mem (p : PosIx) (n layer slot src : Nat) (s : State) :
    (abandonRank p n layer slot src s).mem = s.mem := by
  unfold abandonRank
  split <;> simp

@[simp] theorem nearlyFull_mem (p : PosIx) (s : State) : (nearlyFull p s).mem = s.mem := by
  simp [nearlyFull]

@[simp] theorem tearLedger_mem (p : PosIx) (s : State) : (tearLedger p s).mem = s.mem := by
  unfold tearLedger
  split <;> simp

@[simp] theorem takeMode_mem (e : EngIx) (s : State) : (takeMode e s).mem = s.mem := by
  simp [takeMode]

@[simp] theorem abandonFrame_mem (e : EngIx) (s : State) : (abandonFrame e s).mem = s.mem := by
  unfold abandonFrame
  split <;> simp

@[simp] theorem endPour_mem (e : EngIx) (s : State) : (endPour e s).mem = s.mem := by
  simp only [endPour]
  split
  · simp
  · split <;> simp

@[simp] theorem dropGates_mem (p : PosIx) (s : State) : (dropGates p s).mem = s.mem := by
  simp [dropGates]

@[simp] theorem raiseSnuff_mem (p : PosIx) (b : Nat) (s : State) : (raiseSnuff p b s).mem = s.mem := by
  simp [raiseSnuff]

@[simp] theorem pulseSnuff_mem (p : PosIx) (b : Nat) (s : State) : (pulseSnuff p b s).mem = s.mem := by
  simp [pulseSnuff]

@[simp] theorem clkReason_mem (code pos addr detail : Nat) (s : State) : (clkReason code pos addr detail s).mem = s.mem := by
  simp [clkReason]

@[simp] theorem setLines_mem (g : List (Nat × CLine) → List (Nat × CLine)) (s : State) : (setLines g s).mem = s.mem := by
  simp [setLines]

theorem cchRange_mem (op : Nat) (act : Nat → Nat → State → State) (all : Bool) (s : State)
    (h : ∀ a n t, (act a n t).mem = t.mem) : (cchRange op act all s).mem = s.mem := by
  simp [cchRange, h]

@[simp] theorem cchInvAct_mem (a n : Nat) (s : State) : (cchInvAct a n s).mem = s.mem := by
  simp [cchInvAct]

@[simp] theorem cchCounterClear_mem (s : State) : (cchCounterClear s).mem = s.mem := by
  simp [cchCounterClear]

@[simp] theorem enterFaultState_mem (s : State) : (enterFaultState s).mem = s.mem := by
  simp [enterFaultState]

@[simp] theorem failDevice_mem (d : DevIx) (s : State) : (failDevice d s).mem = s.mem := by
  simp [failDevice]

@[simp] theorem bufEnable_mem (ok0 ok1 : Bool) (s : State) : (bufEnable ok0 ok1 s).mem = s.mem := by
  delta bufEnable State.set1
  split
  · rfl
  · simp

@[simp] theorem bufInitDone_mem (s : State) : (bufInitDone s).mem = s.mem := by
  simp [bufInitDone]

@[simp] theorem deviceOffline_mem (d : DevIx) (s : State) : (deviceOffline d s).mem = s.mem := by
  simp [deviceOffline]

@[simp] theorem offlineReached_mem (d : DevIx) (s : State) : (offlineReached d s).mem = s.mem := by
  simp [offlineReached]

@[simp] theorem pprStart_mem (d : DevIx) (hard : Bool) (loc : Nat) (s : State) : (pprStart d hard loc s).mem = s.mem := by
  simp [pprStart]

@[simp] theorem pprDone_mem (ok : Bool) (s : State) : (pprDone ok s).mem = s.mem := by
  simp [pprDone]

theorem bufRange_mem (op : Nat) (act : Nat → State → State) (s : State) (h : ∀ o t, (act o t).mem = t.mem) :
    (bufRange op act s).mem = s.mem := by
  simp [bufRange, h]

@[simp] theorem scrubLine_mem (o : Nat) (s : State) : (scrubLine o s).mem = s.mem := by
  simp [scrubLine]

@[simp] theorem endRetrain_mem (d : DevIx) (s : State) : (endRetrain d s).mem = s.mem := by
  simp [endRetrain]

@[simp] theorem setIf_mem (b : Bool) (f : Fld) (s : State) : (setIf b f s).mem = s.mem := by
  simp [setIf]

@[simp] theorem servoFail_mem (p : PosIx) (s : State) : (servoFail p s).mem = s.mem := by
  simp [servoFail]

@[simp] theorem focusLost_mem (p : PosIx) (f : Fin 8) (s : State) : (focusLost p f s).mem = s.mem := by
  simp [focusLost]

@[simp] theorem linkTrain_mem (p : PosIx) (s : State) : (linkTrain p s).mem = s.mem := by
  simp [linkTrain]

@[simp] theorem servoLinkFault_mem (p : PosIx) (s : State) : (servoLinkFault p s).mem = s.mem := by
  simp [servoLinkFault]

@[simp] theorem snuffBlock_mem (p : PosIx) (source mask : Nat) (s : State) : (snuffBlock p source mask s).mem = s.mem := by
  simp [snuffBlock]

@[simp] theorem pf8Wick_mem (p : PosIx) (i : Nat) (good first last : Bool) (symcnt pscale : Nat) (codes : List Nat) (s : State) :
    (pf8Wick p i good first last symcnt pscale codes s).mem = s.mem := by
  simp [pf8Wick]

@[simp] theorem timing_mem (e : EngIx) (ledger : Bool) (k : Nat) (s : State) : (timing e ledger k s).mem = s.mem := by
  simp [timing]

@[simp] theorem trackGain_mem (e : EngIx) (ledger : Bool) (k : Nat) (s : State) : (trackGain e ledger k s).mem = s.mem := by
  simp [trackGain]

@[simp] theorem adapt_mem (e : EngIx) (ledger : Bool) (k : Nat) (s : State) : (adapt e ledger k s).mem = s.mem := by
  simp [adapt]

@[simp] theorem catchUp_mem (e : EngIx) (ledger : Bool) (n : Nat) (s : State) : (catchUp e ledger n s).mem = s.mem := by
  induction n generalizing s with
  | zero => simp [catchUp]
  | succ n ih => simp [catchUp, ih]

@[simp] theorem correct_mem (e : EngIx) (k : Nat) (s : State) : (correct e k s).mem = s.mem := by
  simp [correct]

@[simp] theorem stepSym_mem (e : EngIx) (ledger : Bool) (k : Nat) (s : State) : (stepSym e ledger k s).mem = s.mem := by
  simp [stepSym]

@[simp] theorem scanDefects_mem (e : EngIx) (lower n : Nat) (s : State) : (scanDefects e lower n s).mem = s.mem := by
  induction n generalizing s with
  | zero => simp [scanDefects]
  | succ n ih => simp [scanDefects, ih]

@[simp] theorem advance_mem (e : EngIx) (ledger all : Bool) (n : Nat) (s : State) :
    (advance e ledger all n s).mem = s.mem := by
  induction n generalizing s with
  | zero => simp [advance]
  | succ n ih => simp [advance, ih]

@[simp] theorem showPhase_mem (e : EngIx) (s : State) : (showPhase e s).mem = s.mem := by
  simp [showPhase]

theorem engWrite_mem (e : EngIx) (f : State → State) (s : State) (h : (f s).mem = s.mem) :
    (engWrite e f s).mem = s.mem := by
  simp [engWrite, h]

@[simp] theorem engCreq_mem (p : PosIx) (e : EngIx) (addr data : Nat) (s : State) : (engCreq p e addr data s).mem = s.mem := by
  simp [engCreq]

@[simp] theorem zonePreset_mem (p : PosIx) (f : Fin 8) (e : EngIx) (z : Nat) (s : State) :
    (zonePreset p f e z s).mem = s.mem := by
  simp [zonePreset]

@[simp] theorem wickUpload_mem (p : PosIx) (f : Fin 8) (e : EngIx) (wick : Nat) (s : State) :
    (wickUpload p f e wick s).mem = s.mem := by
  simp [wickUpload]

@[simp] theorem rankArmed_mem (p : PosIx) (n : Nat) (f : Fin 8) (s : State) : (rankArmed p n f s).mem = s.mem := by
  simp [rankArmed]

@[simp] theorem castStart_mem (e : EngIx) (s : State) : (castStart e s).mem = s.mem := by
  unfold castStart
  split
  · rfl
  · extract_lets a inSram
    have hread : (if inSram then wordsMet (reqCode (.beam e)) a 128 s
        else (false, outside (.beam e) a Config.reachReason.toNat s)).2.mem = s.mem := by
      split <;> simp
    generalize (if inSram then wordsMet (reqCode (.beam e)) a 128 s
        else (false, outside (.beam e) a Config.reachReason.toNat s)) = x at hread ⊢
    obtain ⟨ok, t⟩ := x
    dsimp only at hread ⊢
    split
    · simp [hread]
    · split <;> simp [hread]

@[simp] theorem slotMissed_mem (p : PosIx) (n : Nat) (f : Fin 8) (s : State) : (slotMissed p n f s).mem = s.mem := by
  simp [slotMissed]

@[simp] theorem rankOpens_mem (p : PosIx) (d : List Byte) (s : State) : (rankOpens p d s).mem = s.mem := by
  simp [rankOpens]

@[simp] theorem injectionAbort_mem (p : PosIx) (s : State) : (injectionAbort p s).mem = s.mem := by
  simp [injectionAbort]

@[simp] theorem pscaleStep_mem (e : EngIx) (k : Nat) (s : State) : (pscaleStep e k s).mem = s.mem := by
  simp [pscaleStep]

@[simp] theorem gateNotes_mem (p : PosIx) (f : Fin 8) (d : List Byte) (s : State) : (gateNotes p f d s).mem = s.mem := by
  simp [gateNotes]

@[simp] theorem openGate_mem (e : EngIx) (p : PosIx) (f : Fin 8) (symcnt : Nat) (s : State) :
    (openGate e p f symcnt s).mem = s.mem := by
  simp [openGate]

@[simp] theorem pourSlotStart_mem (e : EngIx) (at_ : SlotStart) (s : State) : (pourSlotStart e at_ s).mem = s.mem := by
  simp only [pourSlotStart]
  split <;> simp

@[simp] theorem sendWick_mem (e : EngIx) (p : PosIx) (w : WickPacket) (s : State) : (sendWick e p w s).mem = s.mem := by
  simp only [sendWick]
  split <;> simp

@[simp] theorem wickPacket_mem (p : PosIx) (w : WickPacket) (s : State) : (wickPacket p w s).mem = s.mem := by
  simp [wickPacket]

@[simp] theorem abandoned_mem (e : EngIx) (p : PosIx) (s : State) : (abandoned e p s).mem = s.mem := by
  simp [abandoned]

@[simp] theorem castAbort_mem (e : EngIx) (s : State) : (castAbort e s).mem = s.mem := by
  unfold castAbort
  split <;> simp

theorem onPoured_mem (e : EngIx) (f : State → State) (s : State) (h : ∀ t, (f t).mem = t.mem) :
    (onPoured e f s).mem = s.mem := by
  unfold onPoured
  dsimp only
  split
  · split <;> simp [h]
  · rfl

@[simp] theorem ledgerPour_mem (p : PosIx) (s : State) : (ledgerPour p s).mem = s.mem := by
  simp [ledgerPour]

@[simp] theorem recVerified_mem (p : PosIx) (r : LRec) (s : State) : (recVerified p r s).mem = s.mem := by
  unfold recVerified
  split <;> simp

@[simp] theorem ledgerVerified_mem (p : PosIx) (s : State) : (ledgerVerified p s).mem = s.mem := by
  unfold ledgerVerified
  split <;> simp

@[simp] theorem random_mem (site n : Nat) (s : State) : (random site n s).2.mem = s.mem := by
  simp [random]

@[simp] theorem keySet_mem (p : PosIx) (k : Option (List Byte)) (s : State) : (keySet p k s).mem = s.mem := by
  unfold keySet
  split <;> simp

@[simp] theorem newKey_mem (n : Nat) (s : State) : (newKey n s).2.mem = s.mem := by
  induction n generalizing s with
  | zero => simp [newKey]
  | succ n ih => simp [newKey, ih, apply_ite Prod.snd]

@[simp] theorem keyNew_mem (p : PosIx) (id : Nat) (s : State) : (keyNew p id s).2.mem = s.mem := by
  simp [keyNew, apply_ite Prod.snd]

@[simp] theorem keyUnwrapOp_mem (p : PosIx) (body : List Byte) (s : State) : (keyUnwrapOp p body s).2.mem = s.mem := by
  unfold keyUnwrapOp
  dsimp only
  split
  · rfl
  · split
    · split <;> simp
    · split
      · rfl
      · split
        · rfl
        · split <;> simp

@[simp] theorem endStripes_mem (p : PosIx) (s : State) : (endStripes p s).mem = s.mem := by
  simp [endStripes]

theorem mailGo_mem (op : Nat) (run : List Byte → State → MailRes × State) (s : State) (h : ∀ d t, (run d t).2.mem = t.mem) :
    (mailGo op run s).mem = s.mem := by
  simp [mailGo, h]

@[simp] theorem mailKeyNew_mem (d : List Byte) (s : State) : (mailKeyNew d s).2.mem = s.mem := by
  have h := keyNew_mem (mailPos d) (leAt d 8 8) s
  unfold mailKeyNew
  split <;> simp_all

@[simp] theorem mailUnwrap_mem (d : List Byte) (s : State) : (mailUnwrap d s).2.mem = s.mem := by
  have h := keyUnwrapOp_mem (mailPos d) (slice d 8 96) s
  unfold mailUnwrap
  split <;> simp_all

@[simp] theorem mailDrop_mem (d : List Byte) (s : State) : (mailDrop d s).2.mem = s.mem := by
  simp [mailDrop]

@[simp] theorem mailDestroy_mem (d : List Byte) (s : State) : (mailDestroy d s).2.mem = s.mem := by
  simp [mailDestroy]

@[simp] theorem mailEscrow_mem (d : List Byte) (s : State) : (mailEscrow d s).2.mem = s.mem := by
  simp [mailEscrow, apply_ite Prod.snd]

@[simp] theorem mailChal_mem (d : List Byte) (s : State) : (mailChal d s).2.mem = s.mem := by
  simp [mailChal, apply_ite Prod.snd]

@[simp] theorem mailUnlock_mem (d : List Byte) (s : State) : (mailUnlock d s).2.mem = s.mem := by
  unfold mailUnlock
  dsimp only
  split
  · rfl
  · simp [apply_ite Prod.snd]

@[simp] theorem mailTrng_mem (d : List Byte) (s : State) : (mailTrng d s).2.mem = s.mem := by
  simp [mailTrng, apply_ite Prod.snd]

@[simp] theorem spdmRequest_mem (msg : List Byte) (s : State) : (spdmRequest msg s).mem = s.mem := by
  simp [spdmRequest]

@[simp] theorem nonceExpiry_mem (s : State) : (nonceExpiry s).mem = s.mem := by
  simp [nonceExpiry]

@[simp] theorem functionReady_mem (f : FnIx) (s : State) : (functionReady f s).mem = s.mem := by
  simp [functionReady]

@[simp] theorem showCmp_mem (s : State) : (showCmp s).mem = s.mem := by
  simp [showCmp]

@[simp] theorem interruptTimer_mem (f : FnIx) (q : Nat) (s : State) : (interruptTimer f q s).mem = s.mem := by
  unfold interruptTimer
  split <;> simp

@[simp] theorem flushLedger_mem (p : PosIx) (s : State) : (flushLedger p s).mem = s.mem := by
  simp [flushLedger]

@[simp] theorem setPower_mem (p : PosIx) (v : Nat) (s : State) : (setPower p v s).mem = s.mem := by
  simp [setPower]

@[simp] theorem streamingIdle_mem (p : PosIx) (s : State) : (streamingIdle p s).mem = s.mem := by
  simp [streamingIdle]

@[simp] theorem packSeated_mem (p : PosIx) (s : State) : (packSeated p s).mem = s.mem := by
  simp [packSeated]

@[simp] theorem shockFall_mem (p : PosIx) (s : State) : (shockFall p s).mem = s.mem := by
  simp [shockFall]

theorem eachPos_mem (f : PosIx → State → State) (s : State) (h : ∀ p t, (f p t).mem = t.mem) :
    (eachPos f s).mem = s.mem := s.forEach_mem _ f h

@[simp] theorem supplyOut_mem (n : Fin 7) (s : State) : (supplyOut n s).mem = s.mem := by
  simp [supplyOut, eachPos_mem]

@[simp] theorem supplyIn_mem (n : Fin 7) (s : State) : (supplyIn n s).mem = s.mem := by
  simp [supplyIn, eachPos_mem]

@[simp] theorem ppsCorrect_mem (r : Nat) (s : State) : (ppsCorrect r s).mem = s.mem := by
  simp [ppsCorrect]

@[simp] theorem trimUpdate_mem (s : State) : (trimUpdate s).mem = s.mem := by
  simp [trimUpdate]

@[simp] theorem ppsAccept_mem (now r at_ : Nat) (s : State) : (ppsAccept now r at_ s).mem = s.mem := by
  unfold ppsAccept
  dsimp only
  split
  · split <;> simp
  · simp

@[simp] theorem ppsEdge_mem (dt : Nat) (s : State) : (ppsEdge dt s).mem = s.mem := by
  simp [ppsEdge]

@[simp] theorem ppsHoldover_mem (s : State) : (ppsHoldover s).mem = s.mem := by
  simp [ppsHoldover]

@[simp] theorem timeSetsec_mem (sec : Nat) (s : State) : (timeSetsec sec s).mem = s.mem := by
  simp [timeSetsec]

@[simp] theorem xtalLoss_mem (s : State) : (xtalLoss s).mem = s.mem := by
  simp [xtalLoss]

@[simp] theorem x32Loss_mem (s : State) : (x32Loss s).mem = s.mem := by
  simp [x32Loss]

@[simp] theorem pllSnuff_mem (n : Nat) (s : State) : (pllSnuff n s).mem = s.mem := by
  simp [pllSnuff, eachPos_mem]

@[simp] theorem pllLockLoss_mem (n : Nat) (s : State) : (pllLockLoss n s).mem = s.mem := by
  simp [pllLockLoss]

@[simp] theorem pllLock_mem (n : Nat) (s : State) : (pllLock n s).mem = s.mem := by
  simp [pllLock, eachPos_mem]

@[simp] theorem showClk_mem (s : State) : (showClk s).mem = s.mem := by
  simp [showClk]

@[simp] theorem enginePower_mem (e : EngIx) (on : Bool) (s : State) : (enginePower e on s).mem = s.mem := by
  simp [enginePower]

@[simp] theorem enginePowerAll_mem (value : Nat) (s : State) : (enginePowerAll value s).mem = s.mem := by
  simp [enginePowerAll]

@[simp] theorem engineReady_mem (e : EngIx) (s : State) : (engineReady e s).mem = s.mem := by
  simp [engineReady]

@[simp] theorem zenWrite_mem (z : CmpIx) (on : Bool) (s : State) : (zenWrite z on s).mem = s.mem := by
  simp [zenWrite]

@[simp] theorem zenWriteAll_mem (value : Nat) (s : State) : (zenWriteAll value s).mem = s.mem := by
  simp [zenWriteAll]

@[simp] theorem safeReleaseLaser_mem (s : State) : (safeReleaseLaser s).mem = s.mem := by
  simp [safeReleaseLaser]

@[simp] theorem selfRefreshEntry_mem (s : State) : (selfRefreshEntry s).mem = s.mem := by
  simp [selfRefreshEntry]

@[simp] theorem coreRelease_mem (value : Nat) (s : State) : (coreRelease value s).mem = s.mem := by
  simp [coreRelease]

@[simp] theorem thermTj_mem (t : Int) (s : State) : (thermTj t s).mem = s.mem := by
  simp [thermTj]

@[simp] theorem showMode_mem (s : State) : (showMode s).mem = s.mem := by
  simp [showMode]

@[simp] theorem jtagMode_mem (test extest : Bool) (s : State) : (jtagMode test extest s).mem = s.mem := by
  simp [jtagMode]

@[simp] theorem trstAssert_mem (s : State) : (trstAssert s).mem = s.mem := by
  simp [trstAssert]

@[simp] theorem freeCtx_mem (n : Nat) (s : State) : (freeCtx n s).mem = s.mem := by
  simp [freeCtx]

@[simp] theorem contextExpiry_mem (n : Nat) (s : State) : (contextExpiry n s).mem = s.mem := by
  unfold contextExpiry
  split <;> simp

@[simp] theorem jobSubmit_mem (count : Nat) (s : State) : (jobSubmit count s).mem = s.mem := by
  simp [jobSubmit]

@[simp] theorem raisePins_mem (p : PosIx) (s : State) : (raisePins p s).mem = s.mem := by
  simp [raisePins]

@[simp] theorem perstRelease_mem (s : State) : (perstRelease s).mem = s.mem := by
  simp [perstRelease]

@[simp] theorem showBoot_mem (s : State) : (showBoot s).mem = s.mem := by
  simp [showBoot]

@[simp] theorem bootOk_mem (fuses : Nat) (s : State) : (bootOk fuses s).mem = s.mem := by
  simp [bootOk]

@[simp] theorem watchdogEnable_mem (period : Nat) (s : State) : (watchdogEnable period s).mem = s.mem := by
  simp [watchdogEnable]

@[simp] theorem watchdogKick_mem (s : State) : (watchdogKick s).mem = s.mem := by
  simp [watchdogKick]

@[simp] theorem calLookup_mem (temp : Nat) (s : State) : (calLookup temp s).mem = s.mem := by
  simp [calLookup]

@[simp] theorem calStore_mem (temp : Nat) (s : State) : (calStore temp s).mem = s.mem := by
  simp [calStore]

@[simp] theorem injectionStart_mem (p : PosIx) (l amp : Nat) (s : State) : (injectionStart p l amp s).mem = s.mem := by
  simp [injectionStart]

@[simp] theorem readPost_mem (e : EngIx) (r : Nat) (s : State) : (readPost e r s).mem = s.mem := by
  simp [readPost]

@[simp] theorem readAbort_mem (e : EngIx) (s : State) : (readAbort e s).mem = s.mem := by
  simp [readAbort]

@[simp] theorem takeSamples_mem (p : PosIx) (e : EngIx) (x : SamplePacket) (s : State) : (takeSamples p e x s).mem = s.mem := by
  simp [takeSamples]

@[simp] theorem takePacket_mem (p : PosIx) (e : EngIx) (x : SamplePacket) (s : State) :
    (takePacket p e x s).mem = s.mem := by
  simp [takePacket, onPoured_mem]

@[simp] theorem takeWord_mem (p : PosIx) (f : Fin 8) (e : EngIx) (n : Nat) (r : List Nat) (s : State) :
    (takeWord p f e n r s).mem = s.mem := by
  simp [takeWord]

@[simp] theorem takeWobble_mem (p : PosIx) (f : Fin 8) (e : EngIx) (sym v : Nat) (s : State) :
    (takeWobble p f e sym v s).mem = s.mem := by
  simp [takeWobble]

@[simp] theorem takeWobbles_mem (p : PosIx) (e : EngIx) (x : SamplePacket) (s : State) : (takeWobbles p e x s).mem = s.mem := by
  simp [takeWobbles]

@[simp] theorem samplePacket_mem (p : PosIx) (x : SamplePacket) (s : State) : (samplePacket p x s).mem = s.mem := by
  simp [samplePacket]

@[simp] theorem marginClear_mem (e : EngIx) (s : State) : (marginClear e s).mem = s.mem :=
  s.foldl_mem _ _ (by simp)

@[simp] theorem patrolRead_mem (p : PosIx) (n : Nat) (s : State) : (patrolRead p n s).mem = s.mem := by
  unfold patrolRead
  dsimp only
  split
  · rfl
  · split
    · simp
    · split <;> simp

@[simp] theorem layerAccess_mem (p : PosIx) (layer : Nat) (cards : List (List (List Byte))) (s : State) :
    (layerAccess p layer cards s).mem = s.mem := by
  simp [layerAccess]

@[simp] theorem blockReset_mem (position : Bool) (index : Nat) (s : State) : (blockReset position index s).mem = s.mem := by
  simp only [blockReset]
  split
  · simp
  · split <;> simp

@[simp] theorem resetKeeping_mem (fs : List Fld) (lo hi : Nat) (s : State) : (resetKeeping fs lo hi s).mem = s.mem := by
  simp [resetKeeping]

@[simp] theorem freshChannel_mem (e : EngIx) (s : State) : (freshChannel e s).mem = s.mem := by
  simp [freshChannel]

@[simp] theorem engineReset_mem (e : EngIx) (s : State) : (engineReset e s).mem = s.mem := by
  simp [engineReset]

@[simp] theorem positionReset_mem (p : PosIx) (s : State) : (positionReset p s).mem = s.mem := by
  simp [positionReset]

@[simp] theorem resetBlock_mem (b : BlockId) (result : Nat) (s : State) : (resetBlock b result s).mem = s.mem := by
  unfold resetBlock
  split <;> simp

@[simp] theorem flushRequests_mem (l : List Requester) (s : State) : (flushRequests l s).mem = s.mem := by
  simp [flushRequests]

@[simp] theorem blockResetIdle_mem (flushed : List Requester) (s : State) : (blockResetIdle flushed s).mem = s.mem := by
  unfold blockResetIdle
  split <;> simp

@[simp] theorem forceVerdict_mem (e : EngIx) (s : State) : (forceVerdict e s).mem = s.mem := by
  simp [forceVerdict]

@[simp] theorem dropVerdict_mem (p : PosIx) (n : Nat) (s : State) : (dropVerdict p n s).mem = s.mem := by
  unfold dropVerdict
  split <;> simp

@[simp] theorem forceOut_mem (b : BlockId) (s : State) : (forceOut b s).mem = s.mem := by
  unfold forceOut
  split
  · split <;> simp
  · simp

@[simp] theorem blockResetTimeout_mem (flushed : List Requester) (s : State) : (blockResetTimeout flushed s).mem = s.mem := by
  simp only [blockResetTimeout]
  split
  · simp
  · split <;> simp

@[simp] theorem blockRestartDone_mem (s : State) : (blockRestartDone s).mem = s.mem := by
  unfold blockRestartDone
  split <;> simp

@[simp] theorem showCounters_mem (c : Fin 6) (s : State) : (showCounters c s).mem = s.mem := by
  simp [showCounters]

@[simp] theorem perfSnapshot_mem (counts : List (List Nat)) (s : State) : (perfSnapshot counts s).mem = s.mem := by
  simp [perfSnapshot]

@[simp] theorem perfClear_mem (s : State) : (perfClear s).mem = s.mem := by
  simp [perfClear]

@[simp] theorem updSample_mem (c : CoreIx) (g : SampleState → SampleState) (s : State) : (updSample c g s).mem = s.mem := by
  simp [updSample]

@[simp] theorem sampleReload_mem (c : CoreIx) (s : State) : (sampleReload c s).mem = s.mem := by
  simp [sampleReload]

@[simp] theorem sampleTrigger_mem (c : CoreIx) (events : Nat) (s : State) : (sampleTrigger c events s).mem = s.mem := by
  unfold sampleTrigger
  dsimp only
  split
  · rfl
  · split
    · simp
    · split <;> simp

@[simp] theorem popEvents_mem (h : Home) (a : Nat) (s : State) : (popEvents h a s).mem = s.mem := by
  unfold popEvents
  split <;> simp

@[simp] theorem mtlRead_mem (a : Nat) (s : State) : (mtlRead a s).mem = s.mem := by
  simp [mtlRead]

@[simp] theorem regAfterRead_mem (h : Home) (r : Reg) (s : State) : (regAfterRead h r s).mem = s.mem := by
  simp [regAfterRead]

@[simp] theorem unpowered_mem (who : Requester) (a : Nat) (s : State) : (unpowered who a s).mem = s.mem := by
  simp [unpowered]

@[simp] theorem regRead_mem (who : Requester) (h : Home) (a size : Nat) (s : State) :
    (regRead who h a size s).mem = s.mem := by
  unfold regRead
  split
  · simp
  · split
    · simp
    · extract_lets t
      have ht : t.mem = s.mem := by
        unfold t
        split <;> simp
      split
      · simp [ht]
      · split <;> simp [ht]

@[simp] theorem sizeError_mem (f : FnIx) (r : Resp) (s : State) : (sizeError f r s).mem = s.mem := by
  simp [sizeError]

@[simp] theorem hostRead_mem (f : FnIx) (o size : Nat) (s : State) : (hostRead f o size s).mem = s.mem := by
  unfold hostRead
  extract_lets a l
  split
  · split <;> simp
  · split <;> simp

@[simp] theorem spaceRead_mem (who : Requester) (a size : Nat) (s : State) : (spaceRead who a size s).mem = s.mem := by
  simp only [spaceRead]
  split
  · simp
  · split <;> simp

theorem regAccess_mem (who : Requester) (a : Nat) (acc : Access) (go : State → State) (s : State)
    (h : (go s).mem = s.mem) : (regAccess who a acc go s).mem = s.mem := by
  unfold regAccess
  split <;> simp [h]

@[simp] theorem settleAll_mem (s : State) : (settleAll s).mem = s.mem :=
  State.forEach_mem s _ _ fun p t => (settle_local p t).1

/-- A command that `leavesMemory` lists has an effect on the state, and the memories are not part of it. -/
theorem exec_of_leavesMemory {c : Instr} (h : leavesMemory c = true) (s : State) :
    ∃ u, exec c s = done u ∧ u.mem = s.mem := by
  delta leavesMemory at h
  cases c <;> simp only [Bool.false_eq_true] at h <;>
    exact ⟨_, rfl, by simp [engWrite_mem, mailGo_mem, cchRange_mem, bufRange_mem, regAccess_mem]⟩

/-- Settles O58: each listed command ends a change of the state that leaves the memories alone. -/
theorem memoryKept : Obligations.MemoryKept := by
  intro c s t hc h
  obtain ⟨u, hu, hm⟩ := exec_of_leavesMemory hc s
  obtain rfl : settleAll u = t := Host.Outcome.next.inj (hu.symm.trans h)
  have hm : (settleAll u).mem = s.mem := (settleAll_mem u).trans hm
  simpa only [State.mem, Prod.mk.injEq] using hm

end Sys2Proof.Machine
end

section
/-! PROOFS. The state right after power-on reset. -/

namespace Sys2Proof.Machine

/-- Right after a power-on reset every field but those that report the reset reads its reset value. -/
theorem State.reset_rd {f : Fld} (hpor : f.key ≠ R.lampCausePor.key) (hx32 : f.key ≠ R.clkSrcX32.key) :
    State.reset.rd f = f.rst :=
  calc State.reset.rd f
    _ = RegFile.rd (RegFile.wr (RegFile.wr [] R.lampCausePor 1) R.clkSrcX32 1) f := rfl
    _ = RegFile.rd (RegFile.wr [] R.lampCausePor 1) f := RegFile.rd_wr_ne _ _ hx32
    _ = RegFile.rd [] f := RegFile.rd_wr_ne _ _ hpor
    _ = f.rst := rfl

/-- The fields of a position that name its state show it idle and snuffed. -/
theorem State.reset_pos (p : PosIx) :
    State.reset.rd (R.srvSnuffLatch p) = 1 ∧ State.reset.rd (R.spnStatState p) = 0 ∧
    State.reset.rd (R.carStatState p) = 0 ∧ State.reset.rd (R.posCfgEn p) = 0 := by
  refine ⟨State.reset_rd ?_ ?_, State.reset_rd ?_ ?_, State.reset_rd ?_ ?_, State.reset_rd ?_ ?_⟩ <;> decide +revert

/-- No drive stands at a position beyond its reset state, and no pack. -/
theorem State.reset_vectors (p : PosIx) :
    State.reset.pos[p].gates = 0 ∧ State.reset.packs[p].status = .none := by
  decide +revert

/-- Settles O54: every field reads its reset value by `State.reset_rd`, and what is no register is empty in the literal. -/
theorem resetState : Obligations.ResetState := by
  unfold Obligations.ResetState
  refine ⟨fun f => State.reset_rd, by decide, fun p => ?_, ?_, ?_, ?_, ?_, fun f => ?_, rfl, fun a => ⟨rfl, rfl, rfl⟩, rfl⟩
  · obtain ⟨hlatch, hspn, hcar, hen⟩ := State.reset_pos p
    obtain ⟨hgates, hpack⟩ := State.reset_vectors p
    exact ⟨hlatch, hspn, hcar, hen, hgates, hpack⟩
  · exact State.reset_rd (by decide) (by decide)
  · exact State.reset_rd (by decide) (by decide)
  · exact State.reset_rd (by decide) (by decide)
  · exact State.reset_rd (by decide) (by decide)
  · exact State.reset_rd (by decide +revert) (by decide +revert)

end Sys2Proof.Machine
end

section
/-! PROOFS. Register space: the register that an access names, and what a read leaves of it. -/

namespace Sys2Proof.Machine

theorem State.rd_set_resp (s : State) (x : Resp) (f : Fld) : ({ s with resp := x } : State).rd f = s.rd f := (rfl)

/-- A field that resets to zero and reads zero still does once a zero has been written to any field. -/
theorem State.rd_wr_zero {s : State} {f : Fld} (g : Fld) (hrst : f.rst = 0) (h : s.rd f = 0) : (s.wr g 0).rd f = 0 := by
  by_cases e : f.key = g.key
  · simp only [State.rd, State.wr, RegFile.rd, RegFile.wr, e]
    split
    · simp [Assoc.get_del_same, hrst]
    · simp [Assoc.get_put_same]
  · exact (s.rd_wr_ne 0 e).trans h

/-- Every field that resets to zero and reads zero in s reads zero in t. -/
def KeepsZeros (s t : State) : Prop := ∀ f : Fld, f.rst = 0 → s.rd f = 0 → t.rd f = 0

theorem KeepsZeros.refl (s : State) : KeepsZeros s s := fun _ _ h => h

theorem KeepsZeros.of_rd {s t : State} (h : ∀ f, t.rd f = s.rd f) : KeepsZeros s t := fun f _ hz => (h f).trans hz

theorem KeepsZeros.wr {s t : State} (h : KeepsZeros s t) (g : Fld) : KeepsZeros s (t.wr g 0) :=
  fun f hr hz => State.rd_wr_zero g hr (h f hr hz)

theorem KeepsZeros.forEach {α : Type} {s : State} (l : List α) (g : α → Fld) {t : State} (h : KeepsZeros s t) :
    KeepsZeros s (t.forEach l fun a u => u.wr (g a) 0) := by
  induction l generalizing t with
  | nil => exact h
  | cons a l ih => exact ih (h.wr (g a))

/-- The head of a queue of at most one event leaves an empty queue, whose fields read zero. -/
theorem popEvents_keepsZeros {h : Home} {s : State} (a : Nat) (higl : ∀ p, h = .igl p → s.pos[p].igl.events.length ≤ 1)
    (hhqi : h = .sys 5 → s.hqi.events.length ≤ 1) : KeepsZeros s (popEvents h a s) := by
  unfold popEvents
  split
  · next p =>
    split
    · have hnil : (s.updIgl p fun g => { g with events := g.events.drop 1, evtLost := false }).pos[p].igl =
          { s.pos[p].igl with events := s.pos[p].igl.events.drop 1, evtLost := false } :=
          congrArg PosState.igl (State.updPos_same _ p _)
      have hdrop : s.pos[p].igl.events.drop 1 = [] := List.drop_eq_nil_of_le (higl p rfl)
      rw [hdrop] at hnil
      simp only [showIglEvt, State.wr_frame, hnil]
      exact (((((KeepsZeros.refl s).wr _).wr _).wr _).wr _).wr _
    · exact .refl s
  · split
    · have hdrop : s.hqi.events.drop 1 = [] := List.drop_eq_nil_of_le (hhqi rfl)
      simp only [showHqiEvt, State.wr_frame, State.updHqi, hdrop]
      exact ((((((KeepsZeros.refl s).wr _).wr _).wr _).wr _).wr _).wr _
    · exact .refl s
  · exact .refl s

theorem mtlRead_keepsZeros (a : Nat) (s : State) : KeepsZeros s (mtlRead a s) := by
  unfold mtlRead
  extract_lets i u t
  split
  · exact .refl s
  · split
    · exact KeepsZeros.forEach _ _ (.of_rd (by simp [t]))
    · exact .of_rd (by simp [t])

/-- The fields of a register as a read leaves them. -/
def fieldsRead (l : List Fld) (s : State) : State := l.foldl (fun s f => s.wr f (f.afterRead (s.rd f))) s

theorem fieldsRead_cons (g : Fld) (l : List Fld) (s : State) :
    fieldsRead (g :: l) s = fieldsRead l (s.wr g (g.afterRead (s.rd g))) := rfl

theorem fieldsRead_rd_ne {f : Fld} (l : List Fld) (s : State) (h : ∀ g ∈ l, f.key ≠ g.key) : (fieldsRead l s).rd f = s.rd f :=
  State.forEach_keep (·.rd f) l _ (fun g hg t => t.rd_wr_ne _ (h g hg)) s

/-- A read clears the RC fields of a register whose fields share no place. -/
theorem fieldsRead_rc {f : Fld} (hrc : f.acc = .rc) (l : List Fld) (s : State) (hnd : (l.map Fld.key).Nodup) (hf : f ∈ l) :
    (fieldsRead l s).rd f = 0 := by
  induction l generalizing s with
  | nil => exact absurd hf List.not_mem_nil
  | cons g l ih =>
    rw [List.map_cons, List.nodup_cons] at hnd
    obtain ⟨hg, hnd⟩ := hnd
    rw [fieldsRead_cons]
    rcases List.mem_cons.1 hf with rfl | hf
    · have hne : ∀ k ∈ l, f.key ≠ k.key := fun k hk e => hg (List.mem_map.2 ⟨k, hk, e.symm⟩)
      simp [fieldsRead_rd_ne l _ hne, Fld.afterRead, hrc]
    · exact ih _ hnd hf

/-- Each RC field of a register resets to zero, and neither the snuff latch nor the link's suspension drives it. -/
def RcFree (r : Reg) : Prop := ∀ f ∈ r.flds, f.acc = .rc → f.rst = 0 ∧ ∀ p, ∀ g ∈ latchFlds p, f.key ≠ g.key

/-- No register of a list has an RC field. -/
def noRc (l : List Reg) : Bool := l.all fun r => r.flds.all fun f => f.acc != .rc

theorem rcFree_of_noRc {l : List Reg} (h : noRc l = true) : ∀ r ∈ l, RcFree r := by
  intro r hr f hf hrc
  have := List.all_eq_true.1 (List.all_eq_true.1 h r hr) f hf
  simp [hrc] at this

/-- Only the shared blocks and the links have RC fields. -/
theorem srvRegsAt_noRc (p a : Nat) : noRc (srvRegsAt p a) = true := by
  unfold srvRegsAt
  extract_lets o l k n j
  split
  · split
    · rfl
    · split
      · rfl
      · rfl
  · split
    · rfl
    · rfl

theorem iglRegs_rcFree : ∀ p : PosIx, ∀ r ∈ R.iglRegs p, ∀ f ∈ r.flds, f.acc = .rc →
    f.rst = 0 ∧ ∀ p, ∀ g ∈ latchFlds p, f.key ≠ g.key := by
  decide +kernel

theorem engRegs_noRc : ∀ e : EngIx, noRc (R.engRegs e) = true := by decide +kernel
theorem spnRegs_noRc : ∀ p : PosIx, noRc (R.spnRegs p) = true := by decide +kernel
theorem carRegs_noRc : ∀ p : PosIx, noRc (R.carRegs p) = true := by decide +kernel
theorem fnRegs_noRc : ∀ f : FnIx, noRc (R.fnRegs f) = true := by decide +kernel

/-- Only the servo block picks its registers by the address. -/
theorem homeRegs_of_ne_srv {h : Home} (hne : ∀ p, h ≠ .srv p) (a : Nat) : homeRegs h a = homeRegs h 0 := by
  unfold homeRegs
  split
  case h_14 p => exact absurd rfl (hne p)
  all_goals rfl

theorem sysRegs_rcFree : ∀ n : Fin 12, ∀ r ∈ homeRegs (.sys n) 0, ∀ f ∈ r.flds, f.acc = .rc →
    f.rst = 0 ∧ ∀ p, ∀ g ∈ latchFlds p, f.key ≠ g.key := by
  decide +kernel

theorem homeRegs_rcFree (h : Home) (a : Nat) : ∀ r ∈ homeRegs h a, RcFree r := by
  cases h with
  | sys n =>
    rw [homeRegs_of_ne_srv (h := .sys n) (fun _ => nofun)]
    exact sysRegs_rcFree n
  | eng e => exact rcFree_of_noRc (engRegs_noRc e)
  | srv p => exact rcFree_of_noRc (srvRegsAt_noRc p a)
  | spn p => exact rcFree_of_noRc (spnRegs_noRc p)
  | car p => exact rcFree_of_noRc (carRegs_noRc p)
  | igl p => exact iglRegs_rcFree p
  | fn f => exact rcFree_of_noRc (fnRegs_noRc f)

@[simp] theorem length_leBytes (n x : Nat) : (leBytes n x).length = n := by
  induction n generalizing x with
  | zero => rfl
  | succ n ih => simp [leBytes, ih]

/-- The blocks lie in the first 34 Mbyte of register space. -/
theorem homeOf_range {a : Nat} {h : Home} (ha : homeOf a = some h) : 0x0200000000 ≤ a ∧ a < 0x0202180000 := by
  unfold homeOf at ha
  extract_lets o at ha
  have ho : o = a - 0x0200000000 := rfl
  split at ha
  · cases ha
  · split at ha
    · omega
    · split at ha
      · omega
      · split at ha
        · omega
        · cases ha

/-- An access of up to eight bytes that begins in a block lies in register space. -/
theorem targetOf_of_homeOf (s : State) {a size : Nat} {h : Home} (ha : homeOf a = some h) (hsize : size ≤ 8) :
    targetOf s a size = some .regs := by
  obtain ⟨hlo, hhi⟩ := homeOf_range ha
  have hz : a + max size 1 ≤ a + 8 := by omega
  have hsram : ¬ a + max size 1 ≤ sramBase + sramSize := by
    unfold sramBase sramSize
    omega
  have hember : ¬ a + max size 1 ≤ emberBase + emberSize := by
    unfold emberBase emberSize
    omega
  have hrom : ¬ a + max size 1 ≤ 0x40000 := by omega
  have hregs : a + max size 1 ≤ 0x0210000000 := by omega
  simp [targetOf, hrom, hsram, hember, hlo, hregs]

/-- A register access that is not the host's, from a requester that is not stopped, within its reach, is done. -/
theorem regAccess_of_reaches {s : State} {who : Requester} {a : Nat} {acc : Access} (go : State → State)
    (hwho : ∀ f, who ≠ .host f) (hrun : stopped s who = false) (ht : targetOf s a (accSize acc) = some .regs)
    (hreach : reaches s who .regs a acc = true) : regAccess who a acc go s = go s := by
  cases who with
  | host f => exact absurd rfl (hwho f)
  | _ => simp [regAccess, hrun, ht, hreach]

theorem spaceRead_of_homeOf {who : Requester} {a : Nat} {h : Home} (size : Nat) (s : State) (hwho : ∀ f, who ≠ .host f)
    (ha : homeOf a = some h) : spaceRead who a size s = regRead who h a size s := by
  cases who with
  | host f => exact absurd rfl (hwho f)
  | _ => simp [spaceRead, ha]

theorem spaceWrite_of_homeOf {who : Requester} {a : Nat} {h : Home} (size x : Nat) (s : State) (hwho : ∀ f, who ≠ .host f)
    (ha : homeOf a = some h) : spaceWrite who a size x s = regWrite who h a size x s := by
  cases who with
  | host f => exact absurd rfl (hwho f)
  | _ => simp [spaceWrite, ha]

/-- The register that an access names is one of its block. -/
theorem mem_of_regExact {l : List Reg} {a size : Nat} {r : Reg} (h : regExact l a size = some r) : r ∈ l :=
  List.mem_of_find?_eq_some h

/-- Field writes move no event queue. -/
theorem forEach_wr_events {α : Type} (l : List α) (f : α → Fld) (v : α → State → Nat) (s : State) :
    (s.forEach l fun a t => t.wr (f a) (v a t)).pos = s.pos ∧ (s.forEach l fun a t => t.wr (f a) (v a t)).hqi = s.hqi :=
  ⟨State.forEach_keep (·.pos) l (fun a t => t.wr (f a) (v a t)) (fun _ _ _ => rfl) s,
    State.forEach_keep (·.hqi) l (fun a t => t.wr (f a) (v a t)) (fun _ _ _ => rfl) s⟩

theorem fieldsRead_events (l : List Fld) (s : State) : (fieldsRead l s).pos = s.pos ∧ (fieldsRead l s).hqi = s.hqi :=
  forEach_wr_events l id (fun f s => f.afterRead (s.rd f)) s

/-- What a read leaves of a register whose fields share no place: its RC fields are clear. -/
theorem regAfterRead_rc {h : Home} {r : Reg} {s : State} (hnd : (r.flds.map Fld.key).Nodup)
    (higl : ∀ p, h = .igl p → s.pos[p].igl.events.length ≤ 1) (hhqi : h = .sys 5 → s.hqi.events.length ≤ 1) {f : Fld}
    (hf : f ∈ r.flds) (hrc : f.acc = .rc) (hrst : f.rst = 0) : (regAfterRead h r s).rd f = 0 := by
  obtain ⟨hpos, hq⟩ := fieldsRead_events r.flds s
  have hpop : KeepsZeros (fieldsRead r.flds s) (popEvents h r.addr (fieldsRead r.flds s)) :=
    popEvents_keepsZeros r.addr (fun p e => by simpa [hpos] using higl p e) (fun e => by simpa [hq] using hhqi e)
  exact mtlRead_keepsZeros r.addr _ f hrst (hpop f hrst (fieldsRead_rc hrc r.flds s hnd hf))

/-- The state in which a register of block h is read: CLK shows its domains as they are now. -/
def readState (h : Home) (s : State) : State :=
  match h with
  | .sys 1 => showClk s
  | _ => s

theorem regRead_of_exact (who : Requester) {h : Home} {a size : Nat} {s : State} {r : Reg} (hoff : homeOffered s h = true)
    (hpow : homePowered s h = true) (hr : regExact (homeRegs h a) a size = some r) :
    regRead who h a size s =
      { regAfterRead h r (readState h s) with resp := .value (regValue (readState h s) r) } := by
  simp only [regRead, hoff, hpow, hr, Bool.not_true, Bool.false_eq_true, if_false]
  rfl

theorem showClk_events (s : State) : (showClk s).pos = s.pos ∧ (showClk s).hqi = s.hqi := by
  unfold showClk
  extract_lets u
  obtain ⟨hpos, hq⟩ := forEach_wr_events (List.range 15) R.clkPllOn (fun n s => if pllWanted s n then 1 else 0) s
  obtain ⟨kpos, kq⟩ := forEach_wr_events (List.range 7) R.clkDstatRun
    (fun k s => ((List.range 32).map fun i => if domainRuns s (32 * k + i) then 2 ^ i else 0).foldl (· + ·) 0) u
  exact ⟨kpos.trans hpos, kq.trans hq⟩

theorem readState_events (h : Home) (s : State) : (readState h s).pos = s.pos ∧ (readState h s).hqi = s.hqi := by
  unfold readState
  split
  · exact showClk_events s
  · exact ⟨rfl, rfl⟩

/-- Settles O51: the read clears the field, an emptied queue and a spent mailbox write only zeros, and settling drives no RC
field; the registers of BAR0 have none. -/
theorem readClearsRcFields : Obligations.ReadClearsRcFields := by
  unfold Obligations.ReadClearsRcFields
  intro s r size hnd
  refine ⟨fun who h a hwho hrun hreach hsize ha hoff hpow hr higl hhqi => ?_, fun f o ho hr => ?_⟩
  · have hgo : regAccess who a (.read size) (spaceRead who a size) s = _ :=
      (regAccess_of_reaches (acc := .read size) _ hwho hrun (targetOf_of_homeOf s ha hsize) hreach).trans
        ((spaceRead_of_homeOf size s hwho ha).trans (regRead_of_exact who hoff hpow hr))
    refine ⟨_, congrArg done hgo, fun f hf hrc => ?_⟩
    obtain ⟨hrst, hlatch⟩ := homeRegs_rcFree h a r (mem_of_regExact hr) f hf hrc
    obtain ⟨hpos, hq⟩ := readState_events h s
    rw [settleAll_rd _ hlatch, State.rd_set_resp]
    exact regAfterRead_rc hnd (fun p e => by simpa [hpos] using higl p e) (fun e => by simpa [hq] using hhqi e) hf hrc hrst
  · refine ⟨_, rfl, fun g hg hrc => ?_⟩
    have hno := List.all_eq_true.1 (List.all_eq_true.1 (fnRegs_noRc f) r (mem_of_regExact hr)) g hg
    simp [hrc] at hno

end Sys2Proof.Machine
end

section
/-! PROOFS. A write to a register that gives no command. -/

namespace Sys2Proof.Machine

theorem State.forEach_id {α : Type} (l : List α) (g : α → State → State) (h : ∀ a ∈ l, ∀ t, g a t = t) (s : State) :
    s.forEach l g = s := State.forEach_keep id l g h s

theorem addr_beq_false {a : Nat} {f : Fld} (h : f.addr ≠ a) : (a == f.addr) = false := by
  simp [h.symm]

theorem whenAsked_ne {a : Nat} {f : Fld} (h : f.addr ≠ a) (x : Nat) (g : State → State) (s : State) :
    whenAsked a x f g s = s := by
  simp [whenAsked, h.symm]

theorem whenWritten_ne {a : Nat} {f : Fld} (h : f.addr ≠ a) (x : Nat) (g : Nat → State → State) (s : State) :
    whenWritten a x f g s = s := by
  simp [whenWritten, h.symm]

theorem plainRegister_ne {h : Home} {a : Nat} (hp : plainRegister h a = true) : ∀ f ∈ commandFlds h, f.addr ≠ a := by
  intro f hf
  have := List.all_eq_true.1 (Bool.and_eq_true_iff.1 hp).1 f hf
  simpa using this

/-- A write to a register that gives no command has no effect beside its fields. -/
theorem regHook_plain {h : Home} {a : Nat} (hp : plainRegister h a = true) (x : Nat) (b s : State) :
    regHook h a x b s = s := by
  have hne := plainRegister_ne hp
  unfold regHook
  split
  · refine State.forEach_id _ _ (fun n hn t => if_neg fun e => hne (R.clkPllForce n) ?_ e.symm) s
    exact List.mem_cons_of_mem _ (List.mem_map.2 ⟨n, hn, rfl⟩)
  · exact if_neg fun e => hne R.hqiCqselFn (by simp [commandFlds]) e.symm
  · refine if_neg fun e => hne R.bufCtrlEn (by simp [commandFlds]) ?_
    simp at e
    exact e.1.symm
  · refine State.forEach_id (List.finRange 6) _ (fun c _ t => ?_) s
    have := hne (R.perfSmpctlEn c) (List.mem_append_right _ (List.mem_map.2 ⟨c, List.mem_range.2 c.2, rfl⟩))
    simp [this.symm]
  · rfl

theorem srvCommand_plain {p : PosIx} {a : Nat} (hne : ∀ f ∈ commandFlds (.srv p), f.addr ≠ a) (x : Nat) (s : State) :
    srvCommand p a x s = s := by
  simp only [commandFlds, List.mem_append, List.mem_cons, List.mem_flatMap, List.mem_range, List.not_mem_nil, or_false] at hne
  have hsurf : ∀ f : Fin 8, ∀ g, g = R.srvSpFocus p f ∨ g = R.jmpCtrlGo p f ∨ g = R.jmpCtrlAbort p f → g.addr ≠ a :=
    fun f g hg => hne g (.inl (.inr ⟨f, f.2, hg⟩))
  have hloop : ∀ l : Fin 24, ∀ g, g = R.loopCtrlMode p l ∨ g = R.loopCtrlGainNow p l → g.addr ≠ a :=
    fun l g hg => hne g (.inr ⟨l, l.2, hg⟩)
  have hpos : ∀ g, g = R.srvSnuffClr p ∨ g = R.srvJmpgoMask p ∨ g = R.srvCtrlEn p ∨ g = R.posCfgEn p → g.addr ≠ a :=
    fun g hg => hne g (.inl (.inl hg))
  unfold srvCommand
  rw [State.forEach_id allLoops, State.forEach_id allSurfs, whenWritten_ne (hpos _ (by simp)),
    whenWritten_ne (hpos _ (by simp)), whenWritten_ne (hpos _ (by simp)), whenAsked_ne (hpos _ (by simp))]
  · intro f _ t
    have := hsurf f (R.srvSpFocus p f) (by simp)
    simp [whenAsked_ne (hsurf f (R.jmpCtrlGo p f) (by simp)), whenAsked_ne (hsurf f (R.jmpCtrlAbort p f) (by simp)), this.symm]
  · intro l _ t
    rw [whenWritten_ne (hloop l _ (by simp)), whenAsked_ne (hloop l _ (by simp))]

theorem regCommand_plain {h : Home} {a : Nat} (hp : plainRegister h a = true) (x : Nat) (s : State) :
    regCommand h a x s = s := by
  have hne := plainRegister_ne hp
  unfold regCommand
  split
  case h_14 p => exact srvCommand_plain hne x s
  all_goals
    simp only [commandFlds, List.mem_cons, List.mem_append, List.not_mem_nil, or_false, forall_eq, or_imp, forall_and] at hne
    simp [hne, addr_beq_false, whenAsked_ne, whenWritten_ne]

end Sys2Proof.Machine
end

section
/-! PROOFS. A write to register space: what becomes of the fields, and of a command code that is not listed. -/

namespace Sys2Proof.Machine

theorem reaches_core_write (s : State) (c : CoreIx) (a : Nat) (l : List Byte) :
    reaches s (.core c) .regs a (.write l) = true := rfl

/-- A register write within the requester's reach to an address of a block. -/
theorem exec_registerWrite {s : State} {who : Requester} {h : Home} {a size x : Nat} (hwho : ∀ f, who ≠ .host f)
    (hrun : stopped s who = false) (hreach : reaches s who .regs a (.write (leBytes size x)) = true) (hsize : size ≤ 8)
    (ha : homeOf a = some h) :
    exec (.registerWrite who a size x) s = done (regWrite who h a size (x % 256 ^ size) s) := by
  have ht : targetOf s a (accSize (.write (leBytes size x))) = some .regs :=
    targetOf_of_homeOf s ha (Nat.le_trans (Nat.le_of_eq (length_leBytes size x)) hsize)
  exact congrArg done ((regAccess_of_reaches _ hwho hrun ht hreach).trans (spaceWrite_of_homeOf _ _ s hwho ha))

theorem exec_registerWrite_core {h : Home} {a size : Nat} (s : State) (c : CoreIx) (x : Nat) (hsize : size ≤ 8)
    (ha : homeOf a = some h) :
    exec (.registerWrite (.core c) a size x) s = done (regWrite (.core c) h a size (x % 256 ^ size) s) :=
  exec_registerWrite (fun _ => nofun) rfl (reaches_core_write ..) hsize ha

/-- A core's store restarts channels; no register shows it. -/
theorem restartChannels_rd (who : Requester) (h : Home) (s : State) (f : Fld) : (restartChannels who h s).rd f = s.rd f := by
  cases who <;> rfl

theorem regLocked_restartChannels (who : Requester) (h : Home) (s : State) (a x : Nat) :
    regLocked (restartChannels who h s) h a x = regLocked s h a x := by
  cases who <;> rfl

theorem regWrite_of_exact {who : Requester} {h : Home} {a size : Nat} {s : State} {r : Reg} (x : Nat)
    (hoff : homeOffered s h = true) (hpow : homePowered s h = true) (hr : regExact (homeRegs h a) a size = some r) :
    regWrite who h a size x s =
      { regPut h r a x (restartChannels who h s) with
        resp := if regLocked (restartChannels who h s) h a x then .ignored else .written } := by
  simp [regWrite, hoff, hpow, hr, regLocked_restartChannels]

theorem coefOf_plain {h : Home} {a : Nat} (hp : plainRegister h a = true) : regPut.coefOf h a = none := by
  cases h with
  | srv p => exact Option.isNone_iff_eq_none.1 (Bool.and_eq_true_iff.1 hp).2
  | _ => rfl

/-- A write to a register without a coefficient sets its fields where it is not locked, and then gives its command. -/
theorem regPut_of_coefOf_none {h : Home} {a : Nat} (hc : regPut.coefOf h a = none) (r : Reg) (x : Nat) (s : State) :
    regPut h r a x s = regCommand h a x
      (if regLocked s h a x then s else regHook h a x s (fieldsWritten (ownRow h) x (fun _ => true) r.flds s)) := by
  unfold regPut
  rw [hc]
  split
  · next h => cases h
  · rfl

theorem regPut_plain {h : Home} {a x : Nat} {s : State} (hp : plainRegister h a = true) (hl : regLocked s h a x = false)
    (r : Reg) : regPut h r a x s = fieldsWritten (ownRow h) x (fun _ => true) r.flds s := by
  rw [regPut_of_coefOf_none (coefOf_plain hp), regCommand_plain hp, hl, if_neg Bool.false_ne_true, regHook_plain hp]

theorem fieldsWritten_rd_ne {own : List Fld} {x : Nat} {mask : Fld → Bool} {f : Fld} (l : List Fld) (s : State)
    (h : ∀ g ∈ l, f.key ≠ g.key) : (fieldsWritten own x mask l s).rd f = s.rd f := by
  refine State.forEach_keep (·.rd f) l
    (fun g s => if own.contains g || !mask g then s else s.wr g (g.written (s.rd g) (fieldOperand g x))) (fun g hg t => ?_) s
  split
  · rfl
  · exact t.rd_wr_ne _ (h g hg)

theorem fieldsWritten_cons (own : List Fld) (x : Nat) (mask : Fld → Bool) (g : Fld) (l : List Fld) (s : State) :
    fieldsWritten own x mask (g :: l) s = fieldsWritten own x mask l
      (if own.contains g || !mask g then s else s.wr g (g.written (s.rd g) (fieldOperand g x))) := rfl

/-- A full write gives each field of a register whose fields share no place what its access code says. -/
theorem fieldsWritten_rd {own : List Fld} {x : Nat} {f : Fld} (l : List Fld) (s : State) (hnd : (l.map Fld.key).Nodup)
    (hf : f ∈ l) : (fieldsWritten own x (fun _ => true) l s).rd f =
      if f ∈ own then s.rd f else f.written (s.rd f) (fieldOperand f x) % 2 ^ f.w := by
  induction l generalizing s with
  | nil => exact absurd hf List.not_mem_nil
  | cons g l ih =>
    rw [List.map_cons, List.nodup_cons] at hnd
    obtain ⟨hg, hnd⟩ := hnd
    rw [fieldsWritten_cons]
    rcases List.mem_cons.1 hf with rfl | hf
    · have hne : ∀ k ∈ l, f.key ≠ k.key := fun k hk e => hg (List.mem_map.2 ⟨k, hk, e.symm⟩)
      rw [fieldsWritten_rd_ne l _ hne]
      by_cases ho : f ∈ own <;> simp [ho]
    · have hne : f.key ≠ g.key := fun e => hg (List.mem_map.2 ⟨f, hf, e⟩)
      rw [ih _ hnd hf]
      by_cases ho : g ∈ own <;> simp [ho, State.rd_wr_ne _ _ hne]

/-- A full write to a register that only sets its fields. -/
theorem registerWrite_plain {s : State} {who : Requester} {h : Home} {a size x : Nat} {r : Reg} (hwho : ∀ f, who ≠ .host f)
    (hrun : stopped s who = false) (hreach : reaches s who .regs a (.write (leBytes size x)) = true) (hsize : size ≤ 8)
    (hp : plainRegister h a = true) (ha : homeOf a = some h) (hoff : homeOffered s h = true) (hpow : homePowered s h = true)
    (hr : regExact (homeRegs h a) a size = some r) (hx : x < 256 ^ size) (hl : regLocked s h a x = false)
    (hnd : (r.flds.map Fld.key).Nodup) :
    ∃ t, exec (.registerWrite who a size x) s = .next t ∧ t.resp = .written ∧
      ∀ f ∈ r.flds, (∀ p, ∀ g ∈ latchFlds p, f.key ≠ g.key) →
        t.rd f = (if f ∈ ownRow h then s.rd f else f.written (s.rd f) (fieldOperand f x) % 2 ^ f.w) := by
  have hl' : regLocked (restartChannels who h s) h a x = false := (regLocked_restartChannels ..).trans hl
  rw [exec_registerWrite hwho hrun hreach hsize ha, Nat.mod_eq_of_lt hx, regWrite_of_exact x hoff hpow hr, regPut_plain hp hl',
    hl']
  refine ⟨_, rfl, by simp, fun f hf hlatch => ?_⟩
  rw [settleAll_rd _ hlatch, State.rd_set_resp, fieldsWritten_rd _ _ hnd hf, restartChannels_rd]

/-- The command registers of spindle and carriage: their blocks, and the registers that an access of four bytes names. -/
theorem spnCmd_register (p : PosIx) : homeOf (R.spnCmdOp p).addr = some (.spn p) ∧
    regExact (R.spnRegs p) (R.spnCmdOp p).addr 4 = some ⟨(R.spnCmdOp p).addr, 32, [R.spnCmdOp p]⟩ := by
  decide +revert

theorem carCmd_register (p : PosIx) : homeOf (R.carCmdOp p).addr = some (.car p) ∧
    regExact (R.carRegs p) (R.carCmdOp p).addr 4 = some ⟨(R.carCmdOp p).addr, 32, [R.carCmdOp p]⟩ := by
  decide +revert

/-- The status fields of spindle and carriage are neither the command's nor driven by settling. -/
theorem spnStat_keys (p : PosIx) : (R.spnStatState p).key ≠ (R.spnCmdOp p).key ∧
    ∀ q, ∀ g ∈ latchFlds q, (R.spnStatCmderr p).key ≠ g.key ∧ (R.spnStatState p).key ≠ g.key := by
  decide +revert

theorem carStat_keys (p : PosIx) : (R.carStatState p).key ≠ (R.carCmdOp p).key ∧
    ∀ q, ∀ g ∈ latchFlds q, (R.carStatCmderr p).key ≠ g.key ∧ (R.carReasonCode p).key ≠ g.key ∧
      (R.carStatState p).key ≠ g.key := by
  decide +revert

theorem spnCommand_unlisted {op : Nat} (h : op = 0 ∨ 5 < op) (p : PosIx) (s : State) : spnCommand p op s = spnRefuse p s := by
  unfold spnCommand
  split
  case h_6 => rfl
  all_goals omega

theorem carCommand_unlisted {op : Nat} (h : op = 0 ∨ 9 < op) (p : PosIx) (s : State) :
    carCommand p op s = carRefuse p 0x0708 s := by
  unfold carCommand
  split
  case h_10 => rfl
  all_goals omega

theorem spnRefuse_rd (p : PosIx) (s : State) :
    (spnRefuse p s).rd (R.spnStatCmderr p) = 1 ∧ (spnRefuse p s).rd (R.spnStatState p) = s.rd (R.spnStatState p) := by
  have herr : ∀ g ∈ R.spnReasonCode p :: logFlds, (R.spnStatCmderr p).key ≠ g.key := by decide +revert
  have hst : ∀ g ∈ R.spnStatCmderr p :: R.spnReasonCode p :: logFlds, (R.spnStatState p).key ≠ g.key := by decide +revert
  rw [List.forall_mem_cons] at herr hst
  obtain ⟨hst, hst'⟩ := hst
  rw [List.forall_mem_cons] at hst'
  simp only [spnRefuse, spnReason, State.log_eq, State.set1_eq]
  rw [State.rd_logF _ _ _ _ _ _ _ herr.2, State.rd_logF _ _ _ _ _ _ _ hst'.2, State.rd_wr_ne _ _ herr.1,
    State.rd_wr_ne _ _ hst'.1, State.rd_wr_ne _ _ hst]
  exact ⟨State.rd_wr_same _ _ _, rfl⟩

theorem carRefuse_rd (p : PosIx) (s : State) :
    (carRefuse p 0x0708 s).rd (R.carStatCmderr p) = 1 ∧ (carRefuse p 0x0708 s).rd (R.carReasonCode p) = 0x0708 ∧
    (carRefuse p 0x0708 s).rd (R.carStatState p) = s.rd (R.carStatState p) := by
  have herr : (R.carStatCmderr p).key ≠ (R.carReasonCode p).key := by decide +revert
  have hst : (R.carStatState p).key ≠ (R.carReasonCode p).key ∧ (R.carStatState p).key ≠ (R.carStatCmderr p).key := by
    decide +revert
  simp only [carRefuse, carLoad, State.set1_eq]
  rw [State.rd_wr_ne _ _ herr, State.rd_wr_ne _ _ hst.1, State.rd_wr_ne _ _ hst.2]
  exact ⟨State.rd_wr_same _ _ _, State.rd_wr_same _ _ _, rfl⟩

/-- A write to the one field of a command register, up to the command. -/
theorem regPut_command {h : Home} {f : Fld} (hc : regPut.coefOf h f.addr = none) (hk : ∀ x b s, regHook h f.addr x b s = s)
    (x : Nat) (s : State) : ∃ u : State, regPut h ⟨f.addr, 32, [f]⟩ f.addr x s = regCommand h f.addr x u ∧
      ∀ g : Fld, g.key ≠ f.key → u.rd g = s.rd g := by
  refine ⟨_, regPut_of_coefOf_none hc _ x s, fun g hg => ?_⟩
  split
  · rfl
  · rw [hk, fieldsWritten_rd_ne _ _ (by simpa using hg)]

theorem registerWrite_spnCmd_unlisted {s : State} {p : PosIx} {op : Nat} (hop : op < 16) (hoff : posOffered s p = true)
    (hun : op = 0 ∨ 5 < op) (c : CoreIx) : ∃ t, exec (.registerWrite (.core c) (R.spnCmdOp p).addr 4 op) s = .next t ∧
      t.rd (R.spnStatCmderr p) = 1 ∧ t.rd (R.spnStatState p) = s.rd (R.spnStatState p) := by
  obtain ⟨ha, hr⟩ := spnCmd_register p
  obtain ⟨u, hu, hrd⟩ := regPut_command (h := .spn p) (f := R.spnCmdOp p) rfl (fun _ _ _ => rfl) op
    (restartChannels (.core c) (.spn p) s)
  have hne : (R.spnSpdTarget p).addr ≠ (R.spnCmdOp p).addr := by simp [R.spnSpdTarget, R.spnCmdOp]
  have hval : fieldOperand (R.spnCmdOp p) op = op := by simp [fieldOperand, R.spnCmdOp, bitsOf, Nat.mod_eq_of_lt hop]
  have hcmd : regCommand (.spn p) (R.spnCmdOp p).addr op u = spnRefuse p u := by
    rw [← spnCommand_unlisted hun]
    simp only [regCommand, whenWritten_ne hne]
    simp [whenWritten, hval]
  obtain ⟨hst, hlatch⟩ := spnStat_keys p
  obtain ⟨herr, hstate⟩ := spnRefuse_rd p u
  rw [exec_registerWrite_core s c op (by decide) ha, Nat.mod_eq_of_lt (by omega),
    regWrite_of_exact (h := .spn p) op hoff rfl hr, hu, hcmd]
  refine ⟨_, rfl, ?_, ?_⟩
  · rw [settleAll_rd _ fun q g hg => (hlatch q g hg).1, State.rd_set_resp, herr]
  · rw [settleAll_rd _ fun q g hg => (hlatch q g hg).2, State.rd_set_resp, hstate, hrd _ hst, restartChannels_rd]

theorem registerWrite_carCmd_unlisted {s : State} {p : PosIx} {op : Nat} (hop : op < 16) (hoff : posOffered s p = true)
    (hun : op = 0 ∨ 9 < op) (c : CoreIx) : ∃ t, exec (.registerWrite (.core c) (R.carCmdOp p).addr 4 op) s = .next t ∧
      t.rd (R.carStatCmderr p) = 1 ∧ t.rd (R.carReasonCode p) = 0x0708 ∧
      t.rd (R.carStatState p) = s.rd (R.carStatState p) := by
  obtain ⟨ha, hr⟩ := carCmd_register p
  obtain ⟨u, hu, hrd⟩ := regPut_command (h := .car p) (f := R.carCmdOp p) rfl (fun _ _ _ => rfl) op
    (restartChannels (.core c) (.car p) s)
  have hne : (R.carTgtTgt p).addr ≠ (R.carCmdOp p).addr := by simp [R.carTgtTgt, R.carCmdOp]
  have hval : fieldOperand (R.carCmdOp p) op = op := by simp [fieldOperand, R.carCmdOp, bitsOf, Nat.mod_eq_of_lt hop]
  have hcmd : regCommand (.car p) (R.carCmdOp p).addr op u = carRefuse p 0x0708 u := by
    rw [← carCommand_unlisted hun]
    simp only [regCommand, whenWritten_ne hne]
    simp [whenWritten, hval]
  obtain ⟨hst, hlatch⟩ := carStat_keys p
  obtain ⟨herr, hreason, hstate⟩ := carRefuse_rd p u
  rw [exec_registerWrite_core s c op (by decide) ha, Nat.mod_eq_of_lt (by omega),
    regWrite_of_exact (h := .car p) op hoff rfl hr, hu, hcmd]
  refine ⟨_, rfl, ?_, ?_, ?_⟩
  · rw [settleAll_rd _ fun q g hg => (hlatch q g hg).1, State.rd_set_resp, herr]
  · rw [settleAll_rd _ fun q g hg => (hlatch q g hg).2.1, State.rd_set_resp, hreason]
  · rw [settleAll_rd _ fun q g hg => (hlatch q g hg).2.2, State.rd_set_resp, hstate, hrd _ hst, restartChannels_rd]

end Sys2Proof.Machine
end

section
/-! PROOFS. Accesses that have no effect: out of reach, refused, in no region. -/

namespace Sys2Proof.Machine

/-- What an access out of reach leaves alone: the memories, and every register field but those of the event log. -/
def OnlyLogged (s t : State) : Prop := t.mem = s.mem ∧ ∀ f : Fld, (∀ k ∈ logFlds, f.key ≠ k.key) → t.rd f = s.rd f

theorem haltNote_rd (who : Requester) (s : State) (f : Fld) : (haltNote who s).rd f = s.rd f := by
  unfold haltNote
  split
  · split <;> rfl
  · rfl

theorem haltNote_of_ne {who : Requester} {s : State} (h : ∀ r, s.resp ≠ .channelHalt r) : haltNote who s = s := by
  unfold haltNote
  split
  · next r hr => exact absurd hr (h r)
  · rfl

theorem OnlyLogged.haltNote {s t : State} (h : OnlyLogged s t) (who : Requester) : OnlyLogged s (haltNote who t) :=
  ⟨(haltNote_mem who t).trans h.1, fun f hf => (haltNote_rd who t f).trans (h.2 f hf)⟩

theorem outside_onlyLogged (who : Requester) (a reason : Nat) (s : State) : OnlyLogged s (outside who a reason s) :=
  OnlyLogged.haltNote ⟨by simp, fun f hf => (State.rd_set_resp _ _ f).trans (s.rd_logF _ _ _ _ _ _ hf)⟩ who

theorem resp_onlyLogged (s : State) (x : Resp) : OnlyLogged s { s with resp := x } := ⟨rfl, fun _ _ => rfl⟩

theorem keepsMem_of_mem {s t : State} (h : t.mem = s.mem) : KeepsMem s t := by
  simp only [State.mem, Prod.mk.injEq] at h
  obtain ⟨hs, he, hg⟩ := h
  intro a
  rw [hs, he, hg]
  exact ⟨rfl, rfl, rfl⟩

theorem keepsMem_settleAll {s u : State} (h : u.mem = s.mem) : KeepsMem s (settleAll u) :=
  keepsMem_of_mem ((settleAll_mem u).trans h)

theorem done_onlyLogged {s u : State} (h : OnlyLogged s u) : ∃ t, done u = .next t ∧ KeepsMem s t ∧
    ∀ f : Fld, (∀ k ∈ logFlds, f.key ≠ k.key) → (∀ p, ∀ k ∈ latchFlds p, f.key ≠ k.key) → t.rd f = s.rd f :=
  ⟨_, rfl, keepsMem_settleAll h.1, fun f hlog hlatch => (settleAll_rd u hlatch).trans (h.2 f hlog)⟩

theorem regAccess_beyond {s : State} {who : Requester} {a : Nat} {acc : Access} (go : State → State)
    (hwho : ∀ f, who ≠ .host f) (hreach : reaches s who .regs a acc = false) : OnlyLogged s (regAccess who a acc go s) := by
  cases who with
  | host f => exact absurd rfl (hwho f)
  | _ =>
    simp only [regAccess, hreach, Bool.and_false, Bool.false_eq_true, if_false]
    split
    · exact resp_onlyLogged _ _
    · exact outside_onlyLogged _ _ _ _

/-- The line-zero instruction takes its whole line; an address at a line's start is its own. -/
theorem lineStart {a : Nat} {acc : Access} (h : acc = .zeroLine → a % 64 = 0) :
    (if acc == .zeroLine then a - a % 64 else a) = a := by
  split
  · next e => rw [h (beq_iff_eq.1 e), Nat.sub_zero]
  · rfl

/-- An access on the fabric by a requester that is not the host's, once its region is known. -/
def fabricAt (who : Requester) (priv : Priv) (a : Nat) (acc : Access) (env : AccessEnv) (s : State) : Option Target → State
  | none => outside who a (if accIsWrite acc && inCheck s a then 0x0A0C else Config.reachReason.toNat) s
  | some t =>
    if !reaches s who t a acc then outside who a Config.reachReason.toNat s
    else if isCore who && !allowed priv t acc env.userAllowed then { s with resp := .illegalAccess }
    else served who t a acc env s

theorem fabricAccess_eq {s : State} {who : Requester} {a : Nat} {acc : Access} (priv : Priv) (env : AccessEnv)
    (hwho : ∀ f, who ≠ .host f) (hz : acc = .zeroLine → a % 64 = 0) :
    fabricAccess who priv a acc env s =
      if stopped s who then { s with resp := .channelHalt Config.reachReason.toNat }
      else haltNote who (fabricAt who priv a acc env s (targetOf s a (accSize acc))) := by
  cases who with
  | host f => exact absurd rfl (hwho f)
  | _ =>
    simp only [fabricAccess, lineStart hz]
    cases targetOf s a (accSize acc) <;> rfl

theorem fabricAccess_core {s : State} {a : Nat} {acc : Access} (c : CoreIx) (priv : Priv) (env : AccessEnv)
    (hz : acc = .zeroLine → a % 64 = 0) : fabricAccess (.core c) priv a acc env s =
      haltNote (.core c) (fabricAt (.core c) priv a acc env s (targetOf s a (accSize acc))) :=
  fabricAccess_eq priv env (fun _ => nofun) hz

theorem fabricAccess_beyond {s : State} {who : Requester} {a : Nat} {acc : Access} {g : Target} (priv : Priv) (env : AccessEnv)
    (hwho : ∀ f, who ≠ .host f) (hz : acc = .zeroLine → a % 64 = 0) (ht : targetOf s a (accSize acc) = some g)
    (hreach : reaches s who g a acc = false) : OnlyLogged s (fabricAccess who priv a acc env s) := by
  rw [fabricAccess_eq priv env hwho hz, ht]
  split
  · exact resp_onlyLogged _ _
  · simp only [fabricAt, hreach, Bool.not_false, if_true]
    exact (outside_onlyLogged _ _ _ _).haltNote who

/-- R7: an access that names no register at its full width but touches one is refused. -/
theorem registerWrite_wrongWidth {s : State} {h : Home} {a size : Nat} (hsize : size ≤ 8) (ha : homeOf a = some h)
    (hoff : homeOffered s h = true) (hpow : homePowered s h = true) (hr : regExact (homeRegs h a) a size = none)
    (ht : regsTouched (homeRegs h a) a size ≠ []) (c : CoreIx) (x : Nat) :
    ∃ t, exec (.registerWrite (.core c) a size x) s = .next t ∧ t.resp = .busError 0 ∧ KeepsMem s t ∧
      ∀ f : Fld, (∀ p, ∀ g ∈ latchFlds p, f.key ≠ g.key) → t.rd f = s.rd f := by
  have htouch : touchesReg h a size = true := by
    obtain ⟨r, hmem⟩ := List.exists_mem_of_ne_nil _ ht
    have hmem' : r ∈ regsTouched (homeRegs h a ++ homeRegs h (a + (size - 1))) a size := by
      rw [regsTouched, List.filter_append]
      exact List.mem_append_left _ hmem
    simp [touchesReg, List.ne_nil_of_mem hmem']
  have hw : regWrite (.core c) h a size (x % 256 ^ size) s = { s with resp := .busError 0 } := by
    simp [regWrite, hoff, hpow, hr, htouch, refusal]
  rw [exec_registerWrite_core s c x hsize ha, hw]
  exact ⟨_, rfl, by simp, keepsMem_settleAll rfl, fun f hf => settleAll_rd _ hf⟩

theorem exec_rcFieldRead_core {h : Home} {a size : Nat} (s : State) (c : CoreIx) (hsize : size ≤ 8) (ha : homeOf a = some h) :
    exec (.rcFieldRead (.core c) a size) s = done (regRead (.core c) h a size s) :=
  have hwho : ∀ f, Requester.core c ≠ .host f := fun _ => nofun
  congrArg done ((regAccess_of_reaches (acc := .read size) _ hwho rfl (targetOf_of_homeOf s ha hsize) rfl).trans
    (spaceRead_of_homeOf size s hwho ha))

/-- R2: a block of a disabled position or engine. -/
theorem registerAccess_disabled {s : State} {h : Home} {a size : Nat} (hsize : size ≤ 8) (ha : homeOf a = some h)
    (hoff : homeOffered s h = false) (c : CoreIx) (x : Nat) :
    (∃ t, exec (.registerWrite (.core c) a size x) s = .next t ∧ t.resp = .ignored ∧
      ∀ f : Fld, (∀ p, ∀ g ∈ latchFlds p, f.key ≠ g.key) → t.rd f = s.rd f) ∧
    ∃ t, exec (.rcFieldRead (.core c) a size) s = .next t ∧ t.resp = .value 0 := by
  have hw : regWrite (.core c) h a size (x % 256 ^ size) s = { s with resp := .ignored } := by simp [regWrite, hoff]
  have hr : regRead (.core c) h a size s = { s with resp := .value 0 } := by simp [regRead, hoff]
  rw [exec_registerWrite_core s c x hsize ha, exec_rcFieldRead_core s c hsize ha, hw, hr]
  exact ⟨⟨_, rfl, by simp, fun f hf => settleAll_rd _ hf⟩, _, rfl, by simp⟩

/-- R418: the registers of an engine that is not ready. -/
theorem registerWrite_unpowered {s : State} {e : EngIx} {a size : Nat} (hsize : size ≤ 8) (ha : homeOf a = some (.eng e))
    (hoff : engOffered s e = true) (hrdy : bitAt (s.rd R.pwrEngrdyRdy) e = false) (c : CoreIx) (x : Nat) :
    ∃ t, exec (.registerWrite (.core c) a size x) s = .next t ∧ t.resp = .busError 0x0D04 ∧
      t.rd R.clkReasonCode = 0x0D04 := by
  have hw : regWrite (.core c) (.eng e) a size (x % 256 ^ size) s = unpowered (.core c) a s := by
    simp [regWrite, homeOffered, homePowered, hoff, hrdy]
  have hlatch : ∀ p, ∀ g ∈ latchFlds p, R.clkReasonCode.key ≠ g.key := by decide
  have hlog : ∀ k ∈ logFlds, R.clkReasonCode.key ≠ k.key := by decide
  rw [exec_registerWrite_core s c x hsize ha, hw]
  refine ⟨_, rfl, by simp [unpowered, refusal], ?_⟩
  rw [settleAll_rd _ hlatch, unpowered, State.rd_set_resp, clkReason, State.log_eq, State.rd_logF _ _ _ _ _ _ _ hlog]
  exact State.rd_wr_same _ _ _

/-- An access in no region. -/
theorem fabricAccess_nowhere {s : State} {a : Nat} {acc : Access} (hz : acc = .zeroLine → a % 64 = 0)
    (ht : targetOf s a (accSize acc) = none) (c : CoreIx) (priv : Priv) (env : AccessEnv) :
    ∃ t, exec (.fabricAccess (.core c) priv a acc env) s = .next t ∧ (∃ r, t.resp = .busError r) ∧ KeepsMem s t := by
  have hresp : ∀ r, (outside (.core c) a r s).resp = .busError r := fun r => rfl
  refine ⟨_, congrArg done (fabricAccess_core c priv env hz), ?_, ?_⟩
  · rw [ht, haltNote_of_ne (by simp [fabricAt, hresp])]
    simp [fabricAt, hresp]
  · rw [ht]
    exact keepsMem_settleAll (((outside_onlyLogged ..).haltNote _).1)

/-- An access that the core's level does not allow. -/
theorem fabricAccess_notAllowed {s : State} {a : Nat} {acc : Access} {g : Target} {priv : Priv} {env : AccessEnv} {c : CoreIx}
    (hz : acc = .zeroLine → a % 64 = 0) (ht : targetOf s a (accSize acc) = some g)
    (hreach : reaches s (.core c) g a acc = true) (hal : allowed priv g acc env.userAllowed = false) :
    ∃ t, exec (.fabricAccess (.core c) priv a acc env) s = .next t ∧ t.resp = .illegalAccess ∧ KeepsMem s t ∧
      t.flt = s.flt := by
  have hat : fabricAt (.core c) priv a acc env s (some g) = { s with resp := .illegalAccess } := by
    simp [fabricAt, hreach, hal, isCore]
  refine ⟨_, congrArg done (fabricAccess_core c priv env hz), ?_⟩
  rw [ht, hat, haltNote_of_ne (by simp)]
  exact ⟨by simp, keepsMem_settleAll rfl, by simp⟩

end Sys2Proof.Machine
end

section
/-! PROOFS. Stores to SRAM and reads of it; register and memory accesses together. -/

namespace Sys2Proof.Machine

/-- Bytes written to SRAM, or to the Ember store, are read back. -/
theorem Mem.read_put_nonZero (m : Mem) (a : Nat) (l : List Byte) : Mem.read (Mem.put nonZero m a l) a l.length = l := by
  refine List.ext_getElem (by simp [Mem.read]) fun i _ hi => ?_
  by_cases hz : l[i] = 0#8 <;> simp [Mem.read, Mem.get_put, hi, Option.filter, nonZero, hz]

theorem targetOf_sram (s : State) {a n : Nat} (hlo : sramBase ≤ a) (hhi : a + n ≤ sramBase + sramSize) (hn : 0 < n) :
    targetOf s a n = some .sram := by
  have hmax : max n 1 = n := by omega
  have hrom : ¬ a + n ≤ 0x40000 := by
    unfold sramBase at hlo
    omega
  simp [targetOf, hmax, hrom, hlo, hhi]

/-- A core's access to SRAM at machine level, with nothing upset, is served. -/
theorem fabricAccess_sram {s : State} {a : Nat} {acc : Access} {env : AccessEnv} (c : CoreIx) (hz : acc ≠ .zeroLine)
    (ht : targetOf s a (accSize acc) = some .sram) (hreach : reaches s (.core c) .sram a acc = true) :
    fabricAccess (.core c) .machine a acc env s = haltNote (.core c) (served (.core c) .sram a acc env s) := by
  rw [fabricAccess_core c .machine env (fun e => absurd e hz), ht]
  simp [fabricAt, hreach, allowed]

/-- R343: a core's store of whole words outside the seal table. -/
theorem fabricAccess_sramStore {s : State} {a : Nat} {l : List Byte} {env : AccessEnv} (hlo : sramBase ≤ a)
    (hhi : a + l.length ≤ sramBase + sramSize) (hpos : 0 < l.length) (hw : wholeWords a l = true)
    (hseal : (wordsOf a l.length).any (inSealTable s) = false) (hq : env.upsets = []) (c : CoreIx) :
    ∃ t, exec (.fabricAccess (.core c) .machine a (.write l) env) s = .next t ∧ t.resp = .written ∧
      t.sramRead a l.length = l ∧ (∀ b, b < a ∨ a + l.length ≤ b → Mem.get t.sram b = Mem.get s.sram b) ∧
      t.ember = s.ember ∧ t.gddr = s.gddr := by
  have hserved : served (.core c) .sram a (.write l) env s =
      { unmark a l.length (s.sramWrite a l) with resp := .written } := by
    simp [served, hq, applyUpsets, sramStore, hw, hseal]
  refine ⟨_, congrArg done (fabricAccess_sram c nofun (targetOf_sram s hlo hhi hpos) rfl), ?_⟩
  rw [hserved, haltNote_of_ne (by simp)]
  refine ⟨by simp, ?_, fun b hb => ?_, by simp [unmark, State.sramWrite], by simp [unmark, State.sramWrite]⟩
  · simp [State.sramRead, unmark, State.sramWrite, Mem.read_put_nonZero]
  · have hout : ¬ (a ≤ b ∧ b < a + l.length) := by omega
    simp [unmark, State.sramWrite, Mem.get_put, hout]

/-- R343: a core's store of less than whole words. -/
theorem fabricAccess_sramPartial {s : State} {a : Nat} {l : List Byte} {env : AccessEnv} (hlo : sramBase ≤ a)
    (hhi : a + l.length ≤ sramBase + sramSize) (hpos : 0 < l.length) (hw : wholeWords a l = false) (hq : env.upsets = [])
    (c : CoreIx) :
    ∃ t, exec (.fabricAccess (.core c) .machine a (.write l) env) s = .next t ∧
      t.resp = refusedStore (.core c) 0x0A06 ∧ t.rd R.fltLastReason = 0x0A06 ∧ KeepsMem s t := by
  have hserved : served (.core c) .sram a (.write l) env s = storeRefused (.core c) a 0x0A06 s := by
    simp [served, hq, applyUpsets, sramStore, hw]
  have hlatch : ∀ p, ∀ g ∈ latchFlds p, R.fltLastReason.key ≠ g.key := by decide
  refine ⟨_, congrArg done (fabricAccess_sram c nofun (targetOf_sram s hlo hhi hpos) rfl), ?_⟩
  rw [hserved, haltNote_of_ne (by simp [storeRefused, refusedStore])]
  refine ⟨by simp [storeRefused], ?_, keepsMem_settleAll (by simp [storeRefused])⟩
  rw [settleAll_rd _ hlatch, storeRefused, State.rd_set_resp, State.log, State.logF]
  exact State.rd_wr_same _ _ _

/-- A read of good words meets no error. -/
theorem wordsMet_good {s : State} {a n : Nat} (h : ∀ w ∈ wordsOf a n, wordStatAt s w = .good) (who : Nat) :
    wordsMet who a n s = (true, s) := by
  have hue : (wordsOf a n).find? (fun w => wordStatAt s w == .ue) = none :=
    List.find?_eq_none.2 fun w hw => by simp [h w hw]
  have hce : (wordsOf a n).filter (fun w => wordStatAt s w == .ce) = [] :=
    List.filter_eq_nil_iff.2 fun w hw => by simp [h w hw]
  simp [wordsMet, hue, hce]

/-- R342: a core's read of good words of SRAM. -/
theorem fabricAccess_sramRead {s : State} {a n : Nat} {env : AccessEnv} (hlo : sramBase ≤ a)
    (hhi : a + n ≤ sramBase + sramSize) (hpos : 0 < n) (hgood : ∀ w ∈ wordsOf a n, wordStatAt s w = .good)
    (hq : env.upsets = []) (c : CoreIx) :
    ∃ t, exec (.fabricAccess (.core c) .machine a (.read n) env) s = .next t ∧ t.resp = .data (s.sramRead a n) ∧
      KeepsMem s t := by
  have hserved : served (.core c) .sram a (.read n) env s = { s with resp := .data (s.sramRead a n) } := by
    simp [served, hq, applyUpsets, memRead, wordsMet_good hgood, State.sramRead, accSize]
  refine ⟨_, congrArg done (fabricAccess_sram c nofun (targetOf_sram s hlo hhi hpos) rfl), ?_⟩
  rw [hserved, haltNote_of_ne (by simp)]
  exact ⟨by simp, keepsMem_settleAll rfl⟩

/-- Settles O52, clause by clause: writes to registers, accesses out of reach, refused accesses, SRAM, and accesses without
effect. -/
theorem registerAndMemoryAccess : Obligations.RegisterAndMemoryAccess := by
  unfold Obligations.RegisterAndMemoryAccess
  intro s quiet
  refine ⟨fun who h a size x r hwho hrun hreach hsize hp ha hoff hpow hr hx hl hnd =>
      registerWrite_plain hwho hrun hreach hsize hp ha hoff hpow hr hx hl hnd,
    fun c p op hop hoff => ⟨fun h => registerWrite_spnCmd_unlisted hop hoff h c,
      fun h => registerWrite_carCmd_unlisted hop hoff h c⟩,
    fun who a size x env priv acc g hwho => ⟨fun h => done_onlyLogged (regAccess_beyond _ hwho h),
      fun h => done_onlyLogged (regAccess_beyond _ hwho h),
      fun hz ht h => done_onlyLogged (fabricAccess_beyond priv env hwho hz ht h)⟩,
    fun c h a size x hsize ha hoff hpow hr ht => registerWrite_wrongWidth hsize ha hoff hpow hr ht c x,
    fun c h a size x hsize ha hoff => registerAccess_disabled hsize ha hoff c x,
    fun c e a size x hsize ha hoff hrdy => registerWrite_unpowered hsize ha hoff hrdy c x,
    fun c a l hlo hhi hpos => ⟨fun hw hseal => fabricAccess_sramStore hlo hhi hpos hw hseal rfl c,
      fun hw => fabricAccess_sramPartial hlo hhi hpos hw rfl c⟩,
    fun c a n hlo hhi hpos hgood => fabricAccess_sramRead hlo hhi hpos hgood rfl c,
    fun c priv a acc env hz ht => fabricAccess_nowhere hz ht c priv env,
    fun c priv a acc env g hz ht hreach hal => fabricAccess_notAllowed hz ht hreach hal⟩

end Sys2Proof.Machine
end

section
/-! PROOFS. The pins and the register block of a position, and the operations that keep them. -/

namespace Sys2Proof.Machine

/-- The pins, and what the register fields of position p's block read. -/
def blockOf (p : PosIx) (pins : PinState) (regs : RegFile) : PinState × ({f : Fld // f.atPosition p} → Nat) :=
  (pins, fun f => regs.rd f.1)

/-- The pins and the register block of position p. -/
def State.block (p : PosIx) (s : State) := blockOf p s.pins s.regs

section
variable {p : PosIx} {s t : State} (h : t.block p = s.block p)
include h

theorem pins_of_block : t.pins = s.pins := congrArg Prod.fst h

theorem rd_of_block {f : Fld} (hf : f.atPosition p) : t.rd f = s.rd f := congrFun (congrArg Prod.snd h) ⟨f, hf⟩
end

section
variable (s : State) (p : PosIx)

@[simp] theorem State.block_ite (c : Prop) [Decidable c] (a b : State) :
    (if c then a else b).block p = if c then a.block p else b.block p := apply_ite ..
@[simp] theorem State.block_mk
    (part regs sram ember gddr marks resp halted waitq hostOut freeCtr buf cch perf flt tim pins pos spares policy eng packs
      lists stripes journal hqi fns cal cmp mtl lamp pending) :
    (State.mk part regs sram ember gddr marks resp halted waitq hostOut freeCtr buf cch perf flt tim pins pos spares policy eng packs
      lists stripes journal hqi fns cal cmp mtl lamp pending).block p = blockOf p pins regs := (rfl)
@[simp] theorem State.block_eta : blockOf p s.pins s.regs = s.block p := (rfl)

/-- A write to a field of the shared blocks does not show at a position. -/
@[simp] theorem State.block_wr (f : Fld) (v : Nat) (h : f.far) : (s.wr f v).block p = s.block p := by
  have hne : ∀ g : Fld, g.atPosition p → g.key ≠ f.key := fun g hg => by
    unfold Fld.far Fld.atPosition Fld.key posBase at *
    omega
  refine Prod.ext rfl (funext fun g => ?_)
  exact s.rd_wr_ne v (hne g.1 g.2)

@[simp] theorem State.block_clrBitOf (f : Fld) (n : Nat) (h : f.far) : (s.clrBitOf f n).block p = s.block p :=
  s.block_wr p f _ h
@[simp] theorem State.block_updPos (q : PosIx) (g : PosState → PosState) : (s.updPos q g).block p = s.block p := (rfl)
@[simp] theorem State.block_updSpn (q : PosIx) (g : SpnState → SpnState) : (s.updSpn q g).block p = s.block p := (rfl)
@[simp] theorem State.block_updCar (q : PosIx) (g : CarState → CarState) : (s.updCar q g).block p = s.block p := (rfl)
@[simp] theorem State.block_updPf8 (q : PosIx) (g : Pf8State → Pf8State) : (s.updPf8 q g).block p = s.block p := (rfl)
@[simp] theorem State.block_updPack (q : PosIx) (g : PackState → PackState) : (s.updPack q g).block p = s.block p := (rfl)
@[simp] theorem State.block_updFn (f : FnIx) (g : FnState → FnState) : (s.updFn f g).block p = s.block p := (rfl)
@[simp] theorem State.block_updEng (e : EngIx) (g : EngState → EngState) : (s.updEng e g).block p = s.block p := (rfl)
@[simp] theorem State.block_updHqi (g : HqiState → HqiState) : (s.updHqi g).block p = s.block p := (rfl)
@[simp] theorem State.block_updMtl (g : MtlState → MtlState) : (s.updMtl g).block p = s.block p := (rfl)
@[simp] theorem State.block_sramWrite (a : Nat) (l : List Byte) : (s.sramWrite a l).block p = s.block p := (rfl)

@[simp] theorem State.forEach_block {α : Type} (l : List α) (g : α → State → State) (h : ∀ a t, (g a t).block p = t.block p) :
    (s.forEach l g).block p = s.block p := State.forEach_keep (State.block p) l g (fun a _ t => h a t) s
@[simp] theorem State.foldl_block {α : Type} (l : List α) (g : State → α → State) (h : ∀ a t, (g t a).block p = t.block p) :
    (l.foldl g s).block p = s.block p := State.forEach_block s p l (fun a t => g t a) h
end

/-- The fields that the end of a pour, the keys and the host's view write lie in the shared blocks. -/
@[simp] theorem castFlds_far (e : EngIx) :
    (R.castStatVerdict e).far ∧ (R.castStatDone e).far ∧ (R.castStatBusy e).far ∧ (R.castSnuffSrc e).far := by
  simp only [Fld.far, R.castStatVerdict, R.castStatDone, R.castStatBusy, R.castSnuffSrc, posBase, engBase]
  omega

@[simp] theorem hostFlds_far : R.mtlKeysLoaded.far ∧ R.hqiTagsInuse.far ∧ R.hqiCqstatExists.far ∧ R.hqiCqstatPaused.far ∧
    R.hqiCqstatHeld.far ∧ R.hqiCqstatShare.far := by
  simp only [Fld.far, R.mtlKeysLoaded, R.hqiTagsInuse, R.hqiCqstatExists, R.hqiCqstatPaused, R.hqiCqstatHeld, R.hqiCqstatShare,
    posBase]
  omega

@[simp] theorem fnUseFlds_far (f : FnIx) : (R.fnUseHeld f).far ∧ (R.fnUseTags f).far ∧ (R.fnUseQueues f).far := by
  simp only [Fld.far, R.fnUseHeld, R.fnUseTags, R.fnUseQueues, bar0, posBase]
  omega

@[simp] theorem packPageChange_block (page : Nat) (p q : PosIx) (s : State) :
    (packPageChange page q s).block p = s.block p := by
  simp [packPageChange, pageChange]

@[simp] theorem readOnly_block (p q : PosIx) (reason : Nat) (s : State) : (readOnly q reason s).block p = s.block p := by
  simp [readOnly]

@[simp] theorem uncastAdd_block (p q : PosIx) (vaddr len cause reason : Nat) (s : State) :
    (uncastAdd q vaddr len cause reason s).block p = s.block p := by
  simp [uncastAdd]

@[simp] theorem castFail_block (p q : PosIx) (m reason : Nat) (s : State) : (castFail q m reason s).block p = s.block p := by
  unfold castFail
  split <;> simp [jappend, updCast]

@[simp] theorem rankFail_block (p q : PosIx) (n reason slot : Nat) (s : State) :
    (rankFail q n reason slot s).block p = s.block p := by
  unfold rankFail
  split <;> simp [repour, updRanks, deadSlot]

@[simp] theorem abandonRank_block (p q : PosIx) (n layer slot src : Nat) (s : State) :
    (abandonRank q n layer slot src s).block p = s.block p := by
  unfold abandonRank
  split <;> simp [castAppend, jappend]

@[simp] theorem tearLedger_block (p q : PosIx) (s : State) : (tearLedger q s).block p = s.block p := by
  unfold tearLedger
  split <;> simp [nearlyFull, queueRec]

@[simp] theorem abandonFrame_block (p : PosIx) (e : EngIx) (s : State) : (abandonFrame e s).block p = s.block p := by
  unfold abandonFrame
  split <;> simp [takeMode]

@[simp] theorem dropGates_block (p q : PosIx) (s : State) : (dropGates q s).block p = s.block p := by
  simp [dropGates]

@[simp] theorem finish_block (p : PosIx) (n cls reason result : Nat) (s : State) :
    (finish n cls reason result s).block p = s.block p := by
  unfold finish
  split <;> simp [freeTag, updTag, ctxPut]

@[simp] theorem endStripes_block (p q : PosIx) (s : State) : (endStripes q s).block p = s.block p := by
  simp [endStripes]

@[simp] theorem listUncast_block (p q : PosIx) (cause reason : Nat) (s : State) :
    (listUncast q cause reason s).block p = s.block p := by
  simp [listUncast]

@[simp] theorem releaseTiles_block (p q : PosIx) (s : State) : (releaseTiles q s).block p = s.block p := by
  simp [releaseTiles, freeTile, sealPut]

@[simp] theorem keySet_none_block (p q : PosIx) (s : State) : (keySet q none s).block p = s.block p := by
  simp [keySet]

@[simp] theorem packGone_block (p q : PosIx) (s : State) : (packGone q s).block p = s.block p := by
  simp [packGone]

@[simp] theorem showHost_block (p : PosIx) (s : State) : (showHost s).block p = s.block p := by
  have hcq : ∀ t : State, (showCq t).block p = t.block p := fun t => by
    unfold showCq
    split <;> simp
  simp [showHost, hcq, showFn]

end Sys2Proof.Machine
end

section
/-! PROOFS. Packs seated and removed, and the enable bit of their position. -/

namespace Sys2Proof.Machine

/-- At a position that the part offers the command runs. -/
theorem atPos_of_offered {s : State} {p : PosIx} (h : posOffered s p = true) (f : State → State) :
    atPos p f s = .next (settleAll (f s)) := by
  simp [atPos, done, h]

/-- The fields of POS_CFG and POS_CHK are not driven by settling. -/
theorem posFlds_notLatch (p : PosIx) : ∀ f ∈ [R.posCfgPack p, R.posCfgEn p, R.posChkReason p], ∀ q, ∀ g ∈ latchFlds q,
    f.key ≠ g.key := by
  decide +revert

section
variable (s : State) (p : PosIx)

@[simp] theorem settleAll_posCfgPack : (settleAll s).rd (R.posCfgPack p) = s.rd (R.posCfgPack p) :=
  settleAll_rd s (posFlds_notLatch p _ (by simp))
@[simp] theorem settleAll_posCfgEn : (settleAll s).rd (R.posCfgEn p) = s.rd (R.posCfgEn p) :=
  settleAll_rd s (posFlds_notLatch p _ (by simp))
@[simp] theorem settleAll_posChkReason : (settleAll s).rd (R.posChkReason p) = s.rd (R.posChkReason p) :=
  settleAll_rd s (posFlds_notLatch p _ (by simp))
end

theorem srvSnuffLatch_keys (p : PosIx) : (R.srvSnuffLatch p).key ≠ (R.srvSnuffSeen p).key ∧
    (R.srvSnuffLatch p).key ≠ (R.iglStatSuspend p).key := by
  decide +revert

/-- The end of a command at a position clears no latch. -/
theorem settle_latch {p : PosIx} {s : State} (h : s.rd (R.srvSnuffLatch p) = 1) (q : PosIx) :
    (settle q s).rd (R.srvSnuffLatch p) = 1 := by
  by_cases e : p = q
  · subst e
    obtain ⟨hseen, hsus⟩ := srvSnuffLatch_keys p
    rw [settle, showSuspend, State.rd_wr_ne _ _ hsus, askSnuff_rd, shutGates_rd, latchLive]
    split
    · exact h
    · rw [State.rd_wr_ne _ _ hseen]
      exact State.rd_wr_same _ _ _
  · have hne : ∀ p q : PosIx, p ≠ q → ∀ g ∈ latchFlds q, (R.srvSnuffLatch p).key ≠ g.key := by decide
    rw [settle_rd q s (hne p q e), h]

theorem settleAll_latch {p : PosIx} {s : State} (h : s.rd (R.srvSnuffLatch p) = 1) :
    (settleAll s).rd (R.srvSnuffLatch p) = 1 := by
  unfold settleAll State.forEach
  exact List.foldlRecOn (motive := fun t : State => t.rd (R.srvSnuffLatch p) = 1) allPos _ h fun _ ht q _ => settle_latch ht q

/-- A command that leaves the latch set ends with the gates shut. -/
theorem settleAll_gates {p : PosIx} {s : State} (h : s.rd (R.srvSnuffLatch p) = 1) : (settleAll s).pos[p].gates = 0 := by
  obtain ⟨-, hgates, -⟩ := settleAll_settled s p
  exact hgates (settleAll_latch h)

/-- The seat's and the latch's fields lie in the position's block. -/
theorem seatFlds_atPosition (p : PosIx) : (R.posCfgPack p).atPosition p ∧ (R.srvSnuffLatch p).atPosition p := by
  simp only [Fld.atPosition, Fld.key, R.posCfgPack, R.srvSnuffLatch, posBase]
  omega

/-- A page change is marked for the functions alone. -/
theorem packPageChange_keep {β : Type} (φ : State → β) (h : ∀ f g t, φ (State.updFn t f g) = φ t) (page : Nat) (p : PosIx)
    (s : State) : φ (packPageChange page p s) = φ s := by
  unfold packPageChange
  refine State.forEach_keep φ allFn _ (fun f _ t => ?_) s
  split
  · split
    · exact h ..
    · rfl
  · rfl

@[simp] theorem packPageChange_frame (page : Nat) (p : PosIx) (s : State) :
    (packPageChange page p s).packs = s.packs ∧ (packPageChange page p s).mtl = s.mtl ∧
    (packPageChange page p s).pins = s.pins ∧ ∀ f, (packPageChange page p s).rd f = s.rd f :=
  ⟨packPageChange_keep (·.packs) (by simp) .., packPageChange_keep (·.mtl) (by simp) ..,
    packPageChange_keep (·.pins) (by simp) .., fun f => packPageChange_keep (·.rd f) (by simp) ..⟩

/-- The host's view is of registers alone. -/
@[simp] theorem showHost_frame (s : State) : (showHost s).packs = s.packs ∧ (showHost s).mtl = s.mtl := by
  have hcq : ∀ t : State, (showCq t).packs = t.packs ∧ (showCq t).mtl = t.mtl := fun t => by
    unfold showCq
    split <;> simp
  have hfn : ∀ t : State, (t.forEach allFn showFn).packs = t.packs ∧ (t.forEach allFn showFn).mtl = t.mtl := fun t =>
    ⟨State.forEach_keep State.packs allFn showFn (fun _ _ _ => by simp [showFn]) t,
      State.forEach_keep State.mtl allFn showFn (fun _ _ _ => by simp [showFn]) t⟩
  simp [showHost, hcq, hfn]

/-- A pack that has gone leaves its temperature behind. -/
@[simp] theorem packGone_frame (p : PosIx) (s : State) : (packGone p s).mtl = s.mtl ∧
    (packGone p s).packs[(p : Nat)] = { PackState.reset with temp := s.packs[p].temp, hot := s.packs[p].hot } := by
  simp [packGone]

theorem keySet_none_keys (p : PosIx) (s : State) : Assoc.get p.val (keySet p none s).mtl.keys = none := by
  simp [keySet, State.clrBitOf, Assoc.get_del_same]

theorem State.rd_set_pins (s : State) (x : PinState) (f : Fld) : ({ s with pins := x } : State).rd f = s.rd f := (rfl)

/-- PACK_SENSE_Np at the device, and PACK as it shows it. -/
def unseat (p : PosIx) (s : State) : State :=
  { s.clr1 (R.posCfgPack p) with pins := { s.pins with sense := clrBit s.pins.sense p } }

theorem unseat_rd (p : PosIx) (s : State) : (unseat p s).rd (R.posCfgPack p) = 0 :=
  (State.rd_wr_same s (R.posCfgPack p) 0).trans (Nat.zero_mod _)

/-- What a pack that was there leaves behind (R324). -/
def packLost (p : PosIx) (s : State) : State :=
  let s := snuffLatch p s
  let s := s.updSpn p fun n => { n with coastNext := spnState s p != spnOff && spnState s p != spnFault, waitSlot := false }
  let s := if carState s p == carFault then s else s.updCar p fun c => { c with offNext := true }
  let s := (packTags s p).foldl (fun s t => finish t.num 2 0x040D (workResult t) s) s
  packPageChange 4 p (packGone p (keySet p none (releaseTiles p (listUncast p 5 0x040D (endStripes p s)))))

theorem packRemoved_eq (p : PosIx) (s : State) : packRemoved p s =
    if (unseat p s).packs[p].status == .none then unseat p s else packLost p (unseat p s) := (rfl)

/-- Removal sets the latch, and moves no other register of the position and no pin. -/
theorem packLost_block (p : PosIx) (s : State) : (packLost p s).block p = (s.set1 (R.srvSnuffLatch p)).block p := by
  simp [packLost, snuffLatch]

theorem packLost_status (p : PosIx) (s : State) : (packLost p s).packs[p].status = .none := by
  simp [packLost, PackState.reset]

theorem packLost_keys (p : PosIx) (s : State) : Assoc.get p.val (packLost p s).mtl.keys = none := by
  simp only [packLost, packPageChange_frame, packGone_frame, keySet_none_keys]

theorem packLost_latch (p : PosIx) (s : State) : (packLost p s).rd (R.srvSnuffLatch p) = 1 :=
  (rd_of_block (packLost_block p s) (seatFlds_atPosition p).2).trans (State.rd_wr_same _ _ _)

theorem packLost_pack (p : PosIx) (s : State) : (packLost p s).rd (R.posCfgPack p) = s.rd (R.posCfgPack p) := by
  have hne : (R.posCfgPack p).key ≠ (R.srvSnuffLatch p).key := by decide +revert
  exact (rd_of_block (packLost_block p s) (seatFlds_atPosition p).1).trans (State.rd_wr_ne _ _ hne)

theorem packRemoved_seat (p : PosIx) (s : State) :
    (showHost (packRemoved p s)).rd (R.posCfgPack p) = 0 ∧
    (showHost (packRemoved p s)).pins.sense = clrBit s.pins.sense p := by
  rw [rd_of_block (showHost_block p _) (seatFlds_atPosition p).1, pins_of_block (showHost_block p _), packRemoved_eq]
  split
  · exact ⟨unseat_rd p s, rfl⟩
  · rw [packLost_pack, pins_of_block (packLost_block p _)]
    exact ⟨unseat_rd p s, rfl⟩

/-- PACK_SENSE_Np asserted (R493). -/
theorem exec_packSeated {s : State} {p : PosIx} (h : posOffered s p = true) :
    ∃ u, exec (.packSeated p) s = .next u ∧ u.rd (R.posCfgPack p) = 1 ∧ u.pins.sense = setBit s.pins.sense p := by
  refine ⟨_, atPos_of_offered h _, ?_, ?_⟩
  · simp only [settleAll_posCfgPack, packSeated, packPageChange_frame, State.rd_set_pins]
    exact State.rd_wr_same _ _ _
  · simp [packSeated]

/-- PACK_SENSE_Np deasserted (R324, R493). -/
theorem exec_packRemoved {s : State} {p : PosIx} (h : posOffered s p = true) :
    ∃ u, exec (.packRemoved p) s = .next u ∧ u.rd (R.posCfgPack p) = 0 ∧ u.pins.sense = clrBit s.pins.sense p ∧
      (s.packs[p].status ≠ .none → u.rd (R.srvSnuffLatch p) = 1 ∧ u.pos[p].gates = 0 ∧ u.packs[p].status = .none ∧
        Assoc.get p.val u.mtl.keys = none) := by
  obtain ⟨hpack, hsense⟩ := packRemoved_seat p s
  refine ⟨_, atPos_of_offered h fun s => showHost (packRemoved p s), ?_, ?_, fun hs => ?_⟩
  · rw [settleAll_posCfgPack, hpack]
  · simp [hsense]
  · have hlost : packRemoved p s = packLost p (unseat p s) :=
      (packRemoved_eq p s).trans (if_neg fun e => hs (beq_iff_eq.1 e))
    have hlatch : (showHost (packRemoved p s)).rd (R.srvSnuffLatch p) = 1 := by
      rw [rd_of_block (showHost_block p _) (seatFlds_atPosition p).2, hlost, packLost_latch]
    refine ⟨settleAll_latch hlatch, settleAll_gates hlatch, ?_, ?_⟩
    · simpa [hlost] using packLost_status p (unseat p s)
    · simpa [hlost] using packLost_keys p (unseat p s)

/-- The check's reason is a code of sixteen bits. -/
theorem posCheck_lt (s : State) (p : PosIx) : posCheck s p < 2 ^ 16 := by
  unfold posCheck
  dsimp only
  repeat' split
  all_goals decide

theorem posChkReason_ne_posCfgEn (p : PosIx) : (R.posCfgEn p).key ≠ (R.posChkReason p).key := by decide +revert

/-- POS_CFG.EN written 1 (R334, R335). -/
theorem exec_positionEnable_on {s : State} {p : PosIx} (h : posOffered s p = true) :
    ∃ u, exec (.positionEnable p true) s = .next u ∧
      u.rd (R.posCfgEn p) = (if posCheck s p = 0 then 1 else s.rd (R.posCfgEn p)) ∧ u.rd (R.posChkReason p) = posCheck s p := by
  refine ⟨_, atPos_of_offered h _, ?_⟩
  simp only [settleAll_posCfgEn, settleAll_posChkReason, positionEnable, if_true]
  split
  · next hc =>
    rw [State.rd_wr_ne _ _ (posChkReason_ne_posCfgEn p), State.rd_wr_same, hc]
    exact ⟨State.rd_wr_same _ _ _, Nat.zero_mod _⟩
  · rw [State.rd_wr_ne _ _ (posChkReason_ne_posCfgEn p), State.rd_wr_same]
    exact ⟨rfl, Nat.mod_eq_of_lt (posCheck_lt s p)⟩

/-- POS_CFG.EN written 0 (R335). -/
theorem exec_positionEnable_off {s : State} {p : PosIx} (h : posOffered s p = true) :
    ∃ u, exec (.positionEnable p false) s = .next u ∧
      u.rd (R.posCfgEn p) = (if posFree s p then 0 else s.rd (R.posCfgEn p)) ∧
      (posFree s p = false → u.rd (R.posChkReason p) = 0x030B) := by
  refine ⟨_, atPos_of_offered h _, ?_⟩
  simp only [settleAll_posCfgEn, settleAll_posChkReason, positionEnable, Bool.false_eq_true, if_false]
  split
  · next hf =>
    simp only [hf, Bool.true_eq_false, false_implies, and_true]
    exact (State.rd_wr_same s _ 0).trans (Nat.zero_mod _)
  · exact ⟨State.rd_wr_ne _ _ (posChkReason_ne_posCfgEn p), fun _ => State.rd_wr_same _ _ _⟩

end Sys2Proof.Machine
end

section
/-! PROOFS. The power states of a pack as its idle times end. -/

namespace Sys2Proof.Machine

section
variable (p : PosIx) (s : State)

@[simp] theorem State.packs_ite (c : Prop) [Decidable c] (a b : State) :
    (if c then a else b).packs = if c then a.packs else b.packs := apply_ite ..

/-- Loops, carriage and spindle move no pack. -/
@[simp] theorem loopsOff_packs : (loopsOff p s).packs = s.packs := by
  refine State.forEach_keep State.packs allLoops _ (fun l _ t => ?_) s
  simp [loopModeWrite, pendMode, State.updLoop]

@[simp] theorem carRefuse_packs (code : Nat) : (carRefuse p code s).packs = s.packs := by simp [carRefuse, carLoad]
@[simp] theorem carStopCmd_packs : (carStopCmd p s).packs = s.packs := by simp [carStopCmd, carStop, carEnter, carBegin]
@[simp] theorem carParkCmd_packs : (carParkCmd p s).packs = s.packs := by simp [carParkCmd, seekTo, carEnter, carBegin]
@[simp] theorem carOffCmd_packs : (carOffCmd p s).packs = s.packs := by simp [carOffCmd]

@[simp] theorem spnRefuse_packs : (spnRefuse p s).packs = s.packs := by simp [spnRefuse, spnReason]
@[simp] theorem spnStop_packs (short : Bool) : (spnStop p short s).packs = s.packs := by
  simp [spnStop, spnEnter, spnInterval, spnToBrake, spnGates]

@[simp] theorem pllTrim_packs (n : Nat) : (pllTrim n s).packs = s.packs := by
  unfold pllTrim
  split <;> simp
@[simp] theorem linkStop_packs : (linkStop p s).packs = s.packs := by simp [linkStop]

@[simp] theorem finish_packs (n cls reason result : Nat) : (finish n cls reason result s).packs = s.packs := by
  unfold finish
  split <;> simp [freeTag, updTag, ctxPut]

@[simp] theorem State.foldl_updEng_frame (l : List EngIx) (g : EngState → EngState) :
    (l.foldl (fun s e => s.updEng e g) s).packs = s.packs ∧ (l.foldl (fun s e => s.updEng e g) s).stripes = s.stripes :=
  ⟨State.forEach_keep State.packs l (fun e s => s.updEng e g) (by simp) s,
    State.forEach_keep State.stripes l (fun e s => s.updEng e g) (by simp) s⟩

@[simp] theorem endStripes_frame : (endStripes p s).packs = s.packs ∧
    (endStripes p s).stripes = s.stripes.filter fun x => x.p != p := by
  simp [endStripes]
end

theorem settleAll_packs (s : State) : (settleAll s).packs = s.packs := by simp

/-- A Streaming pack without a stripe operation leaves that state, or flushes its ledger first. -/
theorem streamingIdle_streamed {s : State} {p : PosIx} (hpow : s.packs[p].power = 3) (hidle : streaming s p = false) :
    streamingIdle p s = if flushed s.packs[p] then setPower p 2 (endStripes p s) else flushLedger p s := by
  unfold streamingIdle
  extract_lets k
  refine if_neg ?_
  simp only [k, hpow, hidle]
  decide

/-- 100 ms after the last stripe operation of a pack whose ledger is flushed (R423). -/
theorem exec_streamingIdleExpiry_flushed {s : State} {p : PosIx} (h : posOffered s p = true) (hpow : s.packs[p].power = 3)
    (hidle : streaming s p = false) (hfl : flushed s.packs[p] = true) :
    ∃ u, exec (.streamingIdleExpiry p) s = .next u ∧ u.packs[p].power = 2 ∧ ∀ x ∈ u.stripes, x.p ≠ p := by
  have hidle : streamingIdle p s = setPower p 2 (endStripes p s) :=
    (streamingIdle_streamed hpow hidle).trans (if_pos hfl)
  refine ⟨_, atPos_of_offered h (streamingIdle p), ?_, fun x hx => ?_⟩
  · simp [hidle, setPower]
  · simp [hidle, setPower] at hx
    exact hx.2

/-- And of one whose ledger is not (R93, R423): it stays, and its flush falls due. -/
theorem exec_streamingIdleExpiry_unflushed {s : State} {p : PosIx} (h : posOffered s p = true) (hpow : s.packs[p].power = 3)
    (hidle : streaming s p = false) (hfl : flushed s.packs[p] = false) :
    ∃ u, exec (.streamingIdleExpiry p) s = .next u ∧ u.packs[p].power = 3 ∧
      (s.packs[p].lq ≠ [] → u.packs[p].flushDue = true) := by
  have hidle : streamingIdle p s = flushLedger p s :=
    (streamingIdle_streamed hpow hidle).trans (if_neg (Bool.eq_false_iff.1 hfl))
  refine ⟨_, atPos_of_offered h (streamingIdle p), ?_, fun hlq => ?_⟩
  · simpa [hidle, flushLedger] using hpow
  · simpa [hidle, flushLedger] using .inr hlq

/-- A mode written to a loop shows in its mode field, or in MODEERR. -/
theorem loopModeWrite_rd {p : PosIx} {l : Fin 24} {f : Fld} (hmode : f.key ≠ (R.loopCtrlMode p l).key)
    (herr : f.key ≠ (R.loopFlagsModeerr p l).key) (m : Nat) (s : State) : (loopModeWrite p l m s).rd f = s.rd f := by
  unfold loopModeWrite
  split
  · exact State.rd_wr_ne _ _ herr
  · simp only [pendMode, State.updLoop, State.updSrv_frame]
    exact State.rd_wr_ne _ _ hmode

/-- The loops' modes are no part of the carriage's state. -/
theorem loopsOff_carState (p : PosIx) (s : State) : carState (loopsOff p s) p = carState s p := by
  refine State.forEach_keep (State.rd · (R.carStatState p)) allLoops _ (fun l _ t => ?_) s
  have hne : (R.carStatState p).key ≠ (R.loopCtrlMode p l).key ∧ (R.carStatState p).key ≠ (R.loopFlagsModeerr p l).key := by
    simp only [Fld.key, R.carStatState, R.loopCtrlMode, R.loopFlagsModeerr, posBase]
    omega
  obtain ⟨hmode, herr⟩ := hne
  split
  · rfl
  · exact loopModeWrite_rd hmode herr loopOff t

/-- A step of parking whose carriage is PARKED or OFF ends it; any other leaves the pack as it is (R211). -/
theorem parkStep_pack {p : PosIx} {s : State} (hgo : s.packs[p].goPark = true) :
    (parkStep p s).packs[p] = if carState s p = carParked ∨ carState s p = carOff then
      { s.packs[p] with goPark := false, power := min 1 s.packs[p].power } else s.packs[p] := by
  have hgo' : (!s.packs[p].goPark) = false := congrArg not hgo
  simp only [parkStep, hgo', Bool.false_eq_true, if_false, loopsOff_carState, Bool.or_eq_true, beq_iff_eq]
  split
  · simp
  · simp

/-- Spinning-idle is asked for: a pack whose carriage is PARKED or OFF is there, any other is on its way. -/
theorem packPark_pack (p : PosIx) (s : State) :
    (carState s p = carParked ∨ carState s p = carOff → (packPark p s).packs[p].power = min 1 s.packs[p].power) ∧
    (¬ (carState s p = carParked ∨ carState s p = carOff) → (packPark p s).packs[p].goPark = true) := by
  rw [packPark, parkStep_pack (by simp)]
  refine ⟨fun hc => ?_, fun hc => ?_⟩
  · exact (congrArg PackState.power (if_pos hc)).trans (by simp)
  · exact (congrArg PackState.goPark (if_neg hc)).trans (by simp)

/-- IDLE_PARK after the entry into Tracking-idle (R423). -/
theorem exec_idleParkExpiry {s : State} {p : PosIx} (h : posOffered s p = true) (hpow : s.packs[p].power = 2)
    (hfloor : s.packs[p].floor ≤ 1) (hpol : s.policyOf 0x40 p ≠ 0) (hgo : s.packs[p].goPark = false) :
    ∃ u, exec (.idleParkExpiry p) s = .next u ∧
      (carState s p = carParked ∨ carState s p = carOff → u.packs[p].power = 1) ∧
      (¬ (carState s p = carParked ∨ carState s p = carOff) → u.packs[p].goPark = true) := by
  have hpark : idlePark p s = packPark p s := by
    unfold idlePark
    extract_lets k
    refine if_neg ?_
    simp only [k, hpow, hgo, hpol, gt_iff_lt, Nat.not_lt.2 hfloor]
    decide
  obtain ⟨hspin, hway⟩ := packPark_pack p s
  refine ⟨_, atPos_of_offered h (idlePark p), fun hc => ?_, fun hc => ?_⟩
  · rw [settleAll_packs, hpark, hspin hc, hpow]
    rfl
  · rw [settleAll_packs, hpark, hway hc]

/-- A pack on its way to Off is Off once its spindle is (R322, R424). -/
theorem packOff_power {p : PosIx} {s : State} (hgo : s.packs[p].goOff = true) : (packOff p s).packs[p].power = 0 := by
  have hgo' : (!s.packs[p].goOff) = false := congrArg not hgo
  rw [packOff, hgo', if_neg Bool.false_ne_true]
  extract_lets a b k v
  have hb : b.packs[p].power = 0 := by simp [b]
  have hv : v.packs[p].power = 0 := by simp [v, PackState.reset]
  clear_value b v
  split
  · split <;> simpa using hv
  · split
    · simp [PackState.reset]
    · exact hb

/-- The spindle leaves FAULT, and a pack on its way to Off is Off; or the command is refused. -/
theorem spnClear_pack {p : PosIx} {s : State} (hgo : s.packs[p].goOff = true) :
    (spnClear p s).packs[p].goOff = true ∨ (spnClear p s).packs[p].power = 0 := by
  unfold spnClear
  split
  · exact .inr (packOff_power (by simpa [spnEnter, spnGates] using hgo))
  · exact .inl (by simpa using hgo)

theorem packStop_pack (p : PosIx) (s : State) :
    (packStop p s).packs[p].goOff = true ∨ (packStop p s).packs[p].power = 0 := by
  simp only [packStop]
  split
  · split
    · exact .inr (packOff_power (by simp))
    · exact .inr (packOff_power (by simp))
  · split
    · exact spnClear_pack (by simp)
    · split
      · exact .inl (by simp)
      · exact .inl (by simp)

/-- IDLE_SPINDOWN after the entry into Spinning-idle (R423). -/
theorem exec_idleSpindownExpiry {s : State} {p : PosIx} (h : posOffered s p = true) (hpow : s.packs[p].power = 1)
    (hfloor : s.packs[p].floor = 0) (hpol : s.policyOf 0x41 p ≠ 0) (hgo : s.packs[p].goOff = false) :
    ∃ u, exec (.idleSpindownExpiry p) s = .next u ∧ (u.packs[p].goOff = true ∨ u.packs[p].power = 0) := by
  have hstop : idleSpindown p s = packStop p s := by
    unfold idleSpindown
    extract_lets k
    refine if_neg ?_
    simp only [k, hpow, hfloor, hpol, hgo]
    decide
  refine ⟨_, atPos_of_offered h (idleSpindown p), ?_⟩
  simpa [hstop] using packStop_pack p s

end Sys2Proof.Machine
end

section
/-! PROOFS. First accesses to layers, patrol reads and stripe operations; all of a pack's life together. -/

namespace Sys2Proof.Machine

theorem bitAt_setBit (v n : Nat) : bitAt (setBit v n) n = true := by
  unfold setBit
  split
  · assumption
  · next h =>
    simp only [bitAt, beq_iff_eq] at h ⊢
    rw [Nat.add_div_right _ (Nat.two_pow_pos n)]
    omega

/-- What a pack has seen, and why it is read-only. -/
def seenOf (p : PosIx) (s : State) : Nat × List Nat := (s.packs[p].seen, s.packs[p].roCauses)

/-- A cause made read-only stands; what the pack has seen stays. -/
theorem readOnly_pack (p : PosIx) (reason : Nat) (s : State) :
    (readOnly p reason s).packs[p].seen = s.packs[p].seen ∧ reason ∈ (readOnly p reason s).packs[p].roCauses := by
  simp only [readOnly]
  split
  · next h => exact ⟨rfl, by simpa using h⟩
  · simp

/-- The measurements asked for are no part of it. -/
theorem queueRecal_seenOf (p : PosIx) (layer mask kinds : Nat) (s : State) :
    seenOf p (queueRecal p layer mask kinds s) = seenOf p s := by
  simp [queueRecal, seenOf]

theorem State.foldl_seenOf {α : Type} (p : PosIx) (l : List α) (g : State → α → State) (s : State)
    (h : ∀ t a, seenOf p (g t a) = seenOf p t) : seenOf p (l.foldl g s) = seenOf p s :=
  State.forEach_keep (seenOf p) l (fun a t => g t a) (fun a _ t => h t a) s

/-- Where no card holds its CRC, none is found. -/
theorem noCard {cards : List (List (List Byte))} (h : ∀ l ∈ cards, ∀ c ∈ l, cardCrcOk c = false) :
    ((List.range 8).map fun f => (nth [] cards f).find? cardCrcOk).findSome? id = none := by
  refine List.findSome?_eq_none_iff.2 fun x hx => ?_
  obtain ⟨f, -, rfl⟩ := List.mem_map.1 hx
  refine List.find?_eq_none.2 fun c hc => ?_
  by_cases hf : f < cards.length
  · have hc : c ∈ cards[f] := by simpa [nth, hf] using hc
    simp [h _ (List.getElem_mem hf) c hc]
  · simp [nth, hf] at hc

/-- The first access to a layer (R51, R238, R321). -/
theorem layerAccess_pack {p : PosIx} {layer : Nat} {cards : List (List (List Byte))} {s : State}
    (hs : s.packs[p].status ≠ .none) (hb : bitAt s.packs[p].seen layer = false) :
    (seenOf p (layerAccess p layer cards s)).1 = setBit s.packs[p].seen layer ∧
    ((∀ l ∈ cards, ∀ c ∈ l, cardCrcOk c = false) → 0x0804 ∈ (seenOf p (layerAccess p layer cards s)).2) := by
  have hfirst : (s.packs[p].status == .none || bitAt s.packs[p].seen layer) = false := by
    simp only [hb, Bool.or_false]
    exact beq_eq_false_iff_ne.2 hs
  rw [layerAccess, hfirst, if_neg Bool.false_ne_true]
  extract_lets found own misfit card a b c
  have hseenA : a.packs[p].seen = setBit s.packs[p].seen layer := by simp [a]
  have hseenB : b.packs[p].seen = a.packs[p].seen := by
    unfold b
    split
    · exact (readOnly_pack ..).1
    · rfl
  have hseenC : c.packs[p].seen = b.packs[p].seen := by
    unfold c
    split
    · exact (readOnly_pack ..).1.trans (by simp)
    · rfl
  rw [State.foldl_seenOf]
  · refine ⟨hseenC.trans (hseenB.trans hseenA), fun hcards => ?_⟩
    have hcard : card.isNone = true := Option.isNone_iff_eq_none.2 (noCard hcards)
    unfold c
    rw [if_pos hcard]
    exact (readOnly_pack ..).2
  · intro t f
    dsimp only
    split
    · rfl
    · exact queueRecal_seenOf ..

theorem exec_layerFirstAccess {s : State} {p : PosIx} (h : posOffered s p = true) {layer : Fin 16}
    {cards : List (List (List Byte))} (hs : s.packs[p].status ≠ .none) (hb : bitAt s.packs[p].seen layer = false) :
    ∃ u, exec (.layerFirstAccess p layer cards) s = .next u ∧ bitAt u.packs[p].seen layer = true ∧
      ((∀ l ∈ cards, ∀ c ∈ l, cardCrcOk c = false) → 0x0804 ∈ u.packs[p].roCauses) := by
  obtain ⟨hseen, hro⟩ := layerAccess_pack (cards := cards) hs hb
  have hseen : (layerAccess p layer cards s).packs[p].seen = setBit s.packs[p].seen layer := hseen
  refine ⟨_, atPos_of_offered h (layerAccess p layer cards), ?_, fun hcards => ?_⟩
  · rw [settleAll_packs, hseen, bitAt_setBit]
  · rw [settleAll_packs]
    exact hro hcards

/-- A patrol read begins (R331). -/
theorem exec_patrolRead {s : State} {p : PosIx} (h : posOffered s p = true) {n : Nat} (hs : s.packs[p].status = .mounted)
    (hpol : s.policyOf 0x30 p ≠ 0) (hfw : s.rd R.lampCrelC0 = 1) (hnone : s.packs[p].patrolling = none)
    (hwait : readWaits s = false) (hrec : s.packs[p].recorded.contains (n / 128) = true) (htr : tracking s p = true) :
    ∃ u, exec (.patrolRead p n) s = .next u ∧ u.packs[p].patrolling = some n := by
  have hstart : (patrolRead p n s).packs[p].patrolling = some n := by
    have hup : fwUp s = true := beq_iff_eq.2 hfw
    unfold patrolRead
    extract_lets k
    rw [if_neg (by simp only [k, hs, hpol, hup]; decide)]
    simp only [k, hnone]
    rw [if_neg (by simp only [hwait, hrec, htr]; decide)]
    simp
  refine ⟨_, atPos_of_offered h (patrolRead p n), ?_⟩
  simpa using hstart

/-- An engine that serves a surface of position p. -/
def servesAt (p : PosIx) (e : EngIx) (s : State) : Prop := s.eng[e].home.map (·.1) = some p

theorem rehome_serves (e : EngIx) (p : PosIx) (f : Fin 8) (s : State) : servesAt p e (rehome e p f s) := by
  unfold rehome servesAt
  split
  · next h => exact congrArg (Option.map (·.1)) (beq_iff_eq.1 h)
  · simp

/-- An engine that serves position p still does when another comes to serve it. -/
theorem rehome_keeps_serving {p : PosIx} {k : EngIx} {s : State} (h : servesAt p k s) (e : EngIx) (f : Fin 8) :
    servesAt p k (rehome e p f s) := by
  by_cases hk : k = e
  · subst hk
    exact rehome_serves k p f s
  · have hne : (e : Nat) ≠ k := fun x => hk (Fin.ext x.symm)
    unfold rehome
    split
    · exact h
    · simpa [servesAt, State.updEng, hne] using h

/-- Engines come to serve the surfaces of position p, one by one. -/
def allocate (p : PosIx) (l : List (EngIx × Nat)) (s : State) : State :=
  l.foldl (fun s x => rehome x.1 p ⟨x.2 % 8, by omega⟩ s) s

theorem allocate_serves {p : PosIx} {e : EngIx} (l : List (EngIx × Nat)) {s : State}
    (h : e ∈ l.map (·.1) ∨ servesAt p e s) : servesAt p e (allocate p l s) := by
  induction l generalizing s with
  | nil => exact h.resolve_left List.not_mem_nil
  | cons x l ih =>
    refine ih (s := rehome x.1 p _ s) ?_
    rcases h with h | h
    · rcases List.mem_cons.1 h with rfl | h
      · exact .inr (rehome_serves ..)
      · exact .inl h
    · exact .inr (rehome_keeps_serving h _ _)

/-- What a stripe operation does once it may begin: the operations it replaces end, and the engines are allocated. -/
def stripeBegin (p : PosIx) (pour : Bool) (layer : Nat) (es : List EngIx) (s : State) : State :=
  let gone := s.stripes.filter fun x => x.p == p || x.engines.any fun e => es.contains e
  let s := allocate p es.zipIdx (gone.foldl (fun s x => endStripes x.p s) s)
  let s := s.updPack p fun k => { k with stream := k.stream.filter fun x => pour && x.1 == layer }
  setPower p 3 { s with stripes := s.stripes ++ [{ p := p, pour := pour, engines := es }] }

theorem stripeBegin_pack (p : PosIx) (pour : Bool) (layer : Nat) (es : List EngIx) (s : State) :
    (stripeBegin p pour layer es s).packs[p].power = 3 ∧
    ({ p := p, pour := pour, engines := es } : Stripe) ∈ (stripeBegin p pour layer es s).stripes ∧
    ∀ e ∈ es, servesAt p e (stripeBegin p pour layer es s) := by
  refine ⟨by simp [stripeBegin, setPower], by simp [stripeBegin, setPower], fun e he => ?_⟩
  have hmem : e ∈ es.zipIdx.map (·.1) := by simpa using he
  rw [servesAt]
  simpa [stripeBegin, setPower, servesAt] using allocate_serves es.zipIdx (.inl hmem)

/-- A stripe operation whose conditions hold begins (R13, R14, R505). -/
theorem stripeStart_begins {p : PosIx} {pour : Bool} {layer : Nat} {es : List EngIx} {s : State}
    (hs : s.packs[p].status ≠ .none) (hfw : s.rd R.lampCrelC0 = 1) (hfail : s.pins.pwrFail = false)
    (hidle : streaming s p = false) (hfree : enginesFree s p es = true)
    (hrun : (if pour then pourPaused s p else readsPaused s p) = false) (htr : tracking s p = true)
    (hsus : s.rd (R.iglStatSuspend p) = 0) (hlim : othersRun s p (fun _ => true) < stripeLimit s)
    (hpour : pour = true → s.packs[p].hot = false ∧ s.packs[p].roMount = false ∧ bitAt s.packs[p].opcDone layer = true ∧
      (readWaits s = true → othersRun s p (·.pour) < pourShare s)) :
    stripeStart p pour layer es s = stripeBegin p pour layer es s := by
  have hmounted : (s.packs[p].status == .none) = false := beq_eq_false_iff_ne.2 hs
  have hup : fwUp s = true := beq_iff_eq.2 hfw
  unfold stripeStart
  extract_lets k
  refine (if_neg ?_).trans ((if_neg ?_).trans ((if_neg ?_).trans ((if_neg ?_).trans (if_neg ?_))))
  · simp only [k, hmounted, hup, hfail, hidle, hfree, hrun]
    decide
  · simp [htr]
  · simpa [hsus] using hlim
  · intro h
    simp only [Bool.and_eq_true, Bool.or_eq_true, decide_eq_true_eq] at h
    obtain ⟨hp, hstop⟩ := h
    obtain ⟨hhot, hro, -, hshare⟩ := hpour hp
    rcases hstop with (hstop | hstop) | ⟨hwait, hstop⟩
    · exact Bool.false_ne_true (hhot.symm.trans hstop)
    · exact Bool.false_ne_true (hro.symm.trans hstop)
    · exact absurd (hshare hwait) (Nat.not_lt.2 hstop)
  · intro h
    simp only [Bool.and_eq_true, Bool.not_eq_true'] at h
    obtain ⟨hp, hopc⟩ := h
    obtain ⟨-, -, hdone, -⟩ := hpour hp
    exact Bool.false_ne_true (hopc.symm.trans hdone)

/-- Settles O33, clause by clause: seating and removal, the enable bit, the idle times, first accesses, patrol reads and stripe
operations. -/
theorem packPresenceAndPower : Obligations.PackPresenceAndPower := by
  unfold Obligations.PackPresenceAndPower
  intro s p h
  obtain ⟨u, hu, hen, hchk⟩ := exec_positionEnable_on h
  obtain ⟨v, hv, hoff, hfree⟩ := exec_positionEnable_off h
  refine ⟨exec_packSeated h, exec_packRemoved h, fun hc => ⟨u, hu, ?_, ?_⟩, fun hc => ⟨u, hu, ?_, hchk⟩,
    fun hf => ⟨v, hv, ?_⟩, fun hf => ⟨v, hv, ?_, hfree hf⟩,
    fun hpow hidle => ⟨exec_streamingIdleExpiry_flushed h hpow hidle, exec_streamingIdleExpiry_unflushed h hpow hidle⟩,
    exec_idleParkExpiry h, exec_idleSpindownExpiry h, fun _ _ => exec_layerFirstAccess h, fun _ => exec_patrolRead h,
    fun pour layer es hs hfw hfail hidle hfree hrun htr hsus hlim hpour => ?_⟩
  · rw [hen, if_pos hc]
  · rw [hchk, hc]
  · rw [hen, if_neg hc]
  · rw [hoff, if_pos hf]
  · rw [hoff, if_neg (Bool.eq_false_iff.1 hf)]
  · have hbegin := stripeStart_begins hs hfw hfail hidle hfree hrun htr hsus hlim hpour
    obtain ⟨hpow, hstripe, hserve⟩ := stripeBegin_pack p pour layer es s
    refine ⟨_, atPos_of_offered h (stripeStart p pour layer es), ?_, ?_, fun e he => ?_⟩
    · simpa [hbegin] using hpow
    · simpa [hbegin] using hstripe
    · simpa [hbegin, servesAt] using hserve e he

end Sys2Proof.Machine
end
